-- ==== Sys2Proof/Word.lean ====
section
/-! DEFINITION. The word types of the model and the plainest integer arithmetic of the manual's conventions (R5, R6). -/

namespace Sys2Proof

/-- A register word: every register is 32 bits wide (R7). -/
abbrev W32 := BitVec 32
/-- A byte of a packet, a cell, a block or a memory. -/
abbrev Byte := BitVec 8

/-- clamp(x, lo, hi) of R6. -/
def clampInt (x lo hi : Int) : Int := if x < lo then lo else if hi < x then hi else x

/-- round(n / d) of R6 for a positive d: to the nearest integer, halves away from zero. -/
def roundDiv (n d : Int) : Int :=
  if 0 ≤ n then (2 * n + d) / (2 * d) else -((2 * (-n) + d) / (2 * d))

/-- Integer division of R6: truncation toward zero. -/
def truncDiv (n d : Int) : Int := Int.tdiv n d

/-- A count that saturates at `top`. -/
def satAdd (top a b : Nat) : Nat := if a + b ≤ top then a + b else top

/-- ceil(a / b) for b > 0. -/
def ceilDiv (a b : Nat) : Nat := (a + b - 1) / b

end Sys2Proof
end

