-- ==== Sys2Proof/Syntax.lean ====
section
/-! DEFINITION. The commands of the block: one constructor for each row of spec/opcode_table.json, with the row's
operands. An operand that names what the outside world or the analogue hardware did (the bytes on a bus, the outcome of
a measurement, whether a lane locked) is part of the command; everything the device computes is the command's effect. -/

namespace Sys2Proof

/-- The access paths of R326, each with its own snapshots (R396): the management bus, CONTROL packets of the server
sessions, the REG_READ and REG_WRITE services of Heath, and Heath's own accesses. Each path issues one access at a time, and the order of the
commands is the order in which accesses reach a register (R327). -/
inductive Path where
  | bus | control | service | heath
  deriving DecidableEq, Repr

/-- What a read of HBM or Sward reports (R309, R310). -/
inductive EccResult where
  | clean | corrected | uncorrectable
  deriving DecidableEq, Repr

/-- What delivery of a row segment's real-time data came to (R19, R154, R169). -/
structure RowData where
  ledgerLate : Bool
  ledgerEcc : EccResult
  mapLate : Bool
  mapEcc : EccResult
  deriving DecidableEq, Repr

/-- What a job's reads of its source reported (R310): the source offset of an uncorrectable error, and how many reads were
corrected. -/
structure JobEcc where
  bad : Option (BitVec 40)
  corrected : BitVec 16
  deriving DecidableEq, Repr

/-- What discovery finds of a NOR flash that answers: whether it has SFDP tables, whether every discovery read completed, and whether
the tables advertise 8D-8D-8D and 1-4-4 (R367). -/
structure NorTables where
  sfdp : Bool
  readOk : Bool
  octal : Bool
  quad : Bool
  deriving DecidableEq, Repr

/-- One back-channel or readback observation of a lane in a slot; see R208. -/
abbrev LaneMask := BitVec 17

/-- What alignment finds on one physical lane of an ingest port: its polarity, its skew, and the logical lane, the port and
the count that its ALIGN block names (R215, R217). -/
structure LaneAlign where
  inverted : Bool
  logical : Fin 8
  skew : BitVec 8
  port : Fin 2
  count : BitVec 8
  deriving DecidableEq, Repr

/-- What the ALIGN block of a lane of a cascade port names: bytes 1 to 3 (R215, R275). -/
structure CasLane where
  logical : Byte
  port : Byte
  count : Byte
  deriving DecidableEq, Repr

/-- What a cascade port finds at its other end as its lanes lock: whether the partner is a head, and its lanes' ALIGN blocks (R274,
R275). -/
structure CasPartner where
  head : Bool
  lanes : List CasLane
  deriving DecidableEq, Repr

/-- The commands. -/
inductive Instr where
  | registerWrite (p : Path) (a v : W32)
  | readClearRegister (p : Path) (a : W32)
  | snapshotRead (p : Path) (a : W32)
  | turnLoRead (p : Path)
  | flipTimeLoRead (p : Path)
  | evtFifoRead (p : Path)
  | i2cWrite (dev : BitVec 7) (bytes : List Byte)
  | i2cRead (dev : BitVec 7) (addr : List Byte) (n : Nat)
  | i2cBusTimeout (dev : BitVec 7) (bytes : List Byte)
  | geomProbeGo (layer : BitVec 7)
  | geomProbeDone
  | coefSwap
  | lutSwap
  | mapSwap
  | synStart (stop : Bool)
  | synStop (start : Bool)
  | drvStart (stop : Bool)
  | drvStop (start : Bool)
  | fenceValueWrite (n : Fin 64) (v : W32)
  | fallowDrop (fid : W32)
  | modeRequest (tset : BitVec 3)
  | railUpRequest (down : Bool)
  | railDownRequest (up : Bool)
  | plTrain (p : Fin 8)
  | plForce (p : Fin 8) (mask : LaneMask)
  | ingEnable (p : Fin 2) (en : Bool)
  | ingRetrain (p : Fin 2)
  | sesKill
  | sesFailover
  | casEnum
  | casTimeSet (lo : W32)
  | mbxSend
  | mbxDone
  | mbxHostReset
  | mbxInDataWrite (k : Fin 254) (v : W32)
  | jobTailWrite (r : Fin 8) (tail : BitVec 16)
  | jobBaseWrite (r : Fin 8) (base : BitVec 29)
  | pwrStateGo (target : BitVec 2)
  | warmReset
  | blockResetIng (p : Fin 2)
  | blockResetCas
  | blockResetJob
  | blockResetPl
  | blockResetNvm
  | calGo
  | mphyTrainGo
  | ingPortUp (p : Fin 2) (lanes : List LaneAlign)
  | ingPortDown (p : Fin 2) (bad : List Nat)
  | ingAlignPeriod (p : Fin 2)
  | packetReceive (p : Fin 2) (bytes : List Byte)
  | hello (p : Fin 2) (page : EccResult)
  | cert (p : Fin 2) (page : EccResult)
  | keyshare (p : Fin 2) (page : EccResult)
  | finish (p : Fin 2) (page : EccResult)
  | declare (p : Fin 2) (page : EccResult)
  | block (p : Fin 2) (head ring : EccResult)
  | overlay (p : Fin 2) (page : EccResult)
  | fence (p : Fin 2) (page : EccResult)
  | commit (p : Fin 2) (page : EccResult)
  | commitCompletion
  | control (p : Fin 2) (page : EccResult)
  | mailMessage (p : Fin 2) (page : EccResult)
  | mailReport (p : Fin 2) (page : EccResult)
  | close (p : Fin 2) (page : EccResult)
  | ackSend (p : Fin 2)
  | nakRepeat (p : Fin 2)
  | deviceRetransmit (p : Fin 2) (seq : W32)
  | retxLimit (p : Fin 2) (seq : W32)
  | creditSend (p : Fin 2)
  | eventSend (p : Fin 2)
  | handshakeTimeout (p : Fin 2)
  | keepaliveSend (p : Fin 2)
  | primarySilence
  | standbySilence
  | degradedTimeout
  | drainComplete
  | closeTimeout (p : Fin 2)
  | deviceRekey (p : Fin 2)
  | serverKeyExpiry (p : Fin 2)
  | latch
  | fenceTimeout (g : Fin 16)
  | fadeStart
  | timeRetuneDone
  | newTimingStart
  | fallowJobStart
  | fallowCopyDone
  | fallowFlattenDone
  | slotStart (mismatch : List (Fin 8 × Fin 17 × Nat))
  | laneRetrainPhase (p : Fin 8) (lane : Fin 17) (terminated : Bool)
  | wakeBurst
  | synthRowStart (g : Fin 128) (d : RowData)
  | decodeAssign (ring : EccResult)
  | blockDecodeDone (d : Fin 32) (ecc : EccResult)
  | overlayPrefetchDone (k : Fin 8) (band : BitVec 8) (ecc : EccResult)
  | bcFrameReceive (p : Fin 8) (drv : Fin 16) (bits : List Bool)
  | bcSlotMissed (p : Fin 8) (drv : Fin 16) (badCrc : Bool)
  | laneFailureApply (p : Fin 8)
  | laneRestoreApply (p : Fin 8)
  | plPresenceDone (p : Fin 8) (terminated : LaneMask)
  | plTsaDone (p : Fin 8)
  | plTsbDone (p : Fin 8)
  | plStageLimit (p : Fin 8)
  | railGood (n : Fin 4)
  | seqStepDelay
  | railPgTimeout (n : Fin 4)
  | emitSupPgHigh
  | extHandshakeTimeout
  | seqRunEntry
  | downEffect
  | emitSupPgLow
  | emitSupPgFall
  | railDischarged (n : Fin 4)
  | dischargeTimeout (n : Fin 4)
  | railLoss (n : Fin 4)
  | railOvercurrent (n : Fin 4)
  | powerDieOt
  | vinUndervoltage
  | aonSupplyLoss
  | porAssert
  | porRelease (head addr1 addr0 : Bool)
  | pinReset
  | refLoss
  | coreResetRelease
  | bootClocksReady (voutMode : Option (BitVec 8))
  | bootSelftestDone (ok : Bool)
  | norDiscoveryDone (flash : Option NorTables)
  | imageCopyStaged (readOk : Bool)
  | sectionsApplied
  | hbmTrainingDone (failPc : Option (Fin 32))
  | ledgerRestoreDone (emmc : Option Bool) (ok : Bool)
  | calmapLoadDone (ok : Bool)
  | bootStepTimeout
  | runToIdle
  | idleToStandby
  | jobGraceExpiry
  | standbyToIdle
  | idleToRun
  | idleToDeep
  | deepToIdle
  | wakeDetect (cas : Bool) (port : Fin 5)
  | wakeTimerExpiry
  | avsWindow (slack : BitVec 6) (ack : Bool)
  | avsLower (ack : Bool)
  | avsRetry (ack : Bool)
  | tempModelTick (die : List (BitVec 16)) (tpd : BitVec 16)
  | ntcSample (n : Fin 2) (code : BitVec 12)
  | thermalTick
  | thermalTrip
  | calRunStart
  | calRunEnd
  | convTrimStep (n : Fin 4)
  | aonfTrim
  | aonsTick
  | xtalStart
  | refreshDue (pc : Fin 32) (hot : Bool) (panic : Bool) (idle : Bool)
  | scrubRead (r : EccResult)
  | pageIdleClose (pc : Fin 32) (sid : Fin 3) (bank : Fin 16)
  | casPortUp (n : Fin 5) (partner : CasPartner)
  | casPortDown (n : Fin 5)
  | turnTick (n : Fin 5) (cell : List Byte)
  | turnSeqst (n : Fin 5) (cell : List Byte)
  | echoRequestSend
  | echoRequest (n : Fin 5) (cell : List Byte)
  | echoReply (n : Fin 5) (cell : List Byte)
  | echoReplyMissing
  | cellIdleEcho (n : Fin 5)
  | cellRetransmit (n : Fin 5)
  | enumAssign (n : Fin 5) (cell : List Byte)
  | enumDone (n : Fin 5) (cell : List Byte)
  | bcommitReceive (n : Fin 5) (cell : List Byte)
  | bcommitFence
  | bcommitMode
  | bcommitSwap
  | fenceRequest (n : Fin 5) (cell : List Byte)
  | dataCell (n : Fin 5) (cell : List Byte)
  | bcastCopyStart (c : Fin 8)
  | bcastCopyDone (c : Fin 8)
  | mailCell (n : Fin 5) (cell : List Byte)
  | mailCellResponse (n : Fin 5) (cell : List Byte)
  | eventCell (n : Fin 5) (cell : List Byte)
  | wakeCell (n : Fin 5) (cell : List Byte)
  | mailboxTake (box : Fin 8)
  | svcInfo (box : Fin 8)
  | svcRegRead (box : Fin 8)
  | svcRegWrite (box : Fin 8)
  | svcMapLoad (box : Fin 8)
  | mapLoadDone (ok : Bool)
  | svcLedgerSave (box : Fin 8)
  | ledgerSaveDone (ok : Bool)
  | svcCapture (box : Fin 8)
  | svcRailsUp (box : Fin 8)
  | svcPower (box : Fin 8)
  | imageWriteBegin (box : Fin 8) (ok : Bool)
  | imageWriteData (box : Fin 8) (ok : Bool)
  | imageWriteEnd (box : Fin 8) (ok : Bool)
  | imageWriteAbort (box : Fin 8)
  | forwardRequest (box : Fin 8)
  | forwardTimeout
  | heathResponsePlace (box : Fin 8)
  | heathWatchdogExpiry
  | heathRestartDone
  | jobStart
  | jobCopyDone (r : Fin 8) (ecc : JobEcc)
  | jobCompressDone (r : Fin 8) (ecc : JobEcc)
  | jobDecompressDone (r : Fin 8) (ecc : JobEcc)
  | jobLedgerSnapDone (r : Fin 8) (ecc : JobEcc)
  | jobCalpackDone (r : Fin 8) (ecc : JobEcc)
  | jobCaptureDone (r : Fin 8)
  | serverRekeyDue (p : Fin 2)
  | cascadeAlignPeriod (n : Fin 5)
  | tapInstructionLoad (op : BitVec 8)
  deriving DecidableEq, Repr

end Sys2Proof
end

