-- ==== Sys2Proof/Decode.lean ====
section
/-! DEFINITION. The table of commands gives no row a bit encoding: a command reaches the block as a register access, a
packet, a cell or an event, and no word of bits spells one. -/

namespace Sys2Proof

/-- The command that a word spells by the table's bits: the table gives no row any bits, so none does. -/
def decodeTableWord (_nbits _w : Nat) : Option Instr := none

end Sys2Proof
end

