-- ==== Sys2Proof/Config.lean ====
section
/-! DEFINITION. What an implementation fixes and the free values: constants with no body, of which no proof can see the
value. A statement holds whatever they are. -/

namespace Sys2Proof.Config

/-- A fresh free value for each count of State.free: session ids, nonces, block addresses, key shares, and the other
values that the manual leaves to the device. -/
opaque freeValue : Nat → BitVec 384

/-- SHA-384 of a byte string, as the number its 48 bytes spell big-endian. The manual names the function and takes it
from outside; no property of it is used. -/
opaque sha384 : List Byte → BitVec 384

/-- Whether an ECDSA signature over P-384 verifies: public key, message, signature. -/
opaque ecdsaVerify : List Byte → List Byte → List Byte → Bool

/-- The ECDSA signature that a private scalar makes over a message, for a free nonce. -/
opaque ecdsaSign : Nat → List Byte → Nat → List Byte

/-- Whether 97 bytes are a point of P-384 in uncompressed form, other than the point at infinity. -/
opaque ecPointValid : List Byte → Bool

/-- The public key of a private scalar, 97 bytes uncompressed. -/
opaque ecPublic : Nat → List Byte

/-- The ECDH shared secret of a free private value and a public point. -/
opaque ecShared : Nat → List Byte → List Byte

/-- AES-GCM opening: key, nonce, associated data, sealed bytes with tag; none where the tag fails. -/
opaque gcmOpen : List Byte → List Byte → List Byte → List Byte → Option (List Byte)

/-- AES-GCM sealing: key, nonce, associated data, plain bytes; the sealed bytes followed by the tag. -/
opaque gcmSeal : List Byte → List Byte → List Byte → List Byte → List Byte

/-- Whether bytes parse as a DER certificate of X.509 v3 (cause 1 of R250). The standards give the predicates on certificates;
the manual names them, and no property of them is used. -/
opaque certParses : List Byte → Bool

/-- Whether the first certificate is signed with ecdsa-with-SHA384 by the key of the second and verifies (causes 2 and 3). -/
opaque certSignedBy : List Byte → List Byte → Bool

/-- Whether a certificate's public key is on curve P-384 (cause 4). -/
opaque certKeyP384 : List Byte → Bool

/-- Whether a certificate has basicConstraints with cA true (cause 5). -/
opaque certIsCa : List Byte → Bool

/-- Whether a certificate's keyUsage, where present, includes digitalSignature (cause 5). -/
opaque certSigns : List Byte → Bool

/-- The 97-byte public key of a certificate's leaf. -/
opaque leafKey : List Byte → List Byte

/-- The unit serial (fuse array, R386). -/
opaque unitSerial : BitVec 64

/-- ROOT_HASH0, Tefold's root slot (R386). -/
opaque rootHash0 : BitVec 384

/-- The unit's private scalar (UNIT_KEY, R386), which only the signing engine reads. -/
opaque unitPrivate : BitVec 384

/-- The date of manufacture, as a DER UTCTime holds it (R385). -/
opaque madeOn : List Byte

/-- The key identifier of the unit's key (R385). -/
opaque leafKeyId : List Byte

/-- The key identifier of the unit CA's key (R385). -/
opaque caKeyId : List Byte

/-- The signature value that Tefold's unit CA makes over a certificate's contents, DER-encoded (R385). -/
opaque caSign : List Byte → List Byte

/-- A candidate coding of a block of bytes that a job of an EFFORT above 0 and a TAB may choose. -/
opaque compressCandidate : Nat → Nat → List Byte → List Byte

/-- The lossless coding that the device gives the pixels of a block of a flattened plane (R126, R324): a byte whose bits 0 and 1 say that
its colour and its alpha table are dynamic, the two static table indices, and the body. -/
opaque flattenCode : List (List (Nat × Nat × Nat × Nat)) → List Byte

/-- The crossings that a reset flushes (R399): 0 to 5 a block reset of that bit, 6 a pin or warm reset. -/
opaque crossings : Nat → Nat

/-- The eight fused trim values of a rail's converter setting, 0 its current limit and 1 its slope (R386, R418). -/
opaque convTrims : Nat → Nat → List Nat

end Sys2Proof.Config
end

