-- ==== Sys2Proof/Machine/Bits.lean ====
section
/-! DEFINITION. Bit fields, two's complement readings, byte order and cyclic redundancy checks, shared by every
family. Registers, packets, cells, descriptors and stored tables are little-endian unless a definition says otherwise. -/

namespace Sys2Proof.Machine

/-- Bits [hi:lo] of a number. -/
def bitsOf (v hi lo : Nat) : Nat := (v >>> lo) % 2 ^ (hi + 1 - lo)

/-- `v` with bits [hi:lo] replaced by the low bits of `n`. -/
def putBits (v hi lo n : Nat) : Nat :=
  v - (bitsOf v hi lo) * 2 ^ lo + (n % 2 ^ (hi + 1 - lo)) * 2 ^ lo

/-- Bit b of a number. -/
def bitOf (v b : Nat) : Bool := v.testBit b

/-- 1 for true, 0 for false. -/
def b2n (b : Bool) : Nat := if b then 1 else 0

/-- The two's complement reading of the low `w` bits of `v` (R5). -/
def sInt (w v : Nat) : Int :=
  if v % 2 ^ w < 2 ^ (w - 1) then ((v % 2 ^ w : Nat) : Int) else ((v % 2 ^ w : Nat) : Int) - ((2 ^ w : Nat) : Int)

/-- The `w`-bit two's complement word of an integer. -/
def uInt (w : Nat) (i : Int) : Nat := (i % ((2 ^ w : Nat) : Int)).toNat

/-- The little-endian number of a byte string. -/
def leNat : List Byte → Nat
  | [] => 0
  | b :: bs => b.toNat + 256 * leNat bs

/-- The big-endian number of a byte string. -/
def beNat (bs : List Byte) : Nat := bs.foldl (fun a b => a * 256 + b.toNat) 0

/-- `n` little-endian bytes of a number. -/
def leBytes : Nat → Nat → List Byte
  | 0, _ => []
  | n + 1, v => BitVec.ofNat 8 v :: leBytes n (v / 256)

/-- `n` big-endian bytes of a number. -/
def beBytes (n v : Nat) : List Byte := (leBytes n v).reverse

/-- The bytes of a string from `off`, `n` of them (fewer where the string ends). -/
def sliceB (bs : List Byte) (off n : Nat) : List Byte := (bs.drop off).take n

/-- The little-endian number of `n` bytes at `off`. -/
def leAt (bs : List Byte) (off n : Nat) : Nat := leNat (sliceB bs off n)

/-- Byte at `off`, 0 past the end. -/
def byteAt (bs : List Byte) (off : Nat) : Nat := (bs.getD off 0).toNat

/-- Whether every bit of bytes off to off + n - 1 is 0. -/
def zeroAt (bs : List Byte) (off n : Nat) : Bool := (sliceB bs off n).all (fun b => b == 0)

/-- Replace the bytes of `bs` from `off` on by those of `new`, growing with zeros as needed. -/
def spliceB (bs : List Byte) (off : Nat) (new : List Byte) : List Byte :=
  (bs ++ List.replicate (off - bs.length) 0).take off ++ new ++ bs.drop (off + new.length)

/-- One shift of a reflected (least significant bit first) CRC register. -/
def crcRefBit (poly r : Nat) : Nat := if r % 2 = 1 then (r / 2) ^^^ poly else r / 2

/-- Eight shifts of a reflected CRC register. -/
def crcRefByte (poly r : Nat) (b : Byte) : Nat :=
  let r := r ^^^ b.toNat
  crcRefBit poly (crcRefBit poly (crcRefBit poly (crcRefBit poly
    (crcRefBit poly (crcRefBit poly (crcRefBit poly (crcRefBit poly r)))))))

/-- CRC-32C of a byte string: reflected polynomial 0x82F63B78, initial value and final XOR all ones (R219). -/
def crc32c (bs : List Byte) : Nat := (bs.foldl (crcRefByte 0x82F63B78) 0xFFFFFFFF) ^^^ 0xFFFFFFFF

/-- One shift of a most-significant-bit-first CRC register of `w` bits, taking in bit `i`. -/
def crcMsbBit (w poly r : Nat) (i : Bool) : Nat :=
  let top := bitOf r (w - 1) != i
  let r' := (2 * r) % 2 ^ w
  if top then r' ^^^ poly else r'

/-- A most-significant-bit-first CRC over a string of bits. -/
def crcMsb (w poly init : Nat) (bits : List Bool) : Nat := bits.foldl (crcMsbBit w poly) init

/-- The bits of a number, most significant first. -/
def bitsMsb : Nat → Nat → List Bool
  | 0, _ => []
  | n + 1, v => bitOf v n :: bitsMsb n v

/-- The bits of a number, least significant first. -/
def bitsLsb : Nat → Nat → List Bool
  | 0, _ => []
  | n + 1, v => bitOf v 0 :: bitsLsb n (v / 2)

/-- The number of a bit string, least significant first. -/
def natOfLsb : List Bool → Nat
  | [] => 0
  | b :: bs => b2n b + 2 * natOfLsb bs

/-- The number of a bit string, most significant first. -/
def natOfMsb (bs : List Bool) : Nat := bs.foldl (fun a b => 2 * a + b2n b) 0

/-- The bits of a byte string, each byte most significant bit first. -/
def byteBitsMsb (bs : List Byte) : List Bool := bs.flatMap (fun b => bitsMsb 8 b.toNat)

/-- Number of ones of the low `w` bits. -/
def popcount : Nat → Nat → Nat
  | 0, _ => 0
  | w + 1, v => b2n (bitOf v 0) + popcount w (v / 2)

/-- The integer square root by binary search over `n` bits. -/
def isqrtBits : Nat → Nat → Nat → Nat
  | 0, _, r => r
  | n + 1, v, r => let r' := r + 2 ^ n; isqrtBits n v (if r' * r' ≤ v then r' else r)

/-- The least n below `k` that satisfies `p`, searching upward from 0. -/
def findBelow (k : Nat) (p : Nat → Bool) : Option Nat := (List.range k).find? p

/-- Apply a function at each number below `k`, in rising order. -/
def forBelow (k : Nat) (f : Nat → σ → σ) (s : σ) : σ := (List.range k).foldl (fun a i => f i a) s

/-- Replace element `i` of a list. -/
def setNth (l : List α) (i : Nat) (v : α) : List α := l.set i v

/-- Change element `i` of a list. -/
def modNth (l : List α) (i : Nat) (f : α → α) : List α := l.modify i f

end Sys2Proof.Machine
end

