-- ==== Sys2Proof/Machine/Field.lean ====
section
/-! DEFINITION. The shapes of a register layout: a field, its access code (R9), a register or register array (R12),
and the block that owns an RWL field (R10). -/

namespace Sys2Proof.Machine

/-- The access codes of R9. -/
inductive Access where
  | rw | ro | wo | w1c | w1s | rc | rwl
  deriving DecidableEq, Repr

/-- One field of a register layout, bits [hi:lo], with its access code and its reset value. -/
structure FieldDesc where
  hi : Nat
  lo : Nat
  acc : Access
  reset : Nat
  deriving DecidableEq, Repr

/-- A register, a register array NAME[n] (R12), or an array repeated in several windows (PL0 to PL7, ING0 and ING1).
`resets` holds the whole-register reset values of an array whose elements differ; empty: the fields' resets hold. -/
structure RegDesc where
  base : Nat
  wins : Nat
  winStride : Nat
  count : Nat
  stride : Nat
  fields : List FieldDesc
  resets : List Nat
  deriving DecidableEq, Repr

/-- A field of one register: the register's address and the bits [hi:lo]. -/
structure Fld where
  addr : Nat
  hi : Nat
  lo : Nat
  deriving DecidableEq, Repr

/-- The block that owns an RWL field; the field accepts writes only while that block is stopped (R10). -/
inductive Owner where
  | syn | drv | tim | swd | mem | cas | pwd
  | jobRing (r : Nat)
  deriving DecidableEq, Repr

end Sys2Proof.Machine
end

