-- ==== Sys2Proof/Machine/RegTable.lean ====
section
/-! DEFINITION. The register map of the block: the address of every register of 17_register_index.md (R448), the
fields of its layout with their access codes (R9) and reset values (R450). The names are the manual's.
Registers whose value is the state of a structured part of the machine are computed in RegPeek.lean. -/

namespace Sys2Proof.Machine

/-- Address of `CHIP_ID` (00_scope.md). -/
abbrev R.CHIP_ID : Nat := 0x00000000
abbrev F.CHIP_ID_ID : Fld := ⟨R.CHIP_ID, 31, 0⟩
/-- Address of `CHIP_STEPPING` (00_scope.md). -/
abbrev R.CHIP_STEPPING : Nat := 0x00000004
abbrev F.CHIP_STEPPING_GRADE : Fld := ⟨R.CHIP_STEPPING, 8, 8⟩
abbrev F.CHIP_STEPPING_BASE : Fld := ⟨R.CHIP_STEPPING, 7, 4⟩
abbrev F.CHIP_STEPPING_METAL : Fld := ⟨R.CHIP_STEPPING, 3, 0⟩
/-- Address of `CHIP_WRITE_REFUSED` (00_scope.md). -/
abbrev R.CHIP_WRITE_REFUSED : Nat := 0x00000020
abbrev F.CHIP_WRITE_REFUSED_COUNT : Fld := ⟨R.CHIP_WRITE_REFUSED, 31, 0⟩
/-- Address of `CHIP_RT_LATE` (01_architecture.md). -/
abbrev R.CHIP_RT_LATE : Nat := 0x00000030
abbrev F.CHIP_RT_LATE_LEDGER : Fld := ⟨R.CHIP_RT_LATE, 31, 24⟩
abbrev F.CHIP_RT_LATE_CALMAP : Fld := ⟨R.CHIP_RT_LATE, 23, 16⟩
abbrev F.CHIP_RT_LATE_OVERLAY : Fld := ⟨R.CHIP_RT_LATE, 15, 8⟩
abbrev F.CHIP_RT_LATE_FALLOW : Fld := ⟨R.CHIP_RT_LATE, 7, 0⟩
/-- Address of `CHIP_PASS_CAP` (01_architecture.md). -/
abbrev R.CHIP_PASS_CAP : Nat := 0x00000034
abbrev F.CHIP_PASS_CAP_COUNT : Fld := ⟨R.CHIP_PASS_CAP, 31, 0⟩
/-- Address of `CLK_STAT` (15_clocks_resets_power.md). -/
abbrev R.CLK_STAT : Nat := 0x00010000
abbrev F.CLK_STAT_XTAL : Fld := ⟨R.CLK_STAT, 31, 31⟩
abbrev F.CLK_STAT_TRIMMED : Fld := ⟨R.CLK_STAT, 30, 30⟩
abbrev F.CLK_STAT_REF_OK : Fld := ⟨R.CLK_STAT, 29, 29⟩
abbrev F.CLK_STAT_H_LOCK : Fld := ⟨R.CLK_STAT, 28, 28⟩
abbrev F.CLK_STAT_C_LOCK : Fld := ⟨R.CLK_STAT, 27, 27⟩
abbrev F.CLK_STAT_M_LOCK : Fld := ⟨R.CLK_STAT, 26, 26⟩
abbrev F.CLK_STAT_T_LOCK : Fld := ⟨R.CLK_STAT, 25, 25⟩
abbrev F.CLK_STAT_PTX_LOCK : Fld := ⟨R.CLK_STAT, 24, 24⟩
abbrev F.CLK_STAT_CLEAN_LOCK : Fld := ⟨R.CLK_STAT, 23, 23⟩
abbrev F.CLK_STAT_REF_LOSS : Fld := ⟨R.CLK_STAT, 7, 0⟩
/-- Address of `CLK_TIME_CFG` (15_clocks_resets_power.md). -/
abbrev R.CLK_TIME_CFG : Nat := 0x00010010
abbrev F.CLK_TIME_CFG_N : Fld := ⟨R.CLK_TIME_CFG, 25, 16⟩
abbrev F.CLK_TIME_CFG_D : Fld := ⟨R.CLK_TIME_CFG, 5, 0⟩
/-- Address of `CLK_XING_STAT` (15_clocks_resets_power.md). -/
abbrev R.CLK_XING_STAT : Nat := 0x00010020
abbrev F.CLK_XING_STAT_FLUSH : Fld := ⟨R.CLK_XING_STAT, 31, 16⟩
abbrev F.CLK_XING_STAT_OVF : Fld := ⟨R.CLK_XING_STAT, 7, 0⟩
/-- Address of `PWR_STATE_REQ` (15_clocks_resets_power.md). -/
abbrev R.PWR_STATE_REQ : Nat := 0x00020000
abbrev F.PWR_STATE_REQ_GO : Fld := ⟨R.PWR_STATE_REQ, 31, 31⟩
abbrev F.PWR_STATE_REQ_TARGET : Fld := ⟨R.PWR_STATE_REQ, 1, 0⟩
/-- Address of `PWR_STATE_STAT` (15_clocks_resets_power.md). -/
abbrev R.PWR_STATE_STAT : Nat := 0x00020004
abbrev F.PWR_STATE_STAT_STATE : Fld := ⟨R.PWR_STATE_STAT, 31, 29⟩
abbrev F.PWR_STATE_STAT_MOVING : Fld := ⟨R.PWR_STATE_STAT, 28, 28⟩
abbrev F.PWR_STATE_STAT_TARGET : Fld := ⟨R.PWR_STATE_STAT, 27, 26⟩
abbrev F.PWR_STATE_STAT_RESULT : Fld := ⟨R.PWR_STATE_STAT, 25, 24⟩
abbrev F.PWR_STATE_STAT_WAKE : Fld := ⟨R.PWR_STATE_STAT, 23, 20⟩
abbrev F.PWR_STATE_STAT_CHANGES : Fld := ⟨R.PWR_STATE_STAT, 7, 0⟩
/-- Address of `PWR_WAKE_CFG` (15_clocks_resets_power.md). -/
abbrev R.PWR_WAKE_CFG : Nat := 0x00020008
abbrev F.PWR_WAKE_CFG_SAVE_LEDGER : Fld := ⟨R.PWR_WAKE_CFG, 12, 12⟩
abbrev F.PWR_WAKE_CFG_WAKE_TO : Fld := ⟨R.PWR_WAKE_CFG, 8, 8⟩
abbrev F.PWR_WAKE_CFG_TIMER : Fld := ⟨R.PWR_WAKE_CFG, 4, 4⟩
abbrev F.PWR_WAKE_CFG_HELLO : Fld := ⟨R.PWR_WAKE_CFG, 3, 3⟩
abbrev F.PWR_WAKE_CFG_ING : Fld := ⟨R.PWR_WAKE_CFG, 2, 2⟩
abbrev F.PWR_WAKE_CFG_CAS : Fld := ⟨R.PWR_WAKE_CFG, 1, 1⟩
abbrev F.PWR_WAKE_CFG_MBOX0 : Fld := ⟨R.PWR_WAKE_CFG, 0, 0⟩
/-- Address of `PWR_WAKE_TIMER` (15_clocks_resets_power.md). -/
abbrev R.PWR_WAKE_TIMER : Nat := 0x0002000C
abbrev F.PWR_WAKE_TIMER_SECONDS : Fld := ⟨R.PWR_WAKE_TIMER, 23, 0⟩
/-- Address of `PWR_RESET_CTL` (15_clocks_resets_power.md). -/
abbrev R.PWR_RESET_CTL : Nat := 0x00020010
abbrev F.PWR_RESET_CTL_WARM : Fld := ⟨R.PWR_RESET_CTL, 31, 31⟩
abbrev F.PWR_RESET_CTL_BLOCK : Fld := ⟨R.PWR_RESET_CTL, 5, 0⟩
/-- Address of `PWR_RESET_STAT` (15_clocks_resets_power.md). -/
abbrev R.PWR_RESET_STAT : Nat := 0x00020014
abbrev F.PWR_RESET_STAT_LAST : Fld := ⟨R.PWR_RESET_STAT, 31, 28⟩
abbrev F.PWR_RESET_STAT_RESETS : Fld := ⟨R.PWR_RESET_STAT, 23, 16⟩
/-- Address of `PWR_AVS_CFG` (15_clocks_resets_power.md). -/
abbrev R.PWR_AVS_CFG : Nat := 0x00020020
abbrev F.PWR_AVS_CFG_EN : Fld := ⟨R.PWR_AVS_CFG, 31, 31⟩
abbrev F.PWR_AVS_CFG_ADDR : Fld := ⟨R.PWR_AVS_CFG, 22, 16⟩
abbrev F.PWR_AVS_CFG_M_LOW : Fld := ⟨R.PWR_AVS_CFG, 13, 8⟩
abbrev F.PWR_AVS_CFG_M_HIGH : Fld := ⟨R.PWR_AVS_CFG, 5, 0⟩
/-- Address of `PWR_AVS_LIM` (15_clocks_resets_power.md). -/
abbrev R.PWR_AVS_LIM : Nat := 0x00020024
abbrev F.PWR_AVS_LIM_VMAX : Fld := ⟨R.PWR_AVS_LIM, 25, 16⟩
abbrev F.PWR_AVS_LIM_VMIN : Fld := ⟨R.PWR_AVS_LIM, 9, 0⟩
/-- Address of `PWR_AVS_STAT` (15_clocks_resets_power.md). -/
abbrev R.PWR_AVS_STAT : Nat := 0x00020028
abbrev F.PWR_AVS_STAT_FAIL : Fld := ⟨R.PWR_AVS_STAT, 31, 31⟩
abbrev F.PWR_AVS_STAT_ACTIVE : Fld := ⟨R.PWR_AVS_STAT, 30, 30⟩
abbrev F.PWR_AVS_STAT_MARGIN : Fld := ⟨R.PWR_AVS_STAT, 29, 24⟩
abbrev F.PWR_AVS_STAT_VOUT : Fld := ⟨R.PWR_AVS_STAT, 9, 0⟩
/-- Address of `CAL_TJ` (15_clocks_resets_power.md). -/
abbrev R.CAL_TJ : Nat := 0x00030000
abbrev F.CAL_TJ_TPD : Fld := ⟨R.CAL_TJ, 31, 16⟩
abbrev F.CAL_TJ_TJ : Fld := ⟨R.CAL_TJ, 15, 0⟩
/-- Address of `CAL_THERM_CFG` (15_clocks_resets_power.md). -/
abbrev R.CAL_THERM_CFG : Nat := 0x00030004
abbrev F.CAL_THERM_CFG_CAP : Fld := ⟨R.CAL_THERM_CFG, 19, 16⟩
abbrev F.CAL_THERM_CFG_WARN : Fld := ⟨R.CAL_THERM_CFG, 15, 0⟩
/-- Address of `CAL_THERM_STAT` (15_clocks_resets_power.md). -/
abbrev R.CAL_THERM_STAT : Nat := 0x00030008
abbrev F.CAL_THERM_STAT_LEVEL : Fld := ⟨R.CAL_THERM_STAT, 31, 29⟩
abbrev F.CAL_THERM_STAT_TRIPPED : Fld := ⟨R.CAL_THERM_STAT, 28, 28⟩
abbrev F.CAL_THERM_STAT_PEAK : Fld := ⟨R.CAL_THERM_STAT, 15, 0⟩
/-- Address of `CAL_CTL` (15_clocks_resets_power.md). -/
abbrev R.CAL_CTL : Nat := 0x00030010
abbrev F.CAL_CTL_GO : Fld := ⟨R.CAL_CTL, 31, 31⟩
abbrev F.CAL_CTL_EN : Fld := ⟨R.CAL_CTL, 0, 0⟩
/-- Address of `CAL_CFG` (15_clocks_resets_power.md). -/
abbrev R.CAL_CFG : Nat := 0x00030014
abbrev F.CAL_CFG_DELTA : Fld := ⟨R.CAL_CFG, 24, 16⟩
abbrev F.CAL_CFG_TEMP_DEFAULT : Fld := ⟨R.CAL_CFG, 15, 0⟩
/-- Address of `CAL_STAT` (15_clocks_resets_power.md). -/
abbrev R.CAL_STAT : Nat := 0x00030018
abbrev F.CAL_STAT_RUNNING : Fld := ⟨R.CAL_STAT, 31, 31⟩
abbrev F.CAL_STAT_QUEUED : Fld := ⟨R.CAL_STAT, 30, 30⟩
abbrev F.CAL_STAT_APPLYING : Fld := ⟨R.CAL_STAT, 29, 29⟩
abbrev F.CAL_STAT_RUNS : Fld := ⟨R.CAL_STAT, 23, 16⟩
abbrev F.CAL_STAT_TJ_RUN : Fld := ⟨R.CAL_STAT, 15, 0⟩
/-- Address of `CAL_DIE_TEMP` (15_clocks_resets_power.md). -/
abbrev R.CAL_DIE_TEMP (n : Nat) : Nat := 0x00030040 + 4 * n
abbrev F.CAL_DIE_TEMP_TEMP (n : Nat) : Fld := ⟨R.CAL_DIE_TEMP n, 15, 0⟩
/-- Address of `CAL_NTC` (15_clocks_resets_power.md). -/
abbrev R.CAL_NTC (n : Nat) : Nat := 0x00030080 + 4 * n
abbrev F.CAL_NTC_VALID (n : Nat) : Fld := ⟨R.CAL_NTC n, 31, 31⟩
abbrev F.CAL_NTC_TEMP (n : Nat) : Fld := ⟨R.CAL_NTC n, 15, 0⟩
/-- Address of `CAL_ZONE_TEMP` (15_clocks_resets_power.md). -/
abbrev R.CAL_ZONE_TEMP (n : Nat) : Nat := 0x00030200 + 4 * n
abbrev F.CAL_ZONE_TEMP_SRC (n : Nat) : Fld := ⟨R.CAL_ZONE_TEMP n, 31, 30⟩
abbrev F.CAL_ZONE_TEMP_TEMP (n : Nat) : Fld := ⟨R.CAL_ZONE_TEMP n, 15, 0⟩
/-- Address of `CAL_TXEQ_SET` (15_clocks_resets_power.md). -/
abbrev R.CAL_TXEQ_SET (n : Nat) : Nat := 0x00030400 + 4 * n
abbrev F.CAL_TXEQ_SET_POST (n : Nat) : Fld := ⟨R.CAL_TXEQ_SET n, 11, 8⟩
abbrev F.CAL_TXEQ_SET_PRE (n : Nat) : Fld := ⟨R.CAL_TXEQ_SET n, 3, 0⟩
/-- Address of `MBX_HOST_CTL` (13_control_plane.md). -/
abbrev R.MBX_HOST_CTL : Nat := 0x00040000
abbrev F.MBX_HOST_CTL_SEND : Fld := ⟨R.MBX_HOST_CTL, 31, 31⟩
abbrev F.MBX_HOST_CTL_DONE : Fld := ⟨R.MBX_HOST_CTL, 30, 30⟩
abbrev F.MBX_HOST_CTL_RESET : Fld := ⟨R.MBX_HOST_CTL, 29, 29⟩
/-- Address of `MBX_HEATH_STAT` (13_control_plane.md). -/
abbrev R.MBX_HEATH_STAT : Nat := 0x00040004
abbrev F.MBX_HEATH_STAT_EPOCH : Fld := ⟨R.MBX_HEATH_STAT, 31, 16⟩
abbrev F.MBX_HEATH_STAT_STATE : Fld := ⟨R.MBX_HEATH_STAT, 15, 14⟩
abbrev F.MBX_HEATH_STAT_DROPPED : Fld := ⟨R.MBX_HEATH_STAT, 7, 4⟩
abbrev F.MBX_HEATH_STAT_FAULTS : Fld := ⟨R.MBX_HEATH_STAT, 3, 0⟩
/-- Address of `MBX_I2C_STAT` (13_control_plane.md). -/
abbrev R.MBX_I2C_STAT : Nat := 0x00040008
abbrev F.MBX_I2C_STAT_BADADDR : Fld := ⟨R.MBX_I2C_STAT, 31, 24⟩
abbrev F.MBX_I2C_STAT_PARTIAL : Fld := ⟨R.MBX_I2C_STAT, 23, 16⟩
abbrev F.MBX_I2C_STAT_PECERR : Fld := ⟨R.MBX_I2C_STAT, 15, 8⟩
abbrev F.MBX_I2C_STAT_TIMEOUT : Fld := ⟨R.MBX_I2C_STAT, 7, 0⟩
/-- Address of `MBX_BOX_STAT` (13_control_plane.md). -/
abbrev R.MBX_BOX_STAT (n : Nat) : Nat := 0x00040010 + 4 * n
abbrev F.MBX_BOX_STAT_IN_FULL (n : Nat) : Fld := ⟨R.MBX_BOX_STAT n, 31, 31⟩
abbrev F.MBX_BOX_STAT_IN_DISC (n : Nat) : Fld := ⟨R.MBX_BOX_STAT n, 30, 30⟩
abbrev F.MBX_BOX_STAT_OUT_FULL (n : Nat) : Fld := ⟨R.MBX_BOX_STAT n, 29, 29⟩
abbrev F.MBX_BOX_STAT_OUT_RES (n : Nat) : Fld := ⟨R.MBX_BOX_STAT n, 28, 26⟩
abbrev F.MBX_BOX_STAT_DUP (n : Nat) : Fld := ⟨R.MBX_BOX_STAT n, 15, 8⟩
abbrev F.MBX_BOX_STAT_FULLREF (n : Nat) : Fld := ⟨R.MBX_BOX_STAT n, 7, 0⟩
/-- Address of `MBX_IN_DATA` (13_control_plane.md). -/
abbrev R.MBX_IN_DATA (n : Nat) : Nat := 0x00041000 + 4 * n
abbrev F.MBX_IN_DATA_WORD (n : Nat) : Fld := ⟨R.MBX_IN_DATA n, 31, 0⟩
/-- Address of `MBX_OUT_DATA` (13_control_plane.md). -/
abbrev R.MBX_OUT_DATA (n : Nat) : Nat := 0x00041400 + 4 * n
abbrev F.MBX_OUT_DATA_WORD (n : Nat) : Fld := ⟨R.MBX_OUT_DATA n, 31, 0⟩
/-- Address of `EVT_PEND` (13_control_plane.md). -/
abbrev R.EVT_PEND (n : Nat) : Nat := 0x00050000 + 4 * n
abbrev F.EVT_PEND_PEND (n : Nat) : Fld := ⟨R.EVT_PEND n, 31, 0⟩
/-- Address of `EVT_OVF` (13_control_plane.md). -/
abbrev R.EVT_OVF (n : Nat) : Nat := 0x00050008 + 4 * n
abbrev F.EVT_OVF_OVF (n : Nat) : Fld := ⟨R.EVT_OVF n, 31, 0⟩
/-- Address of `EVT_MASK_PIN` (13_control_plane.md). -/
abbrev R.EVT_MASK_PIN (n : Nat) : Nat := 0x00050010 + 4 * n
abbrev F.EVT_MASK_PIN_MASK (n : Nat) : Fld := ⟨R.EVT_MASK_PIN n, 31, 0⟩
/-- Address of `EVT_MASK_SES` (13_control_plane.md). -/
abbrev R.EVT_MASK_SES (n : Nat) : Nat := 0x00050018 + 4 * n
abbrev F.EVT_MASK_SES_MASK (n : Nat) : Fld := ⟨R.EVT_MASK_SES n, 31, 0⟩
/-- Address of `EVT_MASK_CAS` (13_control_plane.md). -/
abbrev R.EVT_MASK_CAS (n : Nat) : Nat := 0x00050020 + 4 * n
abbrev F.EVT_MASK_CAS_MASK (n : Nat) : Fld := ⟨R.EVT_MASK_CAS n, 31, 0⟩
/-- Address of `EVT_MASK_HEATH` (13_control_plane.md). -/
abbrev R.EVT_MASK_HEATH (n : Nat) : Nat := 0x00050028 + 4 * n
abbrev F.EVT_MASK_HEATH_MASK (n : Nat) : Fld := ⟨R.EVT_MASK_HEATH n, 31, 0⟩
/-- Address of `EVT_COUNT` (13_control_plane.md). -/
abbrev R.EVT_COUNT (n : Nat) : Nat := 0x00050100 + 4 * n
abbrev F.EVT_COUNT_COUNT (n : Nat) : Fld := ⟨R.EVT_COUNT n, 7, 0⟩
/-- Address of `JOB_STAT` (13_control_plane.md). -/
abbrev R.JOB_STAT : Nat := 0x00060000
abbrev F.JOB_STAT_RUNNING : Fld := ⟨R.JOB_STAT, 10, 8⟩
abbrev F.JOB_STAT_BUSY : Fld := ⟨R.JOB_STAT, 7, 0⟩
/-- Address of `JOB_RING_BASE` (13_control_plane.md). -/
abbrev R.JOB_RING_BASE (n : Nat) : Nat := 0x00060100 + 16 * n
abbrev F.JOB_RING_BASE_BASE (n : Nat) : Fld := ⟨R.JOB_RING_BASE n, 28, 0⟩
/-- Address of `JOB_RING_CFG` (13_control_plane.md). -/
abbrev R.JOB_RING_CFG (n : Nat) : Nat := 0x00060104 + 16 * n
abbrev F.JOB_RING_CFG_EN (n : Nat) : Fld := ⟨R.JOB_RING_CFG n, 31, 31⟩
abbrev F.JOB_RING_CFG_PRIO (n : Nat) : Fld := ⟨R.JOB_RING_CFG n, 30, 30⟩
abbrev F.JOB_RING_CFG_LOG2 (n : Nat) : Fld := ⟨R.JOB_RING_CFG n, 27, 24⟩
abbrev F.JOB_RING_CFG_TAILREF (n : Nat) : Fld := ⟨R.JOB_RING_CFG n, 15, 8⟩
abbrev F.JOB_RING_CFG_DUPS (n : Nat) : Fld := ⟨R.JOB_RING_CFG n, 7, 0⟩
/-- Address of `JOB_RING_TAIL` (13_control_plane.md). -/
abbrev R.JOB_RING_TAIL (n : Nat) : Nat := 0x00060108 + 16 * n
abbrev F.JOB_RING_TAIL_TAIL (n : Nat) : Fld := ⟨R.JOB_RING_TAIL n, 15, 0⟩
/-- Address of `JOB_RING_HEAD` (13_control_plane.md). -/
abbrev R.JOB_RING_HEAD (n : Nat) : Nat := 0x0006010C + 16 * n
abbrev F.JOB_RING_HEAD_HEAD (n : Nat) : Fld := ⟨R.JOB_RING_HEAD n, 15, 0⟩
/-- Address of `NVM_BOOT_STAT` (14_boot_image_identity.md). -/
abbrev R.NVM_BOOT_STAT : Nat := 0x00070000
abbrev F.NVM_BOOT_STAT_STATE : Fld := ⟨R.NVM_BOOT_STAT, 31, 28⟩
abbrev F.NVM_BOOT_STAT_COPY : Fld := ⟨R.NVM_BOOT_STAT, 27, 27⟩
abbrev F.NVM_BOOT_STAT_FALLBACK : Fld := ⟨R.NVM_BOOT_STAT, 26, 26⟩
abbrev F.NVM_BOOT_STAT_HALT : Fld := ⟨R.NVM_BOOT_STAT, 23, 20⟩
abbrev F.NVM_BOOT_STAT_STEP : Fld := ⟨R.NVM_BOOT_STAT, 19, 16⟩
abbrev F.NVM_BOOT_STAT_CAUSE_B : Fld := ⟨R.NVM_BOOT_STAT, 15, 12⟩
abbrev F.NVM_BOOT_STAT_CAUSE_A : Fld := ⟨R.NVM_BOOT_STAT, 11, 8⟩
/-- Address of `NVM_IMAGE_VER` (14_boot_image_identity.md). -/
abbrev R.NVM_IMAGE_VER : Nat := 0x00070004
abbrev F.NVM_IMAGE_VER_VERSION : Fld := ⟨R.NVM_IMAGE_VER, 31, 0⟩
/-- Address of `NVM_BOOT_MS` (14_boot_image_identity.md). -/
abbrev R.NVM_BOOT_MS : Nat := 0x00070008
abbrev F.NVM_BOOT_MS_RAILS : Fld := ⟨R.NVM_BOOT_MS, 31, 16⟩
abbrev F.NVM_BOOT_MS_FW : Fld := ⟨R.NVM_BOOT_MS, 15, 0⟩
/-- Address of `NVM_MEDIA_STAT` (14_boot_image_identity.md). -/
abbrev R.NVM_MEDIA_STAT : Nat := 0x0007000C
abbrev F.NVM_MEDIA_STAT_NOR_MODE : Fld := ⟨R.NVM_MEDIA_STAT, 31, 30⟩
abbrev F.NVM_MEDIA_STAT_SFDP : Fld := ⟨R.NVM_MEDIA_STAT, 29, 29⟩
abbrev F.NVM_MEDIA_STAT_EMMC_MODE : Fld := ⟨R.NVM_MEDIA_STAT, 28, 27⟩
abbrev F.NVM_MEDIA_STAT_NOR_ERR : Fld := ⟨R.NVM_MEDIA_STAT, 15, 8⟩
abbrev F.NVM_MEDIA_STAT_EMMC_ERR : Fld := ⟨R.NVM_MEDIA_STAT, 7, 0⟩
/-- Address of `SEC_SERIAL_LO` (14_boot_image_identity.md). -/
abbrev R.SEC_SERIAL_LO : Nat := 0x00080000
abbrev F.SEC_SERIAL_LO_SERIAL : Fld := ⟨R.SEC_SERIAL_LO, 31, 0⟩
/-- Address of `SEC_SERIAL_HI` (14_boot_image_identity.md). -/
abbrev R.SEC_SERIAL_HI : Nat := 0x00080004
abbrev F.SEC_SERIAL_HI_SERIAL : Fld := ⟨R.SEC_SERIAL_HI, 31, 0⟩
/-- Address of `SEC_UNIT_ID` (14_boot_image_identity.md). -/
abbrev R.SEC_UNIT_ID : Nat := 0x00080008
abbrev F.SEC_UNIT_ID_ID : Fld := ⟨R.SEC_UNIT_ID, 31, 0⟩
/-- Address of `SEC_ROLLBACK` (14_boot_image_identity.md). -/
abbrev R.SEC_ROLLBACK : Nat := 0x00080010
abbrev F.SEC_ROLLBACK_IMAGE : Fld := ⟨R.SEC_ROLLBACK, 14, 8⟩
abbrev F.SEC_ROLLBACK_FUSED : Fld := ⟨R.SEC_ROLLBACK, 6, 0⟩
/-- Address of `SEC_ROOT_STAT` (14_boot_image_identity.md). -/
abbrev R.SEC_ROOT_STAT : Nat := 0x00080014
abbrev F.SEC_ROOT_STAT_USED : Fld := ⟨R.SEC_ROOT_STAT, 9, 8⟩
abbrev F.SEC_ROOT_STAT_REVOKED : Fld := ⟨R.SEC_ROOT_STAT, 6, 4⟩
abbrev F.SEC_ROOT_STAT_PROGRAMMED : Fld := ⟨R.SEC_ROOT_STAT, 2, 0⟩
/-- Address of `SEC_DEBUG_STAT` (14_boot_image_identity.md). -/
abbrev R.SEC_DEBUG_STAT : Nat := 0x00080018
abbrev F.SEC_DEBUG_STAT_OPEN : Fld := ⟨R.SEC_DEBUG_STAT, 1, 1⟩
abbrev F.SEC_DEBUG_STAT_LOCK : Fld := ⟨R.SEC_DEBUG_STAT, 0, 0⟩
/-- Address of `ING_CTL` (09_ingest_link.md). -/
abbrev R.ING_CTL (p : Nat) : Nat := 0x00100000 + 0x10000 * p
abbrev F.ING_CTL_EN (p : Nat) : Fld := ⟨R.ING_CTL p, 31, 31⟩
abbrev F.ING_CTL_RETRAIN (p : Nat) : Fld := ⟨R.ING_CTL p, 30, 30⟩
/-- Address of `ING_STAT` (09_ingest_link.md). -/
abbrev R.ING_STAT (p : Nat) : Nat := 0x00100004 + 0x10000 * p
abbrev F.ING_STAT_STATE (p : Nat) : Fld := ⟨R.ING_STAT p, 31, 30⟩
abbrev F.ING_STAT_BONDED (p : Nat) : Fld := ⟨R.ING_STAT p, 29, 29⟩
abbrev F.ING_STAT_LOCKED (p : Nat) : Fld := ⟨R.ING_STAT p, 23, 16⟩
abbrev F.ING_STAT_SKEW (p : Nat) : Fld := ⟨R.ING_STAT p, 15, 8⟩
abbrev F.ING_STAT_DOWNS (p : Nat) : Fld := ⟨R.ING_STAT p, 7, 0⟩
/-- Address of `ING_RX_NEXT` (09_ingest_link.md). -/
abbrev R.ING_RX_NEXT (p : Nat) : Nat := 0x00100008 + 0x10000 * p
abbrev F.ING_RX_NEXT_NEXT (p : Nat) : Fld := ⟨R.ING_RX_NEXT p, 31, 0⟩
/-- Address of `ING_TX_NEXT` (09_ingest_link.md). -/
abbrev R.ING_TX_NEXT (p : Nat) : Nat := 0x0010000C + 0x10000 * p
abbrev F.ING_TX_NEXT_NEXT (p : Nat) : Fld := ⟨R.ING_TX_NEXT p, 31, 0⟩
/-- Address of `ING_TX_UNACK` (09_ingest_link.md). -/
abbrev R.ING_TX_UNACK (p : Nat) : Nat := 0x00100010 + 0x10000 * p
abbrev F.ING_TX_UNACK_COUNT (p : Nat) : Fld := ⟨R.ING_TX_UNACK p, 8, 0⟩
/-- Address of `ING_BUF_STAT` (09_ingest_link.md). -/
abbrev R.ING_BUF_STAT (p : Nat) : Nat := 0x00100014 + 0x10000 * p
abbrev F.ING_BUF_STAT_USED (p : Nat) : Fld := ⟨R.ING_BUF_STAT p, 8, 0⟩
/-- Address of `ING_TIMER_CFG` (09_ingest_link.md). -/
abbrev R.ING_TIMER_CFG (p : Nat) : Nat := 0x00100020 + 0x10000 * p
abbrev F.ING_TIMER_CFG_ACK_INT (p : Nat) : Fld := ⟨R.ING_TIMER_CFG p, 31, 24⟩
abbrev F.ING_TIMER_CFG_NAK_INT (p : Nat) : Fld := ⟨R.ING_TIMER_CFG p, 23, 16⟩
abbrev F.ING_TIMER_CFG_RTO (p : Nat) : Fld := ⟨R.ING_TIMER_CFG p, 15, 0⟩
/-- Address of `ING_DROP_CNT` (09_ingest_link.md). -/
abbrev R.ING_DROP_CNT (p : Nat) : Nat := 0x00100030 + 0x10000 * p
abbrev F.ING_DROP_CNT_CRC (p : Nat) : Fld := ⟨R.ING_DROP_CNT p, 31, 24⟩
abbrev F.ING_DROP_CNT_FRAME (p : Nat) : Fld := ⟨R.ING_DROP_CNT p, 23, 16⟩
abbrev F.ING_DROP_CNT_DUP (p : Nat) : Fld := ⟨R.ING_DROP_CNT p, 15, 8⟩
abbrev F.ING_DROP_CNT_WINDOW (p : Nat) : Fld := ⟨R.ING_DROP_CNT p, 7, 0⟩
/-- Address of `ING_NAK_CNT` (09_ingest_link.md). -/
abbrev R.ING_NAK_CNT (p : Nat) : Nat := 0x00100034 + 0x10000 * p
abbrev F.ING_NAK_CNT_PKTFMT (p : Nat) : Fld := ⟨R.ING_NAK_CNT p, 31, 24⟩
abbrev F.ING_NAK_CNT_NOBUF (p : Nat) : Fld := ⟨R.ING_NAK_CNT p, 23, 16⟩
abbrev F.ING_NAK_CNT_AUTHTAG (p : Nat) : Fld := ⟨R.ING_NAK_CNT p, 15, 8⟩
abbrev F.ING_NAK_CNT_NOCREDIT (p : Nat) : Fld := ⟨R.ING_NAK_CNT p, 7, 0⟩
/-- Address of `ING_RETX_CNT` (09_ingest_link.md). -/
abbrev R.ING_RETX_CNT (p : Nat) : Nat := 0x00100038 + 0x10000 * p
abbrev F.ING_RETX_CNT_DEVICE (p : Nat) : Fld := ⟨R.ING_RETX_CNT p, 31, 16⟩
abbrev F.ING_RETX_CNT_SERVER (p : Nat) : Fld := ⟨R.ING_RETX_CNT p, 15, 0⟩
/-- Address of `ING_LANE_STAT` (09_ingest_link.md). -/
abbrev R.ING_LANE_STAT (p : Nat) (n : Nat) : Nat := 0x00100040 + 0x10000 * p + 4 * n
abbrev F.ING_LANE_STAT_LOCKED (p : Nat) (n : Nat) : Fld := ⟨R.ING_LANE_STAT p n, 31, 31⟩
abbrev F.ING_LANE_STAT_INVERTED (p : Nat) (n : Nat) : Fld := ⟨R.ING_LANE_STAT p n, 30, 30⟩
abbrev F.ING_LANE_STAT_LOGICAL (p : Nat) (n : Nat) : Fld := ⟨R.ING_LANE_STAT p n, 29, 27⟩
abbrev F.ING_LANE_STAT_SKEW (p : Nat) (n : Nat) : Fld := ⟨R.ING_LANE_STAT p n, 23, 16⟩
abbrev F.ING_LANE_STAT_BADSYNC (p : Nat) (n : Nat) : Fld := ⟨R.ING_LANE_STAT p n, 15, 0⟩
/-- Address of `ING_CREDIT_CFG` (09_ingest_link.md). -/
abbrev R.ING_CREDIT_CFG : Nat := 0x00100100
abbrev F.ING_CREDIT_CFG_RING_CREDIT : Fld := ⟨R.ING_CREDIT_CFG, 7, 0⟩
/-- Address of `ING_CTX_STAT` (09_ingest_link.md). -/
abbrev R.ING_CTX_STAT : Nat := 0x00100104
abbrev F.ING_CTX_STAT_FREE : Fld := ⟨R.ING_CTX_STAT, 12, 0⟩
/-- Address of `SES_CTL` (10_scene_sessions.md). -/
abbrev R.SES_CTL : Nat := 0x00120000
abbrev F.SES_CTL_KILL : Fld := ⟨R.SES_CTL, 31, 31⟩
abbrev F.SES_CTL_FAILOVER : Fld := ⟨R.SES_CTL, 30, 30⟩
abbrev F.SES_CTL_REQ_ENC : Fld := ⟨R.SES_CTL, 2, 2⟩
abbrev F.SES_CTL_STANDBY_EN : Fld := ⟨R.SES_CTL, 1, 1⟩
abbrev F.SES_CTL_OPEN : Fld := ⟨R.SES_CTL, 0, 0⟩
/-- Address of `SES_STAT` (10_scene_sessions.md). -/
abbrev R.SES_STAT : Nat := 0x00120004
abbrev F.SES_STAT_ACTIVE : Fld := ⟨R.SES_STAT, 31, 31⟩
abbrev F.SES_STAT_ENC : Fld := ⟨R.SES_STAT, 30, 30⟩
abbrev F.SES_STAT_BONDED : Fld := ⟨R.SES_STAT, 29, 29⟩
abbrev F.SES_STAT_PRI_PORTS : Fld := ⟨R.SES_STAT, 27, 26⟩
abbrev F.SES_STAT_STB_PORTS : Fld := ⟨R.SES_STAT, 25, 24⟩
abbrev F.SES_STAT_FAILOVERS : Fld := ⟨R.SES_STAT, 23, 16⟩
/-- Address of `SES_SID` (10_scene_sessions.md). -/
abbrev R.SES_SID : Nat := 0x00120008
abbrev F.SES_SID_SID : Fld := ⟨R.SES_SID, 31, 0⟩
/-- Address of `SES_ATT_STAT` (10_scene_sessions.md). -/
abbrev R.SES_ATT_STAT (n : Nat) : Nat := 0x00120010 + 4 * n
abbrev F.SES_ATT_STAT_STATE (n : Nat) : Fld := ⟨R.SES_ATT_STAT n, 31, 28⟩
abbrev F.SES_ATT_STAT_ROLE (n : Nat) : Fld := ⟨R.SES_ATT_STAT n, 27, 26⟩
abbrev F.SES_ATT_STAT_RXPH (n : Nat) : Fld := ⟨R.SES_ATT_STAT n, 25, 24⟩
abbrev F.SES_ATT_STAT_TXPH (n : Nat) : Fld := ⟨R.SES_ATT_STAT n, 23, 22⟩
abbrev F.SES_ATT_STAT_RETX (n : Nat) : Fld := ⟨R.SES_ATT_STAT n, 21, 21⟩
abbrev F.SES_ATT_STAT_BOND (n : Nat) : Fld := ⟨R.SES_ATT_STAT n, 20, 20⟩
abbrev F.SES_ATT_STAT_SILENT (n : Nat) : Fld := ⟨R.SES_ATT_STAT n, 19, 19⟩
abbrev F.SES_ATT_STAT_CLOSE_RSN (n : Nat) : Fld := ⟨R.SES_ATT_STAT n, 14, 12⟩
abbrev F.SES_ATT_STAT_DETAIL (n : Nat) : Fld := ⟨R.SES_ATT_STAT n, 7, 0⟩
/-- Address of `SES_PEER_ID` (10_scene_sessions.md). -/
abbrev R.SES_PEER_ID (n : Nat) : Nat := 0x00120018 + 4 * n
abbrev F.SES_PEER_ID_ID (n : Nat) : Fld := ⟨R.SES_PEER_ID n, 31, 0⟩
/-- Address of `SES_TIMER_CFG` (10_scene_sessions.md). -/
abbrev R.SES_TIMER_CFG : Nat := 0x00120020
abbrev F.SES_TIMER_CFG_KA_INT : Fld := ⟨R.SES_TIMER_CFG, 31, 24⟩
abbrev F.SES_TIMER_CFG_KA_MISS : Fld := ⟨R.SES_TIMER_CFG, 23, 20⟩
abbrev F.SES_TIMER_CFG_HS_TO : Fld := ⟨R.SES_TIMER_CFG, 19, 12⟩
abbrev F.SES_TIMER_CFG_LOST_TO : Fld := ⟨R.SES_TIMER_CFG, 11, 0⟩
/-- Address of `SES_KEY_CFG` (10_scene_sessions.md). -/
abbrev R.SES_KEY_CFG : Nat := 0x00120024
abbrev F.SES_KEY_CFG_CLOSE_TO : Fld := ⟨R.SES_KEY_CFG, 31, 16⟩
abbrev F.SES_KEY_CFG_REKEY_S : Fld := ⟨R.SES_KEY_CFG, 15, 0⟩
/-- Address of `SES_ERR_CNT` (10_scene_sessions.md). -/
abbrev R.SES_ERR_CNT : Nat := 0x00120030
abbrev F.SES_ERR_CNT_CERTFAIL : Fld := ⟨R.SES_ERR_CNT, 31, 24⟩
abbrev F.SES_ERR_CNT_KEYFAIL : Fld := ⟨R.SES_ERR_CNT, 23, 16⟩
abbrev F.SES_ERR_CNT_FINFAIL : Fld := ⟨R.SES_ERR_CNT, 15, 8⟩
abbrev F.SES_ERR_CNT_HSTO : Fld := ⟨R.SES_ERR_CNT, 7, 0⟩
/-- Address of `SES_EVT_LOST` (10_scene_sessions.md). -/
abbrev R.SES_EVT_LOST : Nat := 0x00120034
abbrev F.SES_EVT_LOST_COUNT : Fld := ⟨R.SES_EVT_LOST, 31, 0⟩
/-- Address of `CAS_CTL` (11_cascade.md). -/
abbrev R.CAS_CTL : Nat := 0x00140000
abbrev F.CAS_CTL_ENUM : Fld := ⟨R.CAS_CTL, 31, 31⟩
abbrev F.CAS_CTL_EN : Fld := ⟨R.CAS_CTL, 30, 30⟩
abbrev F.CAS_CTL_SYSFENCE : Fld := ⟨R.CAS_CTL, 29, 29⟩
abbrev F.CAS_CTL_WAKE_FWD : Fld := ⟨R.CAS_CTL, 28, 28⟩
abbrev F.CAS_CTL_DN_EN : Fld := ⟨R.CAS_CTL, 3, 0⟩
/-- Address of `CAS_STAT` (11_cascade.md). -/
abbrev R.CAS_STAT : Nat := 0x00140004
abbrev F.CAS_STAT_HEAD : Fld := ⟨R.CAS_STAT, 31, 31⟩
abbrev F.CAS_STAT_STATE : Fld := ⟨R.CAS_STAT, 30, 28⟩
abbrev F.CAS_STAT_NUMBERED : Fld := ⟨R.CAS_STAT, 27, 27⟩
abbrev F.CAS_STAT_ENUM_BUSY : Fld := ⟨R.CAS_STAT, 26, 26⟩
abbrev F.CAS_STAT_HEADCLASH : Fld := ⟨R.CAS_STAT, 25, 25⟩
abbrev F.CAS_STAT_LEVEL : Fld := ⟨R.CAS_STAT, 23, 20⟩
abbrev F.CAS_STAT_SUBTREE : Fld := ⟨R.CAS_STAT, 18, 0⟩
/-- Address of `CAS_NUM` (11_cascade.md). -/
abbrev R.CAS_NUM : Nat := 0x00140008
abbrev F.CAS_NUM_VALID : Fld := ⟨R.CAS_NUM, 31, 31⟩
abbrev F.CAS_NUM_NUM : Fld := ⟨R.CAS_NUM, 17, 0⟩
/-- Address of `CAS_SYNC_CFG` (11_cascade.md). -/
abbrev R.CAS_SYNC_CFG : Nat := 0x0014000C
abbrev F.CAS_SYNC_CFG_SLEW_STEP : Fld := ⟨R.CAS_SYNC_CFG, 23, 16⟩
abbrev F.CAS_SYNC_CFG_SLEW_LIMIT : Fld := ⟨R.CAS_SYNC_CFG, 15, 0⟩
/-- Address of `CAS_BC_CFG` (11_cascade.md). -/
abbrev R.CAS_BC_CFG : Nat := 0x00140010
abbrev F.CAS_BC_CFG_DATA_RATE : Fld := ⟨R.CAS_BC_CFG, 31, 24⟩
abbrev F.CAS_BC_CFG_BC_LEAD : Fld := ⟨R.CAS_BC_CFG, 15, 0⟩
/-- Address of `CAS_BC_STAT` (11_cascade.md). -/
abbrev R.CAS_BC_STAT : Nat := 0x00140014
abbrev F.CAS_BC_STAT_LAST_TARGET : Fld := ⟨R.CAS_BC_STAT, 31, 16⟩
abbrev F.CAS_BC_STAT_LATE : Fld := ⟨R.CAS_BC_STAT, 15, 8⟩
abbrev F.CAS_BC_STAT_STALE : Fld := ⟨R.CAS_BC_STAT, 7, 0⟩
/-- Address of `CAS_PAIR_CFG` (11_cascade.md). -/
abbrev R.CAS_PAIR_CFG : Nat := 0x00140018
abbrev F.CAS_PAIR_CFG_MODE : Fld := ⟨R.CAS_PAIR_CFG, 31, 30⟩
abbrev F.CAS_PAIR_CFG_ROLE : Fld := ⟨R.CAS_PAIR_CFG, 29, 29⟩
abbrev F.CAS_PAIR_CFG_PORT : Fld := ⟨R.CAS_PAIR_CFG, 1, 0⟩
/-- Address of `CAS_PAIR_STAT` (11_cascade.md). -/
abbrev R.CAS_PAIR_STAT : Nat := 0x0014001C
abbrev F.CAS_PAIR_STAT_LINKED : Fld := ⟨R.CAS_PAIR_STAT, 31, 31⟩
abbrev F.CAS_PAIR_STAT_PSEQ : Fld := ⟨R.CAS_PAIR_STAT, 30, 28⟩
abbrev F.CAS_PAIR_STAT_SKEW : Fld := ⟨R.CAS_PAIR_STAT, 15, 0⟩
/-- Address of `CAS_DELAY` (11_cascade.md). -/
abbrev R.CAS_DELAY : Nat := 0x00140020
abbrev F.CAS_DELAY_VALID : Fld := ⟨R.CAS_DELAY, 31, 31⟩
abbrev F.CAS_DELAY_D : Fld := ⟨R.CAS_DELAY, 19, 0⟩
/-- Address of `CAS_PHASE_ERR` (11_cascade.md). -/
abbrev R.CAS_PHASE_ERR : Nat := 0x00140024
abbrev F.CAS_PHASE_ERR_ERR : Fld := ⟨R.CAS_PHASE_ERR, 31, 0⟩
/-- Address of `CAS_TIME_LO` (11_cascade.md). -/
abbrev R.CAS_TIME_LO : Nat := 0x00140028
abbrev F.CAS_TIME_LO_TIME : Fld := ⟨R.CAS_TIME_LO, 31, 0⟩
/-- Address of `CAS_TIME_HI` (11_cascade.md). -/
abbrev R.CAS_TIME_HI : Nat := 0x0014002C
abbrev F.CAS_TIME_HI_TIME : Fld := ⟨R.CAS_TIME_HI, 31, 0⟩
/-- Address of `CAS_TIME_SET_LO` (11_cascade.md). -/
abbrev R.CAS_TIME_SET_LO : Nat := 0x00140030
abbrev F.CAS_TIME_SET_LO_TIME : Fld := ⟨R.CAS_TIME_SET_LO, 31, 0⟩
/-- Address of `CAS_TIME_SET_HI` (11_cascade.md). -/
abbrev R.CAS_TIME_SET_HI : Nat := 0x00140034
abbrev F.CAS_TIME_SET_HI_TIME : Fld := ⟨R.CAS_TIME_SET_HI, 31, 0⟩
/-- Address of `CAS_PORT_STAT` (11_cascade.md). -/
abbrev R.CAS_PORT_STAT (n : Nat) : Nat := 0x00140040 + 4 * n
abbrev F.CAS_PORT_STAT_STATE (n : Nat) : Fld := ⟨R.CAS_PORT_STAT n, 31, 30⟩
abbrev F.CAS_PORT_STAT_NUMBERED (n : Nat) : Fld := ⟨R.CAS_PORT_STAT n, 29, 29⟩
abbrev F.CAS_PORT_STAT_HEADCLASH (n : Nat) : Fld := ⟨R.CAS_PORT_STAT n, 28, 28⟩
abbrev F.CAS_PORT_STAT_LOCKED (n : Nat) : Fld := ⟨R.CAS_PORT_STAT n, 27, 24⟩
abbrev F.CAS_PORT_STAT_DOWNS (n : Nat) : Fld := ⟨R.CAS_PORT_STAT n, 23, 16⟩
abbrev F.CAS_PORT_STAT_RETX (n : Nat) : Fld := ⟨R.CAS_PORT_STAT n, 15, 0⟩
/-- Address of `CAS_PORT_SIZE` (11_cascade.md). -/
abbrev R.CAS_PORT_SIZE (n : Nat) : Nat := 0x00140060 + 4 * n
abbrev F.CAS_PORT_SIZE_SIZE (n : Nat) : Fld := ⟨R.CAS_PORT_SIZE n, 18, 0⟩
/-- Address of `CAS_BOVL_CFG` (11_cascade.md). -/
abbrev R.CAS_BOVL_CFG (n : Nat) : Nat := 0x00140080 + 4 * n
abbrev F.CAS_BOVL_CFG_EN (n : Nat) : Fld := ⟨R.CAS_BOVL_CFG n, 31, 31⟩
abbrev F.CAS_BOVL_CFG_W (n : Nat) : Fld := ⟨R.CAS_BOVL_CFG n, 29, 16⟩
abbrev F.CAS_BOVL_CFG_H (n : Nat) : Fld := ⟨R.CAS_BOVL_CFG n, 12, 0⟩
/-- Address of `CAS_BOVL_MAP` (11_cascade.md). -/
abbrev R.CAS_BOVL_MAP : Nat := 0x001400A0
abbrev F.CAS_BOVL_MAP_MAP : Fld := ⟨R.CAS_BOVL_MAP, 31, 0⟩
/-- Address of `CAS_BOVL_STAT` (11_cascade.md). -/
abbrev R.CAS_BOVL_STAT (n : Nat) : Nat := 0x001400C0 + 4 * n
abbrev F.CAS_BOVL_STAT_ACTIVE (n : Nat) : Fld := ⟨R.CAS_BOVL_STAT n, 31, 31⟩
abbrev F.CAS_BOVL_STAT_COPY (n : Nat) : Fld := ⟨R.CAS_BOVL_STAT n, 30, 30⟩
abbrev F.CAS_BOVL_STAT_QUEUED (n : Nat) : Fld := ⟨R.CAS_BOVL_STAT n, 29, 29⟩
abbrev F.CAS_BOVL_STAT_ROWS (n : Nat) : Fld := ⟨R.CAS_BOVL_STAT n, 28, 16⟩
abbrev F.CAS_BOVL_STAT_LAST_TURN (n : Nat) : Fld := ⟨R.CAS_BOVL_STAT n, 15, 0⟩
/-- Address of `CAS_EVT_FIFO0` (11_cascade.md). -/
abbrev R.CAS_EVT_FIFO0 : Nat := 0x001400E0
abbrev F.CAS_EVT_FIFO0_WORD : Fld := ⟨R.CAS_EVT_FIFO0, 31, 0⟩
/-- Address of `CAS_EVT_FIFO1` (11_cascade.md). -/
abbrev R.CAS_EVT_FIFO1 : Nat := 0x001400E4
abbrev F.CAS_EVT_FIFO1_WORD : Fld := ⟨R.CAS_EVT_FIFO1, 31, 0⟩
/-- Address of `CAS_EVT_FIFO2` (11_cascade.md). -/
abbrev R.CAS_EVT_FIFO2 : Nat := 0x001400E8
abbrev F.CAS_EVT_FIFO2_WORD : Fld := ⟨R.CAS_EVT_FIFO2, 31, 0⟩
/-- Address of `CAS_EVT_LOST` (11_cascade.md). -/
abbrev R.CAS_EVT_LOST : Nat := 0x001400EC
abbrev F.CAS_EVT_LOST_COUNT : Fld := ⟨R.CAS_EVT_LOST, 31, 0⟩
/-- Address of `SWD_SLOT_CFG` (05_layers_commits_flips.md). -/
abbrev R.SWD_SLOT_CFG : Nat := 0x00200000
abbrev F.SWD_SLOT_CFG_SIZE2 : Fld := ⟨R.SWD_SLOT_CFG, 29, 20⟩
abbrev F.SWD_SLOT_CFG_SIZE1 : Fld := ⟨R.SWD_SLOT_CFG, 19, 10⟩
abbrev F.SWD_SLOT_CFG_SIZE0 : Fld := ⟨R.SWD_SLOT_CFG, 9, 0⟩
/-- Address of `SWD_SLOT_STAT` (05_layers_commits_flips.md). -/
abbrev R.SWD_SLOT_STAT (n : Nat) : Nat := 0x00200010 + 4 * n
abbrev F.SWD_SLOT_STAT_STATE (n : Nat) : Fld := ⟨R.SWD_SLOT_STAT n, 31, 30⟩
abbrev F.SWD_SLOT_STAT_COMPLETE (n : Nat) : Fld := ⟨R.SWD_SLOT_STAT n, 29, 29⟩
abbrev F.SWD_SLOT_STAT_SHOWS (n : Nat) : Fld := ⟨R.SWD_SLOT_STAT n, 28, 28⟩
abbrev F.SWD_SLOT_STAT_GROUPS (n : Nat) : Fld := ⟨R.SWD_SLOT_STAT n, 15, 0⟩
/-- Address of `SWD_SLOT_USED` (05_layers_commits_flips.md). -/
abbrev R.SWD_SLOT_USED (n : Nat) : Nat := 0x00200020 + 4 * n
abbrev F.SWD_SLOT_USED_UNITS (n : Nat) : Fld := ⟨R.SWD_SLOT_USED n, 24, 0⟩
/-- Address of `SWD_WIN_SEL` (03_scene_coding.md). -/
abbrev R.SWD_WIN_SEL : Nat := 0x00200040
abbrev F.SWD_WIN_SEL_SLOT : Fld := ⟨R.SWD_WIN_SEL, 1, 0⟩
/-- Address of `SWD_DIR_USED` (03_scene_coding.md). -/
abbrev R.SWD_DIR_USED (n : Nat) : Nat := 0x00200044 + 4 * n
abbrev F.SWD_DIR_USED_ENTRIES (n : Nat) : Fld := ⟨R.SWD_DIR_USED n, 17, 0⟩
/-- Address of `SWD_BLK_REFUSED` (03_scene_coding.md). -/
abbrev R.SWD_BLK_REFUSED : Nat := 0x00200050
abbrev F.SWD_BLK_REFUSED_BLOCKFMT : Fld := ⟨R.SWD_BLK_REFUSED, 31, 24⟩
abbrev F.SWD_BLK_REFUSED_BLOCKPOS : Fld := ⟨R.SWD_BLK_REFUSED, 23, 16⟩
abbrev F.SWD_BLK_REFUSED_CODETAB : Fld := ⟨R.SWD_BLK_REFUSED, 15, 8⟩
abbrev F.SWD_BLK_REFUSED_SLOTFULL : Fld := ⟨R.SWD_BLK_REFUSED, 7, 0⟩
/-- Address of `SWD_BLK_STAT` (03_scene_coding.md). -/
abbrev R.SWD_BLK_STAT : Nat := 0x00200054
abbrev F.SWD_BLK_STAT_REPLACED : Fld := ⟨R.SWD_BLK_STAT, 31, 16⟩
abbrev F.SWD_BLK_STAT_SAME : Fld := ⟨R.SWD_BLK_STAT, 15, 0⟩
/-- Address of `SWD_ECC_CNT` (12_memory.md). -/
abbrev R.SWD_ECC_CNT : Nat := 0x00200060
abbrev F.SWD_ECC_CNT_CORR : Fld := ⟨R.SWD_ECC_CNT, 31, 16⟩
abbrev F.SWD_ECC_CNT_UNCORR : Fld := ⟨R.SWD_ECC_CNT, 15, 8⟩
/-- Address of `DEC_CTAB_PRESENT` (03_scene_coding.md). -/
abbrev R.DEC_CTAB_PRESENT : Nat := 0x00220010
abbrev F.DEC_CTAB_PRESENT_IMAGE : Fld := ⟨R.DEC_CTAB_PRESENT, 31, 16⟩
abbrev F.DEC_CTAB_PRESENT_BUILTIN : Fld := ⟨R.DEC_CTAB_PRESENT, 15, 0⟩
/-- Address of `DEC_ERR_COUNT` (03_scene_coding.md). -/
abbrev R.DEC_ERR_COUNT : Nat := 0x00220020
abbrev F.DEC_ERR_COUNT_OVERRUN : Fld := ⟨R.DEC_ERR_COUNT, 31, 24⟩
abbrev F.DEC_ERR_COUNT_TRAILING : Fld := ⟨R.DEC_ERR_COUNT, 23, 16⟩
abbrev F.DEC_ERR_COUNT_ECC : Fld := ⟨R.DEC_ERR_COUNT, 15, 8⟩
/-- Address of `DEC_ERR_FIRST` (03_scene_coding.md). -/
abbrev R.DEC_ERR_FIRST : Nat := 0x00220024
abbrev F.DEC_ERR_FIRST_VALID : Fld := ⟨R.DEC_ERR_FIRST, 31, 31⟩
abbrev F.DEC_ERR_FIRST_KIND : Fld := ⟨R.DEC_ERR_FIRST, 30, 29⟩
abbrev F.DEC_ERR_FIRST_SLOT : Fld := ⟨R.DEC_ERR_FIRST, 28, 27⟩
abbrev F.DEC_ERR_FIRST_PLANE : Fld := ⟨R.DEC_ERR_FIRST, 26, 21⟩
abbrev F.DEC_ERR_FIRST_BAND : Fld := ⟨R.DEC_ERR_FIRST, 20, 13⟩
abbrev F.DEC_ERR_FIRST_COL : Fld := ⟨R.DEC_ERR_FIRST, 12, 9⟩
/-- Address of `DEC_ERR_FIRST_TAG` (03_scene_coding.md). -/
abbrev R.DEC_ERR_FIRST_TAG : Nat := 0x00220028
abbrev F.DEC_ERR_FIRST_TAG_TAG : Fld := ⟨R.DEC_ERR_FIRST_TAG, 31, 0⟩
/-- Address of `DEC_ERR_FIRST_TURN` (03_scene_coding.md). -/
abbrev R.DEC_ERR_FIRST_TURN : Nat := 0x0022002C
abbrev F.DEC_ERR_FIRST_TURN_TURN : Fld := ⟨R.DEC_ERR_FIRST_TURN, 31, 0⟩
/-- Address of `DEC_LATE` (12_memory.md). -/
abbrev R.DEC_LATE : Nat := 0x00220030
abbrev F.DEC_LATE_COUNT : Fld := ⟨R.DEC_LATE, 31, 0⟩
/-- Address of `SYN_CTL` (04_ray_synthesis.md). -/
abbrev R.SYN_CTL : Nat := 0x00300000
abbrev F.SYN_CTL_START : Fld := ⟨R.SYN_CTL, 31, 31⟩
abbrev F.SYN_CTL_STOP : Fld := ⟨R.SYN_CTL, 30, 30⟩
abbrev F.SYN_CTL_BADCFG : Fld := ⟨R.SYN_CTL, 2, 2⟩
abbrev F.SYN_CTL_PEND : Fld := ⟨R.SYN_CTL, 1, 1⟩
abbrev F.SYN_CTL_RUN : Fld := ⟨R.SYN_CTL, 0, 0⟩
/-- Address of `SYN_LEAD_CFG` (04_ray_synthesis.md). -/
abbrev R.SYN_LEAD_CFG : Nat := 0x00300004
abbrev F.SYN_LEAD_CFG_LEAD : Fld := ⟨R.SYN_LEAD_CFG, 5, 0⟩
/-- Address of `SYN_TERM_CFG` (04_ray_synthesis.md). -/
abbrev R.SYN_TERM_CFG : Nat := 0x00300008
abbrev F.SYN_TERM_CFG_T_MIN : Fld := ⟨R.SYN_TERM_CFG, 20, 0⟩
/-- Address of `SYN_BG_COLOUR` (04_ray_synthesis.md). -/
abbrev R.SYN_BG_COLOUR : Nat := 0x0030000C
abbrev F.SYN_BG_COLOUR_B : Fld := ⟨R.SYN_BG_COLOUR, 29, 20⟩
abbrev F.SYN_BG_COLOUR_G : Fld := ⟨R.SYN_BG_COLOUR, 19, 10⟩
abbrev F.SYN_BG_COLOUR_R : Fld := ⟨R.SYN_BG_COLOUR, 9, 0⟩
/-- Address of `SYN_POOL_CFG` (04_ray_synthesis.md). -/
abbrev R.SYN_POOL_CFG : Nat := 0x00300010
abbrev F.SYN_POOL_CFG_DIAG_CLAMP : Fld := ⟨R.SYN_POOL_CFG, 31, 31⟩
abbrev F.SYN_POOL_CFG_VCAP : Fld := ⟨R.SYN_POOL_CFG, 8, 0⟩
/-- Address of `SYN_POOL_STAT` (04_ray_synthesis.md). -/
abbrev R.SYN_POOL_STAT : Nat := 0x00300014
abbrev F.SYN_POOL_STAT_LINE_USED : Fld := ⟨R.SYN_POOL_STAT, 25, 16⟩
abbrev F.SYN_POOL_STAT_OVL_USED : Fld := ⟨R.SYN_POOL_STAT, 6, 0⟩
/-- Address of `SYN_POOL_REFUSED` (04_ray_synthesis.md). -/
abbrev R.SYN_POOL_REFUSED : Nat := 0x00300018
abbrev F.SYN_POOL_REFUSED_LINE_REQ : Fld := ⟨R.SYN_POOL_REFUSED, 31, 16⟩
abbrev F.SYN_POOL_REFUSED_OVL_REQ : Fld := ⟨R.SYN_POOL_REFUSED, 15, 0⟩
/-- Address of `SYN_CLAMP_COUNT` (04_ray_synthesis.md). -/
abbrev R.SYN_CLAMP_COUNT : Nat := 0x0030001C
abbrev F.SYN_CLAMP_COUNT_COUNT : Fld := ⟨R.SYN_CLAMP_COUNT, 31, 0⟩
/-- Address of `SYN_COEF_CTL` (04_ray_synthesis.md). -/
abbrev R.SYN_COEF_CTL : Nat := 0x00300020
abbrev F.SYN_COEF_CTL_SWAP : Fld := ⟨R.SYN_COEF_CTL, 31, 31⟩
abbrev F.SYN_COEF_CTL_LAST_TURN : Fld := ⟨R.SYN_COEF_CTL, 23, 8⟩
abbrev F.SYN_COEF_CTL_REFUSED : Fld := ⟨R.SYN_COEF_CTL, 7, 2⟩
abbrev F.SYN_COEF_CTL_PEND : Fld := ⟨R.SYN_COEF_CTL, 1, 1⟩
abbrev F.SYN_COEF_CTL_ACTIVE : Fld := ⟨R.SYN_COEF_CTL, 0, 0⟩
/-- Address of `SYN_PASS_HIST` (04_ray_synthesis.md). -/
abbrev R.SYN_PASS_HIST (n : Nat) : Nat := 0x00300040 + 4 * n
abbrev F.SYN_PASS_HIST_SEGMENTS (n : Nat) : Fld := ⟨R.SYN_PASS_HIST n, 31, 0⟩
/-- Address of `SYN_PEFF_MAX` (04_ray_synthesis.md). -/
abbrev R.SYN_PEFF_MAX : Nat := 0x00300068
abbrev F.SYN_PEFF_MAX_PROW : Fld := ⟨R.SYN_PEFF_MAX, 6, 0⟩
/-- Address of `SYN_GEOM_CFG` (02_light_field_geometry.md). -/
abbrev R.SYN_GEOM_CFG : Nat := 0x00300100
abbrev F.SYN_GEOM_CFG_NG_M1 : Fld := ⟨R.SYN_GEOM_CFG, 22, 16⟩
abbrev F.SYN_GEOM_CFG_MIRROR_V : Fld := ⟨R.SYN_GEOM_CFG, 10, 10⟩
abbrev F.SYN_GEOM_CFG_MIRROR_U : Fld := ⟨R.SYN_GEOM_CFG, 9, 9⟩
abbrev F.SYN_GEOM_CFG_HPO : Fld := ⟨R.SYN_GEOM_CFG, 8, 8⟩
abbrev F.SYN_GEOM_CFG_H_M1 : Fld := ⟨R.SYN_GEOM_CFG, 7, 4⟩
abbrev F.SYN_GEOM_CFG_W_M1 : Fld := ⟨R.SYN_GEOM_CFG, 3, 0⟩
/-- Address of `SYN_GEOM_GRID` (02_light_field_geometry.md). -/
abbrev R.SYN_GEOM_GRID : Nat := 0x00300104
abbrev F.SYN_GEOM_GRID_INVALID : Fld := ⟨R.SYN_GEOM_GRID, 31, 31⟩
abbrev F.SYN_GEOM_GRID_ROWS : Fld := ⟨R.SYN_GEOM_GRID, 30, 16⟩
abbrev F.SYN_GEOM_GRID_COLS : Fld := ⟨R.SYN_GEOM_GRID, 15, 0⟩
/-- Address of `SYN_GEOM_ORIGIN` (02_light_field_geometry.md). -/
abbrev R.SYN_GEOM_ORIGIN : Nat := 0x00300108
abbrev F.SYN_GEOM_ORIGIN_HY0 : Fld := ⟨R.SYN_GEOM_ORIGIN, 31, 16⟩
abbrev F.SYN_GEOM_ORIGIN_HX0 : Fld := ⟨R.SYN_GEOM_ORIGIN, 15, 0⟩
/-- Address of `SYN_GEOM_PROBE_EMIT` (02_light_field_geometry.md). -/
abbrev R.SYN_GEOM_PROBE_EMIT : Nat := 0x0030010C
abbrev F.SYN_GEOM_PROBE_EMIT_Y : Fld := ⟨R.SYN_GEOM_PROBE_EMIT, 30, 16⟩
abbrev F.SYN_GEOM_PROBE_EMIT_X : Fld := ⟨R.SYN_GEOM_PROBE_EMIT, 15, 0⟩
/-- Address of `SYN_GEOM_PROBE_CTL` (02_light_field_geometry.md). -/
abbrev R.SYN_GEOM_PROBE_CTL : Nat := 0x00300110
abbrev F.SYN_GEOM_PROBE_CTL_GO : Fld := ⟨R.SYN_GEOM_PROBE_CTL, 31, 31⟩
abbrev F.SYN_GEOM_PROBE_CTL_DONE : Fld := ⟨R.SYN_GEOM_PROBE_CTL, 30, 30⟩
abbrev F.SYN_GEOM_PROBE_CTL_LAYER : Fld := ⟨R.SYN_GEOM_PROBE_CTL, 6, 0⟩
/-- Address of `SYN_GEOM_PROBE_X` (02_light_field_geometry.md). -/
abbrev R.SYN_GEOM_PROBE_X : Nat := 0x00300114
abbrev F.SYN_GEOM_PROBE_X_RANGE : Fld := ⟨R.SYN_GEOM_PROBE_X, 27, 27⟩
abbrev F.SYN_GEOM_PROBE_X_ABSENT : Fld := ⟨R.SYN_GEOM_PROBE_X, 26, 26⟩
abbrev F.SYN_GEOM_PROBE_X_SAT : Fld := ⟨R.SYN_GEOM_PROBE_X, 25, 25⟩
abbrev F.SYN_GEOM_PROBE_X_OUT : Fld := ⟨R.SYN_GEOM_PROBE_X, 24, 24⟩
abbrev F.SYN_GEOM_PROBE_X_C : Fld := ⟨R.SYN_GEOM_PROBE_X, 21, 0⟩
/-- Address of `SYN_GEOM_PROBE_Y` (02_light_field_geometry.md). -/
abbrev R.SYN_GEOM_PROBE_Y : Nat := 0x00300118
abbrev F.SYN_GEOM_PROBE_Y_RANGE : Fld := ⟨R.SYN_GEOM_PROBE_Y, 27, 27⟩
abbrev F.SYN_GEOM_PROBE_Y_ABSENT : Fld := ⟨R.SYN_GEOM_PROBE_Y, 26, 26⟩
abbrev F.SYN_GEOM_PROBE_Y_SAT : Fld := ⟨R.SYN_GEOM_PROBE_Y, 25, 25⟩
abbrev F.SYN_GEOM_PROBE_Y_OUT : Fld := ⟨R.SYN_GEOM_PROBE_Y, 24, 24⟩
abbrev F.SYN_GEOM_PROBE_Y_C : Fld := ⟨R.SYN_GEOM_PROBE_Y, 21, 0⟩
/-- Address of `LYR_TURN_LO` (05_layers_commits_flips.md). -/
abbrev R.LYR_TURN_LO : Nat := 0x00340010
abbrev F.LYR_TURN_LO_TURN : Fld := ⟨R.LYR_TURN_LO, 31, 0⟩
/-- Address of `LYR_TURN_HI` (05_layers_commits_flips.md). -/
abbrev R.LYR_TURN_HI : Nat := 0x00340014
abbrev F.LYR_TURN_HI_TURN : Fld := ⟨R.LYR_TURN_HI, 15, 0⟩
/-- Address of `LYR_FLIP_TIME_LO` (05_layers_commits_flips.md). -/
abbrev R.LYR_FLIP_TIME_LO : Nat := 0x00340018
abbrev F.LYR_FLIP_TIME_LO_TIME : Fld := ⟨R.LYR_FLIP_TIME_LO, 31, 0⟩
/-- Address of `LYR_FLIP_TIME_HI` (05_layers_commits_flips.md). -/
abbrev R.LYR_FLIP_TIME_HI : Nat := 0x0034001C
abbrev F.LYR_FLIP_TIME_HI_TIME : Fld := ⟨R.LYR_FLIP_TIME_HI, 31, 0⟩
/-- Address of `LYR_FENCE_CFG` (05_layers_commits_flips.md). -/
abbrev R.LYR_FENCE_CFG : Nat := 0x00340020
abbrev F.LYR_FENCE_CFG_TIMEOUT : Fld := ⟨R.LYR_FENCE_CFG, 7, 0⟩
/-- Address of `LYR_REPEAT_CFG` (05_layers_commits_flips.md). -/
abbrev R.LYR_REPEAT_CFG : Nat := 0x00340024
abbrev F.LYR_REPEAT_CFG_ACTION : Fld := ⟨R.LYR_REPEAT_CFG, 31, 31⟩
abbrev F.LYR_REPEAT_CFG_FADE_TURNS : Fld := ⟨R.LYR_REPEAT_CFG, 15, 8⟩
abbrev F.LYR_REPEAT_CFG_REPEAT_MAX : Fld := ⟨R.LYR_REPEAT_CFG, 7, 0⟩
/-- Address of `LYR_REPEAT_STAT` (05_layers_commits_flips.md). -/
abbrev R.LYR_REPEAT_STAT : Nat := 0x00340028
abbrev F.LYR_REPEAT_STAT_FADING : Fld := ⟨R.LYR_REPEAT_STAT, 31, 31⟩
abbrev F.LYR_REPEAT_STAT_BLACK : Fld := ⟨R.LYR_REPEAT_STAT, 30, 30⟩
abbrev F.LYR_REPEAT_STAT_COUNT : Fld := ⟨R.LYR_REPEAT_STAT, 15, 0⟩
/-- Address of `LYR_COMMIT_STAT` (05_layers_commits_flips.md). -/
abbrev R.LYR_COMMIT_STAT : Nat := 0x00340030
abbrev F.LYR_COMMIT_STAT_OUTCOME : Fld := ⟨R.LYR_COMMIT_STAT, 31, 28⟩
abbrev F.LYR_COMMIT_STAT_REASON : Fld := ⟨R.LYR_COMMIT_STAT, 23, 16⟩
abbrev F.LYR_COMMIT_STAT_GROUPS : Fld := ⟨R.LYR_COMMIT_STAT, 15, 0⟩
/-- Address of `LYR_COMMIT_ID` (05_layers_commits_flips.md). -/
abbrev R.LYR_COMMIT_ID : Nat := 0x00340034
abbrev F.LYR_COMMIT_ID_ID : Fld := ⟨R.LYR_COMMIT_ID, 31, 0⟩
/-- Address of `LYR_COMMIT_TURN` (05_layers_commits_flips.md). -/
abbrev R.LYR_COMMIT_TURN : Nat := 0x00340038
abbrev F.LYR_COMMIT_TURN_TURN : Fld := ⟨R.LYR_COMMIT_TURN, 31, 0⟩
/-- Address of `LYR_FALLOW_STAT` (05_layers_commits_flips.md). -/
abbrev R.LYR_FALLOW_STAT : Nat := 0x00340040
abbrev F.LYR_FALLOW_STAT_BUSY : Fld := ⟨R.LYR_FALLOW_STAT, 31, 31⟩
abbrev F.LYR_FALLOW_STAT_QUEUED : Fld := ⟨R.LYR_FALLOW_STAT, 23, 16⟩
abbrev F.LYR_FALLOW_STAT_ENTRIES : Fld := ⟨R.LYR_FALLOW_STAT, 6, 0⟩
/-- Address of `LYR_FALLOW_DROP` (05_layers_commits_flips.md). -/
abbrev R.LYR_FALLOW_DROP : Nat := 0x00340044
abbrev F.LYR_FALLOW_DROP_ID : Fld := ⟨R.LYR_FALLOW_DROP, 31, 0⟩
/-- Address of `LYR_GROUP_STAT` (05_layers_commits_flips.md). -/
abbrev R.LYR_GROUP_STAT (n : Nat) : Nat := 0x00340100 + 4 * n
abbrev F.LYR_GROUP_STAT_SHOWN (n : Nat) : Fld := ⟨R.LYR_GROUP_STAT n, 31, 31⟩
abbrev F.LYR_GROUP_STAT_SLOT (n : Nat) : Fld := ⟨R.LYR_GROUP_STAT n, 30, 29⟩
abbrev F.LYR_GROUP_STAT_PEND (n : Nat) : Fld := ⟨R.LYR_GROUP_STAT n, 28, 28⟩
abbrev F.LYR_GROUP_STAT_WAIT (n : Nat) : Fld := ⟨R.LYR_GROUP_STAT n, 27, 26⟩
abbrev F.LYR_GROUP_STAT_PSLOT (n : Nat) : Fld := ⟨R.LYR_GROUP_STAT n, 25, 24⟩
abbrev F.LYR_GROUP_STAT_COUNT (n : Nat) : Fld := ⟨R.LYR_GROUP_STAT n, 23, 16⟩
/-- Address of `LYR_GROUP_TURN` (05_layers_commits_flips.md). -/
abbrev R.LYR_GROUP_TURN (n : Nat) : Nat := 0x00340140 + 4 * n
abbrev F.LYR_GROUP_TURN_TURN (n : Nat) : Fld := ⟨R.LYR_GROUP_TURN n, 31, 0⟩
/-- Address of `LYR_GROUP_ID` (05_layers_commits_flips.md). -/
abbrev R.LYR_GROUP_ID (n : Nat) : Nat := 0x00340180 + 4 * n
abbrev F.LYR_GROUP_ID_ID (n : Nat) : Fld := ⟨R.LYR_GROUP_ID n, 31, 0⟩
/-- Address of `LYR_FENCE_VAL` (05_layers_commits_flips.md). -/
abbrev R.LYR_FENCE_VAL (n : Nat) : Nat := 0x00340200 + 4 * n
abbrev F.LYR_FENCE_VAL_VALUE (n : Nat) : Fld := ⟨R.LYR_FENCE_VAL n, 31, 0⟩
/-- Address of `COL_LUT_CTL` (06_colour_and_calibration.md). -/
abbrev R.COL_LUT_CTL : Nat := 0x00360000
abbrev F.COL_LUT_CTL_SWAP : Fld := ⟨R.COL_LUT_CTL, 31, 31⟩
abbrev F.COL_LUT_CTL_LAST_TURN : Fld := ⟨R.COL_LUT_CTL, 23, 8⟩
abbrev F.COL_LUT_CTL_REFUSED : Fld := ⟨R.COL_LUT_CTL, 7, 2⟩
abbrev F.COL_LUT_CTL_PEND : Fld := ⟨R.COL_LUT_CTL, 1, 1⟩
abbrev F.COL_LUT_CTL_ACTIVE : Fld := ⟨R.COL_LUT_CTL, 0, 0⟩
/-- Address of `COL_ZONE_STAT` (06_colour_and_calibration.md). -/
abbrev R.COL_ZONE_STAT (n : Nat) : Nat := 0x00360200 + 4 * n
abbrev F.COL_ZONE_STAT_TEMP (n : Nat) : Fld := ⟨R.COL_ZONE_STAT n, 31, 16⟩
abbrev F.COL_ZONE_STAT_SET (n : Nat) : Fld := ⟨R.COL_ZONE_STAT n, 15, 13⟩
abbrev F.COL_ZONE_STAT_WEIGHT (n : Nat) : Fld := ⟨R.COL_ZONE_STAT n, 8, 0⟩
/-- Address of `EMC_MAP_CTL` (06_colour_and_calibration.md). -/
abbrev R.EMC_MAP_CTL : Nat := 0x00380000
abbrev F.EMC_MAP_CTL_SWAP : Fld := ⟨R.EMC_MAP_CTL, 31, 31⟩
abbrev F.EMC_MAP_CTL_LAST_TURN : Fld := ⟨R.EMC_MAP_CTL, 23, 8⟩
abbrev F.EMC_MAP_CTL_REFUSED : Fld := ⟨R.EMC_MAP_CTL, 7, 2⟩
abbrev F.EMC_MAP_CTL_PEND : Fld := ⟨R.EMC_MAP_CTL, 1, 1⟩
abbrev F.EMC_MAP_CTL_ACTIVE : Fld := ⟨R.EMC_MAP_CTL, 0, 0⟩
/-- Address of `EMC_MAP_BASE` (06_colour_and_calibration.md). -/
abbrev R.EMC_MAP_BASE (n : Nat) : Nat := 0x00380010 + 4 * n
abbrev F.EMC_MAP_BASE_BASE (n : Nat) : Fld := ⟨R.EMC_MAP_BASE n, 28, 0⟩
/-- Address of `EMC_MAP_CFG` (06_colour_and_calibration.md). -/
abbrev R.EMC_MAP_CFG (n : Nat) : Nat := 0x00380020 + 4 * n
abbrev F.EMC_MAP_CFG_VALID (n : Nat) : Fld := ⟨R.EMC_MAP_CFG n, 31, 31⟩
abbrev F.EMC_MAP_CFG_FORMAT (n : Nat) : Fld := ⟨R.EMC_MAP_CFG n, 30, 30⟩
abbrev F.EMC_MAP_CFG_ROW0 (n : Nat) : Fld := ⟨R.EMC_MAP_CFG n, 29, 15⟩
abbrev F.EMC_MAP_CFG_ROWS (n : Nat) : Fld := ⟨R.EMC_MAP_CFG n, 14, 0⟩
/-- Address of `EMC_MAP_ERR` (06_colour_and_calibration.md). -/
abbrev R.EMC_MAP_ERR : Nat := 0x00380030
abbrev F.EMC_MAP_ERR_TAGERR : Fld := ⟨R.EMC_MAP_ERR, 31, 24⟩
abbrev F.EMC_MAP_ERR_ECC : Fld := ⟨R.EMC_MAP_ERR, 23, 16⟩
abbrev F.EMC_MAP_ERR_RANGE : Fld := ⟨R.EMC_MAP_ERR, 15, 8⟩
/-- Address of `DRV_CTL` (07_panel_drive_and_ledger.md). -/
abbrev R.DRV_CTL : Nat := 0x003A0000
abbrev F.DRV_CTL_START : Fld := ⟨R.DRV_CTL, 31, 31⟩
abbrev F.DRV_CTL_STOP : Fld := ⟨R.DRV_CTL, 30, 30⟩
abbrev F.DRV_CTL_BADCFG : Fld := ⟨R.DRV_CTL, 2, 2⟩
abbrev F.DRV_CTL_PEND : Fld := ⟨R.DRV_CTL, 1, 1⟩
abbrev F.DRV_CTL_RUN : Fld := ⟨R.DRV_CTL, 0, 0⟩
/-- Address of `DRV_LEDGER_CFG` (07_panel_drive_and_ledger.md). -/
abbrev R.DRV_LEDGER_CFG : Nat := 0x003A0004
abbrev F.DRV_LEDGER_CFG_READY : Fld := ⟨R.DRV_LEDGER_CFG, 31, 31⟩
abbrev F.DRV_LEDGER_CFG_ROW0 : Fld := ⟨R.DRV_LEDGER_CFG, 30, 16⟩
abbrev F.DRV_LEDGER_CFG_BASE : Fld := ⟨R.DRV_LEDGER_CFG, 4, 0⟩
/-- Address of `DRV_LEDGER_SAT` (07_panel_drive_and_ledger.md). -/
abbrev R.DRV_LEDGER_SAT : Nat := 0x003A0020
abbrev F.DRV_LEDGER_SAT_HI : Fld := ⟨R.DRV_LEDGER_SAT, 31, 16⟩
abbrev F.DRV_LEDGER_SAT_LO : Fld := ⟨R.DRV_LEDGER_SAT, 15, 0⟩
/-- Address of `DRV_LEDGER_ERR` (07_panel_drive_and_ledger.md). -/
abbrev R.DRV_LEDGER_ERR : Nat := 0x003A0024
abbrev F.DRV_LEDGER_ERR_ECC : Fld := ⟨R.DRV_LEDGER_ERR, 31, 24⟩
/-- Address of `DRV_LEDGER_SAT_CFG` (07_panel_drive_and_ledger.md). -/
abbrev R.DRV_LEDGER_SAT_CFG : Nat := 0x003A0028
abbrev F.DRV_LEDGER_SAT_CFG_THRESH : Fld := ⟨R.DRV_LEDGER_SAT_CFG, 15, 0⟩
/-- Address of `DRV_LEDGER_SAT_FIRST` (07_panel_drive_and_ledger.md). -/
abbrev R.DRV_LEDGER_SAT_FIRST : Nat := 0x003A002C
abbrev F.DRV_LEDGER_SAT_FIRST_VALID : Fld := ⟨R.DRV_LEDGER_SAT_FIRST, 31, 31⟩
abbrev F.DRV_LEDGER_SAT_FIRST_Y : Fld := ⟨R.DRV_LEDGER_SAT_FIRST, 30, 16⟩
abbrev F.DRV_LEDGER_SAT_FIRST_X : Fld := ⟨R.DRV_LEDGER_SAT_FIRST, 15, 0⟩
/-- Address of `DRV_RANGE_FS` (06_colour_and_calibration.md). -/
abbrev R.DRV_RANGE_FS (n : Nat) : Nat := 0x003A0100 + 4 * n
abbrev F.DRV_RANGE_FS_FS (n : Nat) : Fld := ⟨R.DRV_RANGE_FS n, 18, 0⟩
/-- Address of `DRV_DITHER_CFG` (06_colour_and_calibration.md). -/
abbrev R.DRV_DITHER_CFG : Nat := 0x003A0110
abbrev F.DRV_DITHER_CFG_MODE : Fld := ⟨R.DRV_DITHER_CFG, 1, 0⟩
/-- Address of `DRV_STRESS` (07_panel_drive_and_ledger.md). -/
abbrev R.DRV_STRESS (n : Nat) : Nat := 0x003A0200 + 4 * n
abbrev F.DRV_STRESS_S3 (n : Nat) : Fld := ⟨R.DRV_STRESS n, 31, 24⟩
abbrev F.DRV_STRESS_S2 (n : Nat) : Fld := ⟨R.DRV_STRESS n, 23, 16⟩
abbrev F.DRV_STRESS_S1 (n : Nat) : Fld := ⟨R.DRV_STRESS n, 15, 8⟩
abbrev F.DRV_STRESS_S0 (n : Nat) : Fld := ⟨R.DRV_STRESS n, 7, 0⟩
/-- Address of `DRV_UNIT` (07_panel_drive_and_ledger.md). -/
abbrev R.DRV_UNIT (n : Nat) : Nat := 0x003A02A0 + 4 * n
abbrev F.DRV_UNIT_U3 (n : Nat) : Fld := ⟨R.DRV_UNIT n, 31, 24⟩
abbrev F.DRV_UNIT_U2 (n : Nat) : Fld := ⟨R.DRV_UNIT n, 23, 16⟩
abbrev F.DRV_UNIT_U1 (n : Nat) : Fld := ⟨R.DRV_UNIT n, 15, 8⟩
abbrev F.DRV_UNIT_U0 (n : Nat) : Fld := ⟨R.DRV_UNIT n, 7, 0⟩
/-- Address of `TIM_ROW_CFG` (07_panel_drive_and_ledger.md). -/
abbrev R.TIM_ROW_CFG : Nat := 0x003C0000
abbrev F.TIM_ROW_CFG_ROW_CYC : Fld := ⟨R.TIM_ROW_CFG, 11, 0⟩
/-- Address of `TIM_FRAME_CFG` (07_panel_drive_and_ledger.md). -/
abbrev R.TIM_FRAME_CFG : Nat := 0x003C0004
abbrev F.TIM_FRAME_CFG_BLANK : Fld := ⟨R.TIM_FRAME_CFG, 25, 16⟩
abbrev F.TIM_FRAME_CFG_ACTIVE : Fld := ⟨R.TIM_FRAME_CFG, 14, 0⟩
/-- Address of `TIM_CLOVER_CFG` (07_panel_drive_and_ledger.md). -/
abbrev R.TIM_CLOVER_CFG : Nat := 0x003C0008
abbrev F.TIM_CLOVER_CFG_NPWM_LOG2 : Fld := ⟨R.TIM_CLOVER_CFG, 31, 30⟩
abbrev F.TIM_CLOVER_CFG_RECOVER_ROWS : Fld := ⟨R.TIM_CLOVER_CFG, 29, 15⟩
abbrev F.TIM_CLOVER_CFG_EMIT_ROWS : Fld := ⟨R.TIM_CLOVER_CFG, 14, 0⟩
/-- Address of `TIM_LATCH_CFG` (05_layers_commits_flips.md). -/
abbrev R.TIM_LATCH_CFG : Nat := 0x003C0010
abbrev F.TIM_LATCH_CFG_OFFSET : Fld := ⟨R.TIM_LATCH_CFG, 9, 0⟩
/-- Address of `TIM_MODE_REQ` (05_layers_commits_flips.md). -/
abbrev R.TIM_MODE_REQ : Nat := 0x003C0020
abbrev F.TIM_MODE_REQ_GO : Fld := ⟨R.TIM_MODE_REQ, 31, 31⟩
abbrev F.TIM_MODE_REQ_TSET : Fld := ⟨R.TIM_MODE_REQ, 2, 0⟩
/-- Address of `TIM_MODE_STAT` (05_layers_commits_flips.md). -/
abbrev R.TIM_MODE_STAT : Nat := 0x003C0024
abbrev F.TIM_MODE_STAT_RESULT : Fld := ⟨R.TIM_MODE_STAT, 13, 12⟩
abbrev F.TIM_MODE_STAT_PHASE : Fld := ⟨R.TIM_MODE_STAT, 9, 8⟩
abbrev F.TIM_MODE_STAT_TARGET : Fld := ⟨R.TIM_MODE_STAT, 6, 4⟩
abbrev F.TIM_MODE_STAT_ACTIVE : Fld := ⟨R.TIM_MODE_STAT, 2, 0⟩
/-- Address of `TIM_GOUT_CFG` (07_panel_drive_and_ledger.md). -/
abbrev R.TIM_GOUT_CFG (n : Nat) : Nat := 0x003C0100 + 4 * n
abbrev F.TIM_GOUT_CFG_MODE (n : Nat) : Fld := ⟨R.TIM_GOUT_CFG n, 31, 30⟩
abbrev F.TIM_GOUT_CFG_CLASS (n : Nat) : Fld := ⟨R.TIM_GOUT_CFG n, 29, 28⟩
abbrev F.TIM_GOUT_CFG_INV (n : Nat) : Fld := ⟨R.TIM_GOUT_CFG n, 27, 27⟩
abbrev F.TIM_GOUT_CFG_REPEAT (n : Nat) : Fld := ⟨R.TIM_GOUT_CFG n, 26, 26⟩
abbrev F.TIM_GOUT_CFG_ALLSLOT (n : Nat) : Fld := ⟨R.TIM_GOUT_CFG n, 25, 25⟩
abbrev F.TIM_GOUT_CFG_PERIOD_M1 (n : Nat) : Fld := ⟨R.TIM_GOUT_CFG n, 18, 16⟩
abbrev F.TIM_GOUT_CFG_PHASE (n : Nat) : Fld := ⟨R.TIM_GOUT_CFG n, 10, 8⟩
/-- Address of `TIM_GOUT_EDGE` (07_panel_drive_and_ledger.md). -/
abbrev R.TIM_GOUT_EDGE (n : Nat) : Nat := 0x003C0140 + 4 * n
abbrev F.TIM_GOUT_EDGE_OFF (n : Nat) : Fld := ⟨R.TIM_GOUT_EDGE n, 27, 16⟩
abbrev F.TIM_GOUT_EDGE_ON (n : Nat) : Fld := ⟨R.TIM_GOUT_EDGE n, 11, 0⟩
/-- Address of `TIM_GOUT_ROW` (07_panel_drive_and_ledger.md). -/
abbrev R.TIM_GOUT_ROW (n : Nat) : Nat := 0x003C0180 + 4 * n
abbrev F.TIM_GOUT_ROW_ROW (n : Nat) : Fld := ⟨R.TIM_GOUT_ROW n, 14, 0⟩
/-- Address of `PL_CTL` (08_panel_link.md). -/
abbrev R.PL_CTL (p : Nat) : Nat := 0x00400000 + 0x1000 * p
abbrev F.PL_CTL_TRAIN (p : Nat) : Fld := ⟨R.PL_CTL p, 31, 31⟩
abbrev F.PL_CTL_RB_EN (p : Nat) : Fld := ⟨R.PL_CTL p, 30, 30⟩
abbrev F.PL_CTL_RETRY_EN (p : Nat) : Fld := ⟨R.PL_CTL p, 29, 29⟩
abbrev F.PL_CTL_FORCE (p : Nat) : Fld := ⟨R.PL_CTL p, 16, 0⟩
/-- Address of `PL_STAT` (08_panel_link.md). -/
abbrev R.PL_STAT (p : Nat) : Nat := 0x00400004 + 0x1000 * p
abbrev F.PL_STAT_STATE (p : Nat) : Fld := ⟨R.PL_STAT p, 31, 29⟩
abbrev F.PL_STAT_REVERSED (p : Nat) : Fld := ⟨R.PL_STAT p, 28, 28⟩
abbrev F.PL_STAT_SPARE_USED (p : Nat) : Fld := ⟨R.PL_STAT p, 27, 27⟩
abbrev F.PL_STAT_BLACK (p : Nat) : Fld := ⟨R.PL_STAT p, 26, 26⟩
abbrev F.PL_STAT_SHIFT (p : Nat) : Fld := ⟨R.PL_STAT p, 25, 21⟩
abbrev F.PL_STAT_FAILED (p : Nat) : Fld := ⟨R.PL_STAT p, 16, 0⟩
/-- Address of `PL_BLACK` (08_panel_link.md). -/
abbrev R.PL_BLACK (p : Nat) : Nat := 0x00400008 + 0x1000 * p
abbrev F.PL_BLACK_GROUPS (p : Nat) : Fld := ⟨R.PL_BLACK p, 15, 0⟩
/-- Address of `PL_RB_CFG` (08_panel_link.md). -/
abbrev R.PL_RB_CFG (p : Nat) : Nat := 0x0040000C + 0x1000 * p
abbrev F.PL_RB_CFG_THRESH (p : Nat) : Fld := ⟨R.PL_RB_CFG p, 7, 0⟩
/-- Address of `PL_BC_ERR` (08_panel_link.md). -/
abbrev R.PL_BC_ERR (p : Nat) : Nat := 0x00400010 + 0x1000 * p
abbrev F.PL_BC_ERR_MISSED (p : Nat) : Fld := ⟨R.PL_BC_ERR p, 31, 16⟩
abbrev F.PL_BC_ERR_BADCRC (p : Nat) : Fld := ⟨R.PL_BC_ERR p, 15, 0⟩
/-- Address of `PL_RB_ERR` (08_panel_link.md). -/
abbrev R.PL_RB_ERR (p : Nat) : Nat := 0x00400014 + 0x1000 * p
abbrev F.PL_RB_ERR_COUNT (p : Nat) : Fld := ⟨R.PL_RB_ERR p, 31, 0⟩
/-- Address of `PL_LANE_STAT` (08_panel_link.md). -/
abbrev R.PL_LANE_STAT (p : Nat) (n : Nat) : Nat := 0x00400040 + 0x1000 * p + 4 * n
abbrev F.PL_LANE_STAT_PRESENT (p : Nat) (n : Nat) : Fld := ⟨R.PL_LANE_STAT p n, 31, 31⟩
abbrev F.PL_LANE_STAT_FAILED (p : Nat) (n : Nat) : Fld := ⟨R.PL_LANE_STAT p n, 30, 30⟩
abbrev F.PL_LANE_STAT_SUSPECT (p : Nat) (n : Nat) : Fld := ⟨R.PL_LANE_STAT p n, 29, 29⟩
abbrev F.PL_LANE_STAT_CAUSE (p : Nat) (n : Nat) : Fld := ⟨R.PL_LANE_STAT p n, 28, 26⟩
abbrev F.PL_LANE_STAT_VACANT (p : Nat) (n : Nat) : Fld := ⟨R.PL_LANE_STAT p n, 25, 25⟩
abbrev F.PL_LANE_STAT_GROUP (p : Nat) (n : Nat) : Fld := ⟨R.PL_LANE_STAT p n, 24, 21⟩
abbrev F.PL_LANE_STAT_PIN (p : Nat) (n : Nat) : Fld := ⟨R.PL_LANE_STAT p n, 20, 16⟩
abbrev F.PL_LANE_STAT_FAILS (p : Nat) (n : Nat) : Fld := ⟨R.PL_LANE_STAT p n, 15, 8⟩
abbrev F.PL_LANE_STAT_RETRIES (p : Nat) (n : Nat) : Fld := ⟨R.PL_LANE_STAT p n, 7, 0⟩
/-- Address of `PL_BC_STAT` (08_panel_link.md). -/
abbrev R.PL_BC_STAT (p : Nat) (n : Nat) : Nat := 0x004000C0 + 0x1000 * p + 4 * n
abbrev F.PL_BC_STAT_VALID (p : Nat) (n : Nat) : Fld := ⟨R.PL_BC_STAT p n, 31, 31⟩
abbrev F.PL_BC_STAT_LK0 (p : Nat) (n : Nat) : Fld := ⟨R.PL_BC_STAT p n, 30, 30⟩
abbrev F.PL_BC_STAT_LK1 (p : Nat) (n : Nat) : Fld := ⟨R.PL_BC_STAT p n, 29, 29⟩
abbrev F.PL_BC_STAT_PHASE (p : Nat) (n : Nat) : Fld := ⟨R.PL_BC_STAT p n, 28, 26⟩
abbrev F.PL_BC_STAT_TEMP (p : Nat) (n : Nat) : Fld := ⟨R.PL_BC_STAT p n, 25, 16⟩
abbrev F.PL_BC_STAT_CRCERR (p : Nat) (n : Nat) : Fld := ⟨R.PL_BC_STAT p n, 15, 10⟩
abbrev F.PL_BC_STAT_LANE0 (p : Nat) (n : Nat) : Fld := ⟨R.PL_BC_STAT p n, 9, 5⟩
abbrev F.PL_BC_STAT_LANE1 (p : Nat) (n : Nat) : Fld := ⟨R.PL_BC_STAT p n, 4, 0⟩
/-- Address of `PWD_SEQ_CTL` (07_panel_drive_and_ledger.md). -/
abbrev R.PWD_SEQ_CTL : Nat := 0x00500000
abbrev F.PWD_SEQ_CTL_UP : Fld := ⟨R.PWD_SEQ_CTL, 31, 31⟩
abbrev F.PWD_SEQ_CTL_DOWN : Fld := ⟨R.PWD_SEQ_CTL, 30, 30⟩
/-- Address of `PWD_SEQ_STAT` (07_panel_drive_and_ledger.md). -/
abbrev R.PWD_SEQ_STAT : Nat := 0x00500004
abbrev F.PWD_SEQ_STAT_STATE : Fld := ⟨R.PWD_SEQ_STAT, 31, 30⟩
abbrev F.PWD_SEQ_STAT_SAFE : Fld := ⟨R.PWD_SEQ_STAT, 29, 29⟩
abbrev F.PWD_SEQ_STAT_FAULT : Fld := ⟨R.PWD_SEQ_STAT, 28, 28⟩
abbrev F.PWD_SEQ_STAT_PG : Fld := ⟨R.PWD_SEQ_STAT, 11, 8⟩
abbrev F.PWD_SEQ_STAT_EXT_PG : Fld := ⟨R.PWD_SEQ_STAT, 5, 5⟩
abbrev F.PWD_SEQ_STAT_EXT_EN : Fld := ⟨R.PWD_SEQ_STAT, 4, 4⟩
/-- Address of `PWD_SEQ_CFG` (07_panel_drive_and_ledger.md). -/
abbrev R.PWD_SEQ_CFG : Nat := 0x00500008
abbrev F.PWD_SEQ_CFG_DIS_TO : Fld := ⟨R.PWD_SEQ_CFG, 31, 24⟩
abbrev F.PWD_SEQ_CFG_EXT_TO : Fld := ⟨R.PWD_SEQ_CFG, 23, 16⟩
abbrev F.PWD_SEQ_CFG_PG_TO : Fld := ⟨R.PWD_SEQ_CFG, 15, 8⟩
abbrev F.PWD_SEQ_CFG_STEP : Fld := ⟨R.PWD_SEQ_CFG, 7, 0⟩
/-- Address of `PWD_FAULT` (07_panel_drive_and_ledger.md). -/
abbrev R.PWD_FAULT : Nat := 0x0050000C
abbrev F.PWD_FAULT_DISCH_TO : Fld := ⟨R.PWD_FAULT, 23, 20⟩
abbrev F.PWD_FAULT_OT : Fld := ⟨R.PWD_FAULT, 16, 16⟩
abbrev F.PWD_FAULT_AON_LOSS : Fld := ⟨R.PWD_FAULT, 15, 15⟩
abbrev F.PWD_FAULT_VIN_UV : Fld := ⟨R.PWD_FAULT, 14, 14⟩
abbrev F.PWD_FAULT_EXT_LOST : Fld := ⟨R.PWD_FAULT, 13, 13⟩
abbrev F.PWD_FAULT_EXT_TO : Fld := ⟨R.PWD_FAULT, 12, 12⟩
abbrev F.PWD_FAULT_OC : Fld := ⟨R.PWD_FAULT, 11, 8⟩
abbrev F.PWD_FAULT_PGLOSS : Fld := ⟨R.PWD_FAULT, 7, 4⟩
abbrev F.PWD_FAULT_PGTO : Fld := ⟨R.PWD_FAULT, 3, 0⟩
/-- Address of `PWD_RAIL_CFG` (07_panel_drive_and_ledger.md). -/
abbrev R.PWD_RAIL_CFG (n : Nat) : Nat := 0x00500010 + 4 * n
abbrev F.PWD_RAIL_CFG_ILIM (n : Nat) : Fld := ⟨R.PWD_RAIL_CFG n, 13, 12⟩
abbrev F.PWD_RAIL_CFG_SLOPE (n : Nat) : Fld := ⟨R.PWD_RAIL_CFG n, 9, 8⟩
abbrev F.PWD_RAIL_CFG_VSET (n : Nat) : Fld := ⟨R.PWD_RAIL_CFG n, 7, 0⟩
/-- Address of `MEM_PAGE_CFG` (12_memory.md). -/
abbrev R.MEM_PAGE_CFG : Nat := 0x00600010
abbrev F.MEM_PAGE_CFG_IDLE : Fld := ⟨R.MEM_PAGE_CFG, 7, 0⟩
/-- Address of `MEM_REF_STAT` (12_memory.md). -/
abbrev R.MEM_REF_STAT : Nat := 0x00600020
abbrev F.MEM_REF_STAT_FORCED : Fld := ⟨R.MEM_REF_STAT, 31, 16⟩
abbrev F.MEM_REF_STAT_MAXOWED : Fld := ⟨R.MEM_REF_STAT, 11, 8⟩
abbrev F.MEM_REF_STAT_HOT : Fld := ⟨R.MEM_REF_STAT, 0, 0⟩
/-- Address of `MEM_ECC_CNT` (12_memory.md). -/
abbrev R.MEM_ECC_CNT : Nat := 0x00600030
abbrev F.MEM_ECC_CNT_CORR : Fld := ⟨R.MEM_ECC_CNT, 31, 16⟩
abbrev F.MEM_ECC_CNT_UNCORR : Fld := ⟨R.MEM_ECC_CNT, 15, 8⟩
abbrev F.MEM_ECC_CNT_RANGE : Fld := ⟨R.MEM_ECC_CNT, 7, 0⟩
/-- Address of `MEM_ECC_FIRST` (12_memory.md). -/
abbrev R.MEM_ECC_FIRST : Nat := 0x00600034
abbrev F.MEM_ECC_FIRST_VALID : Fld := ⟨R.MEM_ECC_FIRST, 31, 31⟩
abbrev F.MEM_ECC_FIRST_RANGE : Fld := ⟨R.MEM_ECC_FIRST, 30, 30⟩
abbrev F.MEM_ECC_FIRST_ADDR : Fld := ⟨R.MEM_ECC_FIRST, 29, 0⟩
/-- Address of `MEM_MAP_MASK` (12_memory.md). -/
abbrev R.MEM_MAP_MASK (n : Nat) : Nat := 0x00600100 + 4 * n
abbrev F.MEM_MAP_MASK_MASK (n : Nat) : Fld := ⟨R.MEM_MAP_MASK n, 27, 0⟩
/-- Address of `MEM_MAP_STAT` (12_memory.md). -/
abbrev R.MEM_MAP_STAT : Nat := 0x00600124
abbrev F.MEM_MAP_STAT_DONE : Fld := ⟨R.MEM_MAP_STAT, 31, 31⟩
abbrev F.MEM_MAP_STAT_OK : Fld := ⟨R.MEM_MAP_STAT, 30, 30⟩
/-- Address of `MEM_REGION` (12_memory.md). -/
abbrev R.MEM_REGION (n : Nat) : Nat := 0x00600200 + 4 * n
abbrev F.MEM_REGION_SIZE (n : Nat) : Fld := ⟨R.MEM_REGION n, 24, 16⟩
abbrev F.MEM_REGION_BASE (n : Nat) : Fld := ⟨R.MEM_REGION n, 8, 0⟩
/-- Address of `MEM_CLIENT_CFG` (12_memory.md). -/
abbrev R.MEM_CLIENT_CFG (n : Nat) : Nat := 0x00600300 + 4 * n
abbrev F.MEM_CLIENT_CFG_RT (n : Nat) : Fld := ⟨R.MEM_CLIENT_CFG n, 31, 31⟩
abbrev F.MEM_CLIENT_CFG_SHARE (n : Nat) : Fld := ⟨R.MEM_CLIENT_CFG n, 23, 16⟩
abbrev F.MEM_CLIENT_CFG_PANIC (n : Nat) : Fld := ⟨R.MEM_CLIENT_CFG n, 15, 0⟩
/-- Address of `MEM_CLIENT_STAT` (12_memory.md). -/
abbrev R.MEM_CLIENT_STAT (n : Nat) : Nat := 0x00600340 + 4 * n
abbrev F.MEM_CLIENT_STAT_PANICS (n : Nat) : Fld := ⟨R.MEM_CLIENT_STAT n, 31, 16⟩
abbrev F.MEM_CLIENT_STAT_WORST (n : Nat) : Fld := ⟨R.MEM_CLIENT_STAT n, 15, 0⟩
/-- Address of `MPHY_TRAIN_CTL` (12_memory.md). -/
abbrev R.MPHY_TRAIN_CTL : Nat := 0x00610000
abbrev F.MPHY_TRAIN_CTL_GO : Fld := ⟨R.MPHY_TRAIN_CTL, 31, 31⟩
/-- Address of `MPHY_TRAIN_STAT` (12_memory.md). -/
abbrev R.MPHY_TRAIN_STAT : Nat := 0x00610004
abbrev F.MPHY_TRAIN_STAT_STATE : Fld := ⟨R.MPHY_TRAIN_STAT, 31, 30⟩
abbrev F.MPHY_TRAIN_STAT_FAIL : Fld := ⟨R.MPHY_TRAIN_STAT, 29, 29⟩
abbrev F.MPHY_TRAIN_STAT_FAILPC : Fld := ⟨R.MPHY_TRAIN_STAT, 28, 24⟩
abbrev F.MPHY_TRAIN_STAT_TRAINS : Fld := ⟨R.MPHY_TRAIN_STAT, 23, 16⟩
abbrev F.MPHY_TRAIN_STAT_TAPSTEPS : Fld := ⟨R.MPHY_TRAIN_STAT, 15, 0⟩

/-- Registers of CHIP: CHIP_ID, CHIP_STEPPING, CHIP_WRITE_REFUSED, CHIP_RT_LATE, CHIP_PASS_CAP. -/
def regsChip : List RegDesc := [
  { base := 0x00000000, wins := 1, winStride := 0x0, count := 1, stride := 4,
    fields := [⟨31, 0, .ro, 0x82007EF0⟩],
    resets := [] },
  { base := 0x00000004, wins := 1, winStride := 0x0, count := 1, stride := 4,
    fields := [⟨8, 8, .ro, 0⟩, ⟨7, 4, .ro, 0x2⟩, ⟨3, 0, .ro, 0⟩],
    resets := [] },
  { base := 0x00000020, wins := 1, winStride := 0x0, count := 1, stride := 4,
    fields := [⟨31, 0, .rc, 0⟩],
    resets := [] },
  { base := 0x00000030, wins := 1, winStride := 0x0, count := 1, stride := 4,
    fields := [⟨31, 24, .rc, 0⟩, ⟨23, 16, .rc, 0⟩, ⟨15, 8, .rc, 0⟩, ⟨7, 0, .rc, 0⟩],
    resets := [] },
  { base := 0x00000034, wins := 1, winStride := 0x0, count := 1, stride := 4,
    fields := [⟨31, 0, .rc, 0⟩],
    resets := [] }]

/-- Registers of CLK: CLK_STAT, CLK_TIME_CFG, CLK_XING_STAT. -/
def regsClk : List RegDesc := [
  { base := 0x00010000, wins := 1, winStride := 0x0, count := 1, stride := 4,
    fields := [⟨31, 31, .ro, 0⟩, ⟨30, 30, .ro, 0⟩, ⟨29, 29, .ro, 0⟩, ⟨28, 28, .ro, 0⟩, ⟨27, 27, .ro, 0⟩, ⟨26, 26, .ro, 0⟩, ⟨25, 25, .ro, 0⟩, ⟨24, 24, .ro, 0⟩, ⟨23, 23, .ro, 0⟩, ⟨7, 0, .rc, 0⟩],
    resets := [] },
  { base := 0x00010010, wins := 1, winStride := 0x0, count := 1, stride := 4,
    fields := [⟨25, 16, .rwl, 0x20⟩, ⟨5, 0, .rwl, 0xF⟩],
    resets := [] },
  { base := 0x00010020, wins := 1, winStride := 0x0, count := 1, stride := 4,
    fields := [⟨31, 16, .rc, 0⟩, ⟨7, 0, .w1c, 0⟩],
    resets := [] }]

/-- Registers of PWR: PWR_STATE_REQ, PWR_STATE_STAT, PWR_WAKE_CFG, PWR_WAKE_TIMER, PWR_RESET_CTL, PWR_RESET_STAT, PWR_AVS_CFG, PWR_AVS_LIM,
PWR_AVS_STAT. -/
def regsPwr : List RegDesc := [
  { base := 0x00020000, wins := 1, winStride := 0x0, count := 1, stride := 4,
    fields := [⟨31, 31, .wo, 0⟩, ⟨1, 0, .rw, 0⟩],
    resets := [] },
  { base := 0x00020004, wins := 1, winStride := 0x0, count := 1, stride := 4,
    fields := [⟨31, 29, .ro, 0x1⟩, ⟨28, 28, .ro, 0x1⟩, ⟨27, 26, .ro, 0⟩, ⟨25, 24, .ro, 0⟩, ⟨23, 20, .ro, 0⟩, ⟨7, 0, .rc, 0⟩],
    resets := [] },
  { base := 0x00020008, wins := 1, winStride := 0x0, count := 1, stride := 4,
    fields := [⟨12, 12, .rw, 0x1⟩, ⟨8, 8, .rw, 0⟩, ⟨4, 4, .rw, 0⟩, ⟨3, 3, .rw, 0⟩, ⟨2, 2, .rw, 0x1⟩, ⟨1, 1, .rw, 0x1⟩, ⟨0, 0, .rw, 0x1⟩],
    resets := [] },
  { base := 0x0002000C, wins := 1, winStride := 0x0, count := 1, stride := 4,
    fields := [⟨23, 0, .rw, 0⟩],
    resets := [] },
  { base := 0x00020010, wins := 1, winStride := 0x0, count := 1, stride := 4,
    fields := [⟨31, 31, .wo, 0⟩, ⟨5, 0, .wo, 0⟩],
    resets := [] },
  { base := 0x00020014, wins := 1, winStride := 0x0, count := 1, stride := 4,
    fields := [⟨31, 28, .ro, 0⟩, ⟨23, 16, .ro, 0⟩],
    resets := [] },
  { base := 0x00020020, wins := 1, winStride := 0x0, count := 1, stride := 4,
    fields := [⟨31, 31, .rw, 0x1⟩, ⟨22, 16, .rw, 0x40⟩, ⟨13, 8, .rw, 0x8⟩, ⟨5, 0, .rw, 0x10⟩],
    resets := [] },
  { base := 0x00020024, wins := 1, winStride := 0x0, count := 1, stride := 4,
    fields := [⟨25, 16, .rw, 0x352⟩, ⟨9, 0, .rw, 0x28A⟩],
    resets := [] },
  { base := 0x00020028, wins := 1, winStride := 0x0, count := 1, stride := 4,
    fields := [⟨31, 31, .ro, 0⟩, ⟨30, 30, .ro, 0⟩, ⟨29, 24, .ro, 0⟩, ⟨9, 0, .ro, 0x2EE⟩],
    resets := [] }]

/-- Registers of CAL: CAL_TJ, CAL_THERM_CFG, CAL_THERM_STAT, CAL_CTL, CAL_CFG, CAL_STAT, CAL_DIE_TEMP, CAL_NTC, CAL_ZONE_TEMP, CAL_TXEQ_SET.
-/
def regsCal : List RegDesc := [
  { base := 0x00030000, wins := 1, winStride := 0x0, count := 1, stride := 4,
    fields := [⟨31, 16, .ro, 0⟩, ⟨15, 0, .ro, 0⟩],
    resets := [] },
  { base := 0x00030004, wins := 1, winStride := 0x0, count := 1, stride := 4,
    fields := [⟨19, 16, .rw, 0x2⟩, ⟨15, 0, .rw, 0⟩],
    resets := [0x000205A0] },
  { base := 0x00030008, wins := 1, winStride := 0x0, count := 1, stride := 4,
    fields := [⟨31, 29, .ro, 0⟩, ⟨28, 28, .ro, 0⟩, ⟨15, 0, .rc, 0⟩],
    resets := [] },
  { base := 0x00030010, wins := 1, winStride := 0x0, count := 1, stride := 4,
    fields := [⟨31, 31, .wo, 0⟩, ⟨0, 0, .rw, 0x1⟩],
    resets := [] },
  { base := 0x00030014, wins := 1, winStride := 0x0, count := 1, stride := 4,
    fields := [⟨24, 16, .rw, 0x40⟩, ⟨15, 0, .rw, 0x1E0⟩],
    resets := [] },
  { base := 0x00030018, wins := 1, winStride := 0x0, count := 1, stride := 4,
    fields := [⟨31, 31, .ro, 0⟩, ⟨30, 30, .ro, 0⟩, ⟨29, 29, .ro, 0⟩, ⟨23, 16, .rc, 0⟩, ⟨15, 0, .ro, 0⟩],
    resets := [] },
  { base := 0x00030040, wins := 1, winStride := 0x0, count := 16, stride := 4,
    fields := [⟨15, 0, .ro, 0⟩],
    resets := [] },
  { base := 0x00030080, wins := 1, winStride := 0x0, count := 2, stride := 4,
    fields := [⟨31, 31, .ro, 0⟩, ⟨15, 0, .ro, 0⟩],
    resets := [] },
  { base := 0x00030200, wins := 1, winStride := 0x0, count := 128, stride := 4,
    fields := [⟨31, 30, .ro, 0x3⟩, ⟨15, 0, .ro, 0⟩],
    resets := [] },
  { base := 0x00030400, wins := 1, winStride := 0x0, count := 80, stride := 4,
    fields := [⟨11, 8, .rw, 0x4⟩, ⟨3, 0, .rw, 0x2⟩],
    resets := [] }]

/-- Registers of MBX: MBX_HOST_CTL, MBX_HEATH_STAT, MBX_I2C_STAT, MBX_BOX_STAT, MBX_IN_DATA, MBX_OUT_DATA. -/
def regsMbx : List RegDesc := [
  { base := 0x00040000, wins := 1, winStride := 0x0, count := 1, stride := 4,
    fields := [⟨31, 31, .wo, 0⟩, ⟨30, 30, .wo, 0⟩, ⟨29, 29, .wo, 0⟩],
    resets := [] },
  { base := 0x00040004, wins := 1, winStride := 0x0, count := 1, stride := 4,
    fields := [⟨31, 16, .ro, 0⟩, ⟨15, 14, .ro, 0⟩, ⟨7, 4, .rc, 0⟩, ⟨3, 0, .rc, 0⟩],
    resets := [] },
  { base := 0x00040008, wins := 1, winStride := 0x0, count := 1, stride := 4,
    fields := [⟨31, 24, .rc, 0⟩, ⟨23, 16, .rc, 0⟩, ⟨15, 8, .rc, 0⟩, ⟨7, 0, .rc, 0⟩],
    resets := [] },
  { base := 0x00040010, wins := 1, winStride := 0x0, count := 8, stride := 4,
    fields := [⟨31, 31, .ro, 0⟩, ⟨30, 30, .w1c, 0⟩, ⟨29, 29, .ro, 0⟩, ⟨28, 26, .ro, 0⟩, ⟨15, 8, .rc, 0⟩, ⟨7, 0, .rc, 0⟩],
    resets := [] },
  { base := 0x00041000, wins := 1, winStride := 0x0, count := 254, stride := 4,
    fields := [⟨31, 0, .rw, 0⟩],
    resets := [] },
  { base := 0x00041400, wins := 1, winStride := 0x0, count := 254, stride := 4,
    fields := [⟨31, 0, .ro, 0⟩],
    resets := [] }]

/-- Registers of EVT: EVT_PEND, EVT_OVF, EVT_MASK_PIN, EVT_MASK_SES, EVT_MASK_CAS, EVT_MASK_HEATH, EVT_COUNT. -/
def regsEvt : List RegDesc := [
  { base := 0x00050000, wins := 1, winStride := 0x0, count := 2, stride := 4,
    fields := [⟨31, 0, .w1c, 0⟩],
    resets := [] },
  { base := 0x00050008, wins := 1, winStride := 0x0, count := 2, stride := 4,
    fields := [⟨31, 0, .w1c, 0⟩],
    resets := [] },
  { base := 0x00050010, wins := 1, winStride := 0x0, count := 2, stride := 4,
    fields := [⟨31, 0, .rw, 0⟩],
    resets := [] },
  { base := 0x00050018, wins := 1, winStride := 0x0, count := 2, stride := 4,
    fields := [⟨31, 0, .rw, 0⟩],
    resets := [] },
  { base := 0x00050020, wins := 1, winStride := 0x0, count := 2, stride := 4,
    fields := [⟨31, 0, .rw, 0⟩],
    resets := [] },
  { base := 0x00050028, wins := 1, winStride := 0x0, count := 2, stride := 4,
    fields := [⟨31, 0, .rw, 0⟩],
    resets := [] },
  { base := 0x00050100, wins := 1, winStride := 0x0, count := 64, stride := 4,
    fields := [⟨7, 0, .rc, 0⟩],
    resets := [] }]

/-- Registers of JOB: JOB_STAT, JOB_RING_BASE, JOB_RING_CFG, JOB_RING_TAIL, JOB_RING_HEAD. -/
def regsJob : List RegDesc := [
  { base := 0x00060000, wins := 1, winStride := 0x0, count := 1, stride := 4,
    fields := [⟨10, 8, .ro, 0⟩, ⟨7, 0, .ro, 0⟩],
    resets := [] },
  { base := 0x00060100, wins := 1, winStride := 0x0, count := 8, stride := 16,
    fields := [⟨28, 0, .rwl, 0⟩],
    resets := [] },
  { base := 0x00060104, wins := 1, winStride := 0x0, count := 8, stride := 16,
    fields := [⟨31, 31, .rw, 0⟩, ⟨30, 30, .rw, 0⟩, ⟨27, 24, .rwl, 0x4⟩, ⟨15, 8, .rc, 0⟩, ⟨7, 0, .rc, 0⟩],
    resets := [] },
  { base := 0x00060108, wins := 1, winStride := 0x0, count := 8, stride := 16,
    fields := [⟨15, 0, .rw, 0⟩],
    resets := [] },
  { base := 0x0006010C, wins := 1, winStride := 0x0, count := 8, stride := 16,
    fields := [⟨15, 0, .ro, 0⟩],
    resets := [] }]

/-- Registers of NVM: NVM_BOOT_STAT, NVM_IMAGE_VER, NVM_BOOT_MS, NVM_MEDIA_STAT. -/
def regsNvm : List RegDesc := [
  { base := 0x00070000, wins := 1, winStride := 0x0, count := 1, stride := 4,
    fields := [⟨31, 28, .ro, 0⟩, ⟨27, 27, .ro, 0⟩, ⟨26, 26, .ro, 0⟩, ⟨23, 20, .ro, 0⟩, ⟨19, 16, .ro, 0⟩, ⟨15, 12, .ro, 0⟩, ⟨11, 8, .ro, 0⟩],
    resets := [] },
  { base := 0x00070004, wins := 1, winStride := 0x0, count := 1, stride := 4,
    fields := [⟨31, 0, .ro, 0⟩],
    resets := [] },
  { base := 0x00070008, wins := 1, winStride := 0x0, count := 1, stride := 4,
    fields := [⟨31, 16, .ro, 0⟩, ⟨15, 0, .ro, 0⟩],
    resets := [] },
  { base := 0x0007000C, wins := 1, winStride := 0x0, count := 1, stride := 4,
    fields := [⟨31, 30, .ro, 0⟩, ⟨29, 29, .ro, 0⟩, ⟨28, 27, .ro, 0⟩, ⟨15, 8, .rc, 0⟩, ⟨7, 0, .rc, 0⟩],
    resets := [] }]

/-- Registers of SEC: SEC_SERIAL_LO, SEC_SERIAL_HI, SEC_UNIT_ID, SEC_ROLLBACK, SEC_ROOT_STAT, SEC_DEBUG_STAT. -/
def regsSec : List RegDesc := [
  { base := 0x00080000, wins := 1, winStride := 0x0, count := 1, stride := 4,
    fields := [⟨31, 0, .ro, 0⟩],
    resets := [] },
  { base := 0x00080004, wins := 1, winStride := 0x0, count := 1, stride := 4,
    fields := [⟨31, 0, .ro, 0⟩],
    resets := [] },
  { base := 0x00080008, wins := 1, winStride := 0x0, count := 1, stride := 4,
    fields := [⟨31, 0, .ro, 0⟩],
    resets := [] },
  { base := 0x00080010, wins := 1, winStride := 0x0, count := 1, stride := 4,
    fields := [⟨14, 8, .ro, 0⟩, ⟨6, 0, .ro, 0⟩],
    resets := [] },
  { base := 0x00080014, wins := 1, winStride := 0x0, count := 1, stride := 4,
    fields := [⟨9, 8, .ro, 0⟩, ⟨6, 4, .ro, 0⟩, ⟨2, 0, .ro, 0⟩],
    resets := [] },
  { base := 0x00080018, wins := 1, winStride := 0x0, count := 1, stride := 4,
    fields := [⟨1, 1, .ro, 0⟩, ⟨0, 0, .ro, 0⟩],
    resets := [] }]

/-- Registers of ING: ING_CTL, ING_STAT, ING_RX_NEXT, ING_TX_NEXT, ING_TX_UNACK, ING_BUF_STAT, ING_TIMER_CFG, ING_DROP_CNT, ING_NAK_CNT,
ING_RETX_CNT, ING_LANE_STAT, ING_CREDIT_CFG, ING_CTX_STAT. -/
def regsIng : List RegDesc := [
  { base := 0x00100000, wins := 2, winStride := 0x10000, count := 1, stride := 4,
    fields := [⟨31, 31, .rw, 0⟩, ⟨30, 30, .wo, 0⟩],
    resets := [] },
  { base := 0x00100004, wins := 2, winStride := 0x10000, count := 1, stride := 4,
    fields := [⟨31, 30, .ro, 0⟩, ⟨29, 29, .ro, 0⟩, ⟨23, 16, .ro, 0⟩, ⟨15, 8, .ro, 0⟩, ⟨7, 0, .ro, 0⟩],
    resets := [] },
  { base := 0x00100008, wins := 2, winStride := 0x10000, count := 1, stride := 4,
    fields := [⟨31, 0, .ro, 0⟩],
    resets := [] },
  { base := 0x0010000C, wins := 2, winStride := 0x10000, count := 1, stride := 4,
    fields := [⟨31, 0, .ro, 0⟩],
    resets := [] },
  { base := 0x00100010, wins := 2, winStride := 0x10000, count := 1, stride := 4,
    fields := [⟨8, 0, .ro, 0⟩],
    resets := [] },
  { base := 0x00100014, wins := 2, winStride := 0x10000, count := 1, stride := 4,
    fields := [⟨8, 0, .ro, 0⟩],
    resets := [] },
  { base := 0x00100020, wins := 2, winStride := 0x10000, count := 1, stride := 4,
    fields := [⟨31, 24, .rw, 0x8⟩, ⟨23, 16, .rw, 0x19⟩, ⟨15, 0, .rw, 0x190⟩],
    resets := [] },
  { base := 0x00100030, wins := 2, winStride := 0x10000, count := 1, stride := 4,
    fields := [⟨31, 24, .rc, 0⟩, ⟨23, 16, .rc, 0⟩, ⟨15, 8, .rc, 0⟩, ⟨7, 0, .rc, 0⟩],
    resets := [] },
  { base := 0x00100034, wins := 2, winStride := 0x10000, count := 1, stride := 4,
    fields := [⟨31, 24, .rc, 0⟩, ⟨23, 16, .rc, 0⟩, ⟨15, 8, .rc, 0⟩, ⟨7, 0, .rc, 0⟩],
    resets := [] },
  { base := 0x00100038, wins := 2, winStride := 0x10000, count := 1, stride := 4,
    fields := [⟨31, 16, .rc, 0⟩, ⟨15, 0, .rc, 0⟩],
    resets := [] },
  { base := 0x00100040, wins := 2, winStride := 0x10000, count := 8, stride := 4,
    fields := [⟨31, 31, .ro, 0⟩, ⟨30, 30, .ro, 0⟩, ⟨29, 27, .ro, 0⟩, ⟨23, 16, .ro, 0⟩, ⟨15, 0, .rc, 0⟩],
    resets := [] },
  { base := 0x00100100, wins := 1, winStride := 0x0, count := 1, stride := 4,
    fields := [⟨7, 0, .rw, 0x10⟩],
    resets := [] },
  { base := 0x00100104, wins := 1, winStride := 0x0, count := 1, stride := 4,
    fields := [⟨12, 0, .ro, 0x1000⟩],
    resets := [] }]

/-- Registers of SES: SES_CTL, SES_STAT, SES_SID, SES_ATT_STAT, SES_PEER_ID, SES_TIMER_CFG, SES_KEY_CFG, SES_ERR_CNT, SES_EVT_LOST. -/
def regsSes : List RegDesc := [
  { base := 0x00120000, wins := 1, winStride := 0x0, count := 1, stride := 4,
    fields := [⟨31, 31, .wo, 0⟩, ⟨30, 30, .wo, 0⟩, ⟨2, 2, .rw, 0⟩, ⟨1, 1, .rw, 0x1⟩, ⟨0, 0, .rw, 0⟩],
    resets := [] },
  { base := 0x00120004, wins := 1, winStride := 0x0, count := 1, stride := 4,
    fields := [⟨31, 31, .ro, 0⟩, ⟨30, 30, .ro, 0⟩, ⟨29, 29, .ro, 0⟩, ⟨27, 26, .ro, 0⟩, ⟨25, 24, .ro, 0⟩, ⟨23, 16, .ro, 0⟩],
    resets := [] },
  { base := 0x00120008, wins := 1, winStride := 0x0, count := 1, stride := 4,
    fields := [⟨31, 0, .ro, 0⟩],
    resets := [] },
  { base := 0x00120010, wins := 1, winStride := 0x0, count := 2, stride := 4,
    fields := [⟨31, 28, .ro, 0⟩, ⟨27, 26, .ro, 0⟩, ⟨25, 24, .ro, 0⟩, ⟨23, 22, .ro, 0⟩, ⟨21, 21, .ro, 0⟩, ⟨20, 20, .ro, 0⟩, ⟨19, 19, .ro, 0⟩, ⟨14, 12, .ro, 0⟩, ⟨7, 0, .ro, 0⟩],
    resets := [] },
  { base := 0x00120018, wins := 1, winStride := 0x0, count := 2, stride := 4,
    fields := [⟨31, 0, .ro, 0⟩],
    resets := [] },
  { base := 0x00120020, wins := 1, winStride := 0x0, count := 1, stride := 4,
    fields := [⟨31, 24, .rw, 0x8⟩, ⟨23, 20, .rw, 0x4⟩, ⟨19, 12, .rw, 0x32⟩, ⟨11, 0, .rw, 0xC8⟩],
    resets := [] },
  { base := 0x00120024, wins := 1, winStride := 0x0, count := 1, stride := 4,
    fields := [⟨31, 16, .rw, 0x64⟩, ⟨15, 0, .rw, 0xE10⟩],
    resets := [] },
  { base := 0x00120030, wins := 1, winStride := 0x0, count := 1, stride := 4,
    fields := [⟨31, 24, .rc, 0⟩, ⟨23, 16, .rc, 0⟩, ⟨15, 8, .rc, 0⟩, ⟨7, 0, .rc, 0⟩],
    resets := [] },
  { base := 0x00120034, wins := 1, winStride := 0x0, count := 1, stride := 4,
    fields := [⟨31, 0, .rc, 0⟩],
    resets := [] }]

/-- Registers of CAS: CAS_CTL, CAS_STAT, CAS_NUM, CAS_SYNC_CFG, CAS_BC_CFG, CAS_BC_STAT, CAS_PAIR_CFG, CAS_PAIR_STAT, CAS_DELAY,
CAS_PHASE_ERR, CAS_TIME_LO, CAS_TIME_HI, CAS_TIME_SET_LO, CAS_TIME_SET_HI. -/
def regsCas : List RegDesc := [
  { base := 0x00140000, wins := 1, winStride := 0x0, count := 1, stride := 4,
    fields := [⟨31, 31, .wo, 0⟩, ⟨30, 30, .rw, 0⟩, ⟨29, 29, .rwl, 0⟩, ⟨28, 28, .rw, 0⟩, ⟨3, 0, .rwl, 0xF⟩],
    resets := [] },
  { base := 0x00140004, wins := 1, winStride := 0x0, count := 1, stride := 4,
    fields := [⟨31, 31, .ro, 0⟩, ⟨30, 28, .ro, 0⟩, ⟨27, 27, .ro, 0⟩, ⟨26, 26, .ro, 0⟩, ⟨25, 25, .ro, 0⟩, ⟨23, 20, .ro, 0⟩, ⟨18, 0, .ro, 0⟩],
    resets := [] },
  { base := 0x00140008, wins := 1, winStride := 0x0, count := 1, stride := 4,
    fields := [⟨31, 31, .ro, 0⟩, ⟨17, 0, .ro, 0⟩],
    resets := [] },
  { base := 0x0014000C, wins := 1, winStride := 0x0, count := 1, stride := 4,
    fields := [⟨23, 16, .rw, 0x10⟩, ⟨15, 0, .rw, 0x14⟩],
    resets := [] },
  { base := 0x00140010, wins := 1, winStride := 0x0, count := 1, stride := 4,
    fields := [⟨31, 24, .rw, 0x3C⟩, ⟨15, 0, .rw, 0x3E8⟩],
    resets := [] },
  { base := 0x00140014, wins := 1, winStride := 0x0, count := 1, stride := 4,
    fields := [⟨31, 16, .ro, 0⟩, ⟨15, 8, .rc, 0⟩, ⟨7, 0, .rc, 0⟩],
    resets := [] },
  { base := 0x00140018, wins := 1, winStride := 0x0, count := 1, stride := 4,
    fields := [⟨31, 30, .rwl, 0⟩, ⟨29, 29, .rwl, 0⟩, ⟨1, 0, .rwl, 0⟩],
    resets := [] },
  { base := 0x0014001C, wins := 1, winStride := 0x0, count := 1, stride := 4,
    fields := [⟨31, 31, .ro, 0⟩, ⟨30, 28, .ro, 0⟩, ⟨15, 0, .ro, 0⟩],
    resets := [] },
  { base := 0x00140020, wins := 1, winStride := 0x0, count := 1, stride := 4,
    fields := [⟨31, 31, .ro, 0⟩, ⟨19, 0, .ro, 0⟩],
    resets := [] },
  { base := 0x00140024, wins := 1, winStride := 0x0, count := 1, stride := 4,
    fields := [⟨31, 0, .ro, 0⟩],
    resets := [] },
  { base := 0x00140028, wins := 1, winStride := 0x0, count := 1, stride := 4,
    fields := [⟨31, 0, .ro, 0⟩],
    resets := [] },
  { base := 0x0014002C, wins := 1, winStride := 0x0, count := 1, stride := 4,
    fields := [⟨31, 0, .ro, 0⟩],
    resets := [] },
  { base := 0x00140030, wins := 1, winStride := 0x0, count := 1, stride := 4,
    fields := [⟨31, 0, .rw, 0⟩],
    resets := [] },
  { base := 0x00140034, wins := 1, winStride := 0x0, count := 1, stride := 4,
    fields := [⟨31, 0, .rw, 0⟩],
    resets := [] }]

/-- Registers of CAS: CAS_PORT_STAT, CAS_PORT_SIZE, CAS_BOVL_CFG, CAS_BOVL_MAP, CAS_BOVL_STAT, CAS_EVT_FIFO0, CAS_EVT_FIFO1, CAS_EVT_FIFO2,
CAS_EVT_LOST. -/
def regsCas2 : List RegDesc := [
  { base := 0x00140040, wins := 1, winStride := 0x0, count := 5, stride := 4,
    fields := [⟨31, 30, .ro, 0⟩, ⟨29, 29, .ro, 0⟩, ⟨28, 28, .ro, 0⟩, ⟨27, 24, .ro, 0⟩, ⟨23, 16, .ro, 0⟩, ⟨15, 0, .ro, 0⟩],
    resets := [] },
  { base := 0x00140060, wins := 1, winStride := 0x0, count := 4, stride := 4,
    fields := [⟨18, 0, .ro, 0⟩],
    resets := [] },
  { base := 0x00140080, wins := 1, winStride := 0x0, count := 8, stride := 4,
    fields := [⟨31, 31, .rwl, 0⟩, ⟨29, 16, .rwl, 0⟩, ⟨12, 0, .rwl, 0⟩],
    resets := [] },
  { base := 0x001400A0, wins := 1, winStride := 0x0, count := 1, stride := 4,
    fields := [⟨31, 0, .rwl, 0⟩],
    resets := [] },
  { base := 0x001400C0, wins := 1, winStride := 0x0, count := 8, stride := 4,
    fields := [⟨31, 31, .ro, 0⟩, ⟨30, 30, .ro, 0⟩, ⟨29, 29, .ro, 0⟩, ⟨28, 16, .ro, 0⟩, ⟨15, 0, .ro, 0⟩],
    resets := [] },
  { base := 0x001400E0, wins := 1, winStride := 0x0, count := 1, stride := 4,
    fields := [⟨31, 0, .ro, 0⟩],
    resets := [] },
  { base := 0x001400E4, wins := 1, winStride := 0x0, count := 1, stride := 4,
    fields := [⟨31, 0, .ro, 0⟩],
    resets := [] },
  { base := 0x001400E8, wins := 1, winStride := 0x0, count := 1, stride := 4,
    fields := [⟨31, 0, .ro, 0⟩],
    resets := [] },
  { base := 0x001400EC, wins := 1, winStride := 0x0, count := 1, stride := 4,
    fields := [⟨31, 0, .rc, 0⟩],
    resets := [] }]

/-- Registers of SWD: SWD_SLOT_CFG, SWD_SLOT_STAT, SWD_SLOT_USED, SWD_WIN_SEL, SWD_DIR_USED, SWD_BLK_REFUSED, SWD_BLK_STAT, SWD_ECC_CNT. -/
def regsSwd : List RegDesc := [
  { base := 0x00200000, wins := 1, winStride := 0x0, count := 1, stride := 4,
    fields := [⟨29, 20, .rwl, 0⟩, ⟨19, 10, .rwl, 0x90⟩, ⟨9, 0, .rwl, 0x90⟩],
    resets := [] },
  { base := 0x00200010, wins := 1, winStride := 0x0, count := 3, stride := 4,
    fields := [⟨31, 30, .ro, 0⟩, ⟨29, 29, .ro, 0⟩, ⟨28, 28, .ro, 0⟩, ⟨15, 0, .ro, 0⟩],
    resets := [] },
  { base := 0x00200020, wins := 1, winStride := 0x0, count := 3, stride := 4,
    fields := [⟨24, 0, .ro, 0⟩],
    resets := [] },
  { base := 0x00200040, wins := 1, winStride := 0x0, count := 1, stride := 4,
    fields := [⟨1, 0, .rw, 0⟩],
    resets := [] },
  { base := 0x00200044, wins := 1, winStride := 0x0, count := 3, stride := 4,
    fields := [⟨17, 0, .ro, 0⟩],
    resets := [] },
  { base := 0x00200050, wins := 1, winStride := 0x0, count := 1, stride := 4,
    fields := [⟨31, 24, .rc, 0⟩, ⟨23, 16, .rc, 0⟩, ⟨15, 8, .rc, 0⟩, ⟨7, 0, .rc, 0⟩],
    resets := [] },
  { base := 0x00200054, wins := 1, winStride := 0x0, count := 1, stride := 4,
    fields := [⟨31, 16, .rc, 0⟩, ⟨15, 0, .rc, 0⟩],
    resets := [] },
  { base := 0x00200060, wins := 1, winStride := 0x0, count := 1, stride := 4,
    fields := [⟨31, 16, .rc, 0⟩, ⟨15, 8, .rc, 0⟩],
    resets := [] }]

/-- Registers of DEC: DEC_CTAB_PRESENT, DEC_ERR_COUNT, DEC_ERR_FIRST, DEC_ERR_FIRST_TAG, DEC_ERR_FIRST_TURN, DEC_LATE. -/
def regsDec : List RegDesc := [
  { base := 0x00220010, wins := 1, winStride := 0x0, count := 1, stride := 4,
    fields := [⟨31, 16, .ro, 0⟩, ⟨15, 0, .ro, 0xFFFF⟩],
    resets := [] },
  { base := 0x00220020, wins := 1, winStride := 0x0, count := 1, stride := 4,
    fields := [⟨31, 24, .rc, 0⟩, ⟨23, 16, .rc, 0⟩, ⟨15, 8, .rc, 0⟩],
    resets := [] },
  { base := 0x00220024, wins := 1, winStride := 0x0, count := 1, stride := 4,
    fields := [⟨31, 31, .w1c, 0⟩, ⟨30, 29, .ro, 0⟩, ⟨28, 27, .ro, 0⟩, ⟨26, 21, .ro, 0⟩, ⟨20, 13, .ro, 0⟩, ⟨12, 9, .ro, 0⟩],
    resets := [] },
  { base := 0x00220028, wins := 1, winStride := 0x0, count := 1, stride := 4,
    fields := [⟨31, 0, .ro, 0⟩],
    resets := [] },
  { base := 0x0022002C, wins := 1, winStride := 0x0, count := 1, stride := 4,
    fields := [⟨31, 0, .ro, 0⟩],
    resets := [] },
  { base := 0x00220030, wins := 1, winStride := 0x0, count := 1, stride := 4,
    fields := [⟨31, 0, .rc, 0⟩],
    resets := [] }]

/-- Registers of SYN: SYN_CTL, SYN_LEAD_CFG, SYN_TERM_CFG, SYN_BG_COLOUR, SYN_POOL_CFG, SYN_POOL_STAT, SYN_POOL_REFUSED, SYN_CLAMP_COUNT,
SYN_COEF_CTL, SYN_PASS_HIST, SYN_PEFF_MAX, SYN_GEOM_CFG, SYN_GEOM_GRID, SYN_GEOM_ORIGIN. -/
def regsSyn : List RegDesc := [
  { base := 0x00300000, wins := 1, winStride := 0x0, count := 1, stride := 4,
    fields := [⟨31, 31, .wo, 0⟩, ⟨30, 30, .wo, 0⟩, ⟨2, 2, .ro, 0⟩, ⟨1, 1, .ro, 0⟩, ⟨0, 0, .ro, 0⟩],
    resets := [] },
  { base := 0x00300004, wins := 1, winStride := 0x0, count := 1, stride := 4,
    fields := [⟨5, 0, .rwl, 0x20⟩],
    resets := [] },
  { base := 0x00300008, wins := 1, winStride := 0x0, count := 1, stride := 4,
    fields := [⟨20, 0, .rwl, 0x400⟩],
    resets := [] },
  { base := 0x0030000C, wins := 1, winStride := 0x0, count := 1, stride := 4,
    fields := [⟨29, 20, .rwl, 0⟩, ⟨19, 10, .rwl, 0⟩, ⟨9, 0, .rwl, 0⟩],
    resets := [] },
  { base := 0x00300010, wins := 1, winStride := 0x0, count := 1, stride := 4,
    fields := [⟨31, 31, .rwl, 0⟩, ⟨8, 0, .rwl, 0⟩],
    resets := [] },
  { base := 0x00300014, wins := 1, winStride := 0x0, count := 1, stride := 4,
    fields := [⟨25, 16, .ro, 0⟩, ⟨6, 0, .ro, 0⟩],
    resets := [] },
  { base := 0x00300018, wins := 1, winStride := 0x0, count := 1, stride := 4,
    fields := [⟨31, 16, .ro, 0⟩, ⟨15, 0, .ro, 0⟩],
    resets := [] },
  { base := 0x0030001C, wins := 1, winStride := 0x0, count := 1, stride := 4,
    fields := [⟨31, 0, .rc, 0⟩],
    resets := [] },
  { base := 0x00300020, wins := 1, winStride := 0x0, count := 1, stride := 4,
    fields := [⟨31, 31, .wo, 0⟩, ⟨23, 8, .ro, 0⟩, ⟨7, 2, .rc, 0⟩, ⟨1, 1, .ro, 0⟩, ⟨0, 0, .ro, 0⟩],
    resets := [] },
  { base := 0x00300040, wins := 1, winStride := 0x0, count := 10, stride := 4,
    fields := [⟨31, 0, .ro, 0⟩],
    resets := [] },
  { base := 0x00300068, wins := 1, winStride := 0x0, count := 1, stride := 4,
    fields := [⟨6, 0, .ro, 0⟩],
    resets := [] },
  { base := 0x00300100, wins := 1, winStride := 0x0, count := 1, stride := 4,
    fields := [⟨22, 16, .rwl, 0x7F⟩, ⟨10, 10, .rwl, 0⟩, ⟨9, 9, .rwl, 0⟩, ⟨8, 8, .rwl, 0⟩, ⟨7, 4, .rwl, 0x9⟩, ⟨3, 0, .rwl, 0x9⟩],
    resets := [] },
  { base := 0x00300104, wins := 1, winStride := 0x0, count := 1, stride := 4,
    fields := [⟨31, 31, .ro, 0⟩, ⟨30, 16, .ro, 0x6C0⟩, ⟨15, 0, .ro, 0x1800⟩],
    resets := [] },
  { base := 0x00300108, wins := 1, winStride := 0x0, count := 1, stride := 4,
    fields := [⟨31, 16, .rwl, 0⟩, ⟨15, 0, .rwl, 0⟩],
    resets := [] }]

/-- Registers of SYN: SYN_GEOM_PROBE_EMIT, SYN_GEOM_PROBE_CTL, SYN_GEOM_PROBE_X, SYN_GEOM_PROBE_Y. -/
def regsSyn2 : List RegDesc := [
  { base := 0x0030010C, wins := 1, winStride := 0x0, count := 1, stride := 4,
    fields := [⟨30, 16, .rw, 0⟩, ⟨15, 0, .rw, 0⟩],
    resets := [] },
  { base := 0x00300110, wins := 1, winStride := 0x0, count := 1, stride := 4,
    fields := [⟨31, 31, .wo, 0⟩, ⟨30, 30, .ro, 0x1⟩, ⟨6, 0, .rw, 0⟩],
    resets := [] },
  { base := 0x00300114, wins := 1, winStride := 0x0, count := 1, stride := 4,
    fields := [⟨27, 27, .ro, 0⟩, ⟨26, 26, .ro, 0⟩, ⟨25, 25, .ro, 0⟩, ⟨24, 24, .ro, 0⟩, ⟨21, 0, .ro, 0⟩],
    resets := [] },
  { base := 0x00300118, wins := 1, winStride := 0x0, count := 1, stride := 4,
    fields := [⟨27, 27, .ro, 0⟩, ⟨26, 26, .ro, 0⟩, ⟨25, 25, .ro, 0⟩, ⟨24, 24, .ro, 0⟩, ⟨21, 0, .ro, 0⟩],
    resets := [] }]

/-- Registers of LYR: LYR_TURN_LO, LYR_TURN_HI, LYR_FLIP_TIME_LO, LYR_FLIP_TIME_HI, LYR_FENCE_CFG, LYR_REPEAT_CFG, LYR_REPEAT_STAT,
LYR_COMMIT_STAT, LYR_COMMIT_ID, LYR_COMMIT_TURN, LYR_FALLOW_STAT, LYR_FALLOW_DROP, LYR_GROUP_STAT, LYR_GROUP_TURN. -/
def regsLyr : List RegDesc := [
  { base := 0x00340010, wins := 1, winStride := 0x0, count := 1, stride := 4,
    fields := [⟨31, 0, .ro, 0⟩],
    resets := [] },
  { base := 0x00340014, wins := 1, winStride := 0x0, count := 1, stride := 4,
    fields := [⟨15, 0, .ro, 0⟩],
    resets := [] },
  { base := 0x00340018, wins := 1, winStride := 0x0, count := 1, stride := 4,
    fields := [⟨31, 0, .ro, 0⟩],
    resets := [] },
  { base := 0x0034001C, wins := 1, winStride := 0x0, count := 1, stride := 4,
    fields := [⟨31, 0, .ro, 0⟩],
    resets := [] },
  { base := 0x00340020, wins := 1, winStride := 0x0, count := 1, stride := 4,
    fields := [⟨7, 0, .rw, 0x3⟩],
    resets := [] },
  { base := 0x00340024, wins := 1, winStride := 0x0, count := 1, stride := 4,
    fields := [⟨31, 31, .rw, 0⟩, ⟨15, 8, .rw, 0x10⟩, ⟨7, 0, .rw, 0⟩],
    resets := [] },
  { base := 0x00340028, wins := 1, winStride := 0x0, count := 1, stride := 4,
    fields := [⟨31, 31, .ro, 0⟩, ⟨30, 30, .ro, 0⟩, ⟨15, 0, .ro, 0⟩],
    resets := [] },
  { base := 0x00340030, wins := 1, winStride := 0x0, count := 1, stride := 4,
    fields := [⟨31, 28, .ro, 0⟩, ⟨23, 16, .ro, 0⟩, ⟨15, 0, .ro, 0⟩],
    resets := [] },
  { base := 0x00340034, wins := 1, winStride := 0x0, count := 1, stride := 4,
    fields := [⟨31, 0, .ro, 0⟩],
    resets := [] },
  { base := 0x00340038, wins := 1, winStride := 0x0, count := 1, stride := 4,
    fields := [⟨31, 0, .ro, 0⟩],
    resets := [] },
  { base := 0x00340040, wins := 1, winStride := 0x0, count := 1, stride := 4,
    fields := [⟨31, 31, .ro, 0⟩, ⟨23, 16, .ro, 0⟩, ⟨6, 0, .ro, 0⟩],
    resets := [] },
  { base := 0x00340044, wins := 1, winStride := 0x0, count := 1, stride := 4,
    fields := [⟨31, 0, .wo, 0⟩],
    resets := [] },
  { base := 0x00340100, wins := 1, winStride := 0x0, count := 16, stride := 4,
    fields := [⟨31, 31, .ro, 0⟩, ⟨30, 29, .ro, 0x3⟩, ⟨28, 28, .ro, 0⟩, ⟨27, 26, .ro, 0⟩, ⟨25, 24, .ro, 0x3⟩, ⟨23, 16, .ro, 0⟩],
    resets := [] },
  { base := 0x00340140, wins := 1, winStride := 0x0, count := 16, stride := 4,
    fields := [⟨31, 0, .ro, 0⟩],
    resets := [] }]

/-- Registers of LYR: LYR_GROUP_ID, LYR_FENCE_VAL. -/
def regsLyr2 : List RegDesc := [
  { base := 0x00340180, wins := 1, winStride := 0x0, count := 16, stride := 4,
    fields := [⟨31, 0, .ro, 0⟩],
    resets := [] },
  { base := 0x00340200, wins := 1, winStride := 0x0, count := 64, stride := 4,
    fields := [⟨31, 0, .rw, 0⟩],
    resets := [] }]

/-- Registers of COL: COL_LUT_CTL, COL_ZONE_STAT. -/
def regsCol : List RegDesc := [
  { base := 0x00360000, wins := 1, winStride := 0x0, count := 1, stride := 4,
    fields := [⟨31, 31, .wo, 0⟩, ⟨23, 8, .ro, 0⟩, ⟨7, 2, .rc, 0⟩, ⟨1, 1, .ro, 0⟩, ⟨0, 0, .ro, 0⟩],
    resets := [] },
  { base := 0x00360200, wins := 1, winStride := 0x0, count := 128, stride := 4,
    fields := [⟨31, 16, .ro, 0⟩, ⟨15, 13, .ro, 0⟩, ⟨8, 0, .ro, 0⟩],
    resets := [] }]

/-- Registers of EMC: EMC_MAP_CTL, EMC_MAP_BASE, EMC_MAP_CFG, EMC_MAP_ERR. -/
def regsEmc : List RegDesc := [
  { base := 0x00380000, wins := 1, winStride := 0x0, count := 1, stride := 4,
    fields := [⟨31, 31, .wo, 0⟩, ⟨23, 8, .ro, 0⟩, ⟨7, 2, .rc, 0⟩, ⟨1, 1, .ro, 0⟩, ⟨0, 0, .ro, 0⟩],
    resets := [] },
  { base := 0x00380010, wins := 1, winStride := 0x0, count := 2, stride := 4,
    fields := [⟨28, 0, .rw, 0⟩],
    resets := [] },
  { base := 0x00380020, wins := 1, winStride := 0x0, count := 2, stride := 4,
    fields := [⟨31, 31, .rw, 0⟩, ⟨30, 30, .rw, 0⟩, ⟨29, 15, .rw, 0⟩, ⟨14, 0, .rw, 0⟩],
    resets := [] },
  { base := 0x00380030, wins := 1, winStride := 0x0, count := 1, stride := 4,
    fields := [⟨31, 24, .rc, 0⟩, ⟨23, 16, .rc, 0⟩, ⟨15, 8, .rc, 0⟩],
    resets := [] }]

/-- Registers of DRV: DRV_CTL, DRV_LEDGER_CFG, DRV_LEDGER_SAT, DRV_LEDGER_ERR, DRV_LEDGER_SAT_CFG, DRV_LEDGER_SAT_FIRST, DRV_RANGE_FS,
DRV_RANGE_FS3, DRV_DITHER_CFG, DRV_STRESS, DRV_STRESS4, DRV_UNIT. -/
def regsDrv : List RegDesc := [
  { base := 0x003A0000, wins := 1, winStride := 0x0, count := 1, stride := 4,
    fields := [⟨31, 31, .wo, 0⟩, ⟨30, 30, .wo, 0⟩, ⟨2, 2, .ro, 0⟩, ⟨1, 1, .ro, 0⟩, ⟨0, 0, .ro, 0⟩],
    resets := [] },
  { base := 0x003A0004, wins := 1, winStride := 0x0, count := 1, stride := 4,
    fields := [⟨31, 31, .rwl, 0⟩, ⟨30, 16, .rwl, 0⟩, ⟨4, 0, .rwl, 0⟩],
    resets := [] },
  { base := 0x003A0020, wins := 1, winStride := 0x0, count := 1, stride := 4,
    fields := [⟨31, 16, .ro, 0⟩, ⟨15, 0, .ro, 0⟩],
    resets := [] },
  { base := 0x003A0024, wins := 1, winStride := 0x0, count := 1, stride := 4,
    fields := [⟨31, 24, .rc, 0⟩],
    resets := [] },
  { base := 0x003A0028, wins := 1, winStride := 0x0, count := 1, stride := 4,
    fields := [⟨15, 0, .rw, 0x1⟩],
    resets := [] },
  { base := 0x003A002C, wins := 1, winStride := 0x0, count := 1, stride := 4,
    fields := [⟨31, 31, .w1c, 0⟩, ⟨30, 16, .ro, 0⟩, ⟨15, 0, .ro, 0⟩],
    resets := [] },
  { base := 0x003A0100, wins := 1, winStride := 0x0, count := 3, stride := 4,
    fields := [⟨18, 0, .rwl, 0⟩],
    resets := [0x00001000, 0x00004000, 0x00010000] },
  { base := 0x003A010C, wins := 1, winStride := 0x0, count := 1, stride := 4,
    fields := [⟨18, 0, .ro, 0x40000⟩],
    resets := [] },
  { base := 0x003A0110, wins := 1, winStride := 0x0, count := 1, stride := 4,
    fields := [⟨1, 0, .rwl, 0x1⟩],
    resets := [] },
  { base := 0x003A0200, wins := 8, winStride := 0x14, count := 4, stride := 4,
    fields := [⟨31, 24, .rwl, 0⟩, ⟨23, 16, .rwl, 0⟩, ⟨15, 8, .rwl, 0⟩, ⟨7, 0, .rwl, 0⟩],
    resets := [] },
  { base := 0x003A0210, wins := 8, winStride := 0x14, count := 1, stride := 4,
    fields := [⟨7, 0, .rwl, 0⟩],
    resets := [] },
  { base := 0x003A02A0, wins := 1, winStride := 0x0, count := 2, stride := 4,
    fields := [⟨31, 24, .rwl, 0x1⟩, ⟨23, 16, .rwl, 0x1⟩, ⟨15, 8, .rwl, 0x1⟩, ⟨7, 0, .rwl, 0x1⟩],
    resets := [] }]

/-- Registers of TIM: TIM_ROW_CFG, TIM_FRAME_CFG, TIM_CLOVER_CFG, TIM_LATCH_CFG, TIM_MODE_REQ, TIM_MODE_STAT, TIM_GOUT_CFG, TIM_GOUT_EDGE,
TIM_GOUT_ROW. -/
def regsTim : List RegDesc := [
  { base := 0x003C0000, wins := 1, winStride := 0x0, count := 1, stride := 4,
    fields := [⟨11, 0, .rwl, 0x13D⟩],
    resets := [] },
  { base := 0x003C0004, wins := 1, winStride := 0x0, count := 1, stride := 4,
    fields := [⟨25, 16, .rwl, 0xF0⟩, ⟨14, 0, .rwl, 0x4380⟩],
    resets := [] },
  { base := 0x003C0008, wins := 1, winStride := 0x0, count := 1, stride := 4,
    fields := [⟨31, 30, .rwl, 0x3⟩, ⟨29, 15, .rwl, 0x6D8⟩, ⟨14, 0, .rwl, 0x36C0⟩],
    resets := [] },
  { base := 0x003C0010, wins := 1, winStride := 0x0, count := 1, stride := 4,
    fields := [⟨9, 0, .rwl, 0⟩],
    resets := [] },
  { base := 0x003C0020, wins := 1, winStride := 0x0, count := 1, stride := 4,
    fields := [⟨31, 31, .wo, 0⟩, ⟨2, 0, .rw, 0⟩],
    resets := [] },
  { base := 0x003C0024, wins := 1, winStride := 0x0, count := 1, stride := 4,
    fields := [⟨13, 12, .ro, 0⟩, ⟨9, 8, .ro, 0⟩, ⟨6, 4, .ro, 0⟩, ⟨2, 0, .ro, 0⟩],
    resets := [] },
  { base := 0x003C0100, wins := 1, winStride := 0x0, count := 16, stride := 4,
    fields := [⟨31, 30, .rwl, 0⟩, ⟨29, 28, .rwl, 0⟩, ⟨27, 27, .rwl, 0⟩, ⟨26, 26, .rwl, 0⟩, ⟨25, 25, .rwl, 0⟩, ⟨18, 16, .rwl, 0⟩, ⟨10, 8, .rwl, 0⟩],
    resets := [0x80000000, 0x40030000, 0x40030100, 0x40030200, 0x40030300, 0x94000000, 0x52010000, 0x52010100,
    0xA0000000, 0x62010000, 0x62010100, 0xF0000000, 0x30000000, 0x30000000, 0x30000000, 0x30000000] },
  { base := 0x003C0140, wins := 1, winStride := 0x0, count := 16, stride := 4,
    fields := [⟨27, 16, .rwl, 0⟩, ⟨11, 0, .rwl, 0⟩],
    resets := [0x012C0008, 0x012C0008, 0x012C0008, 0x012C0008, 0x012C0008, 0x00A00004, 0x00A00004, 0x00A00004,
    0x00A00004, 0x00A00004, 0x00A00004, 0, 0, 0, 0, 0] },
  { base := 0x003C0180, wins := 1, winStride := 0x0, count := 16, stride := 4,
    fields := [⟨14, 0, .rwl, 0⟩],
    resets := [0, 0, 0, 0, 0, 1, 0, 0, 0x36C1, 0, 0, 0, 0, 0, 0, 0] }]

/-- Registers of PL: PL_CTL, PL_STAT, PL_BLACK, PL_RB_CFG, PL_BC_ERR, PL_RB_ERR, PL_LANE_STAT, PL_BC_STAT. -/
def regsPl : List RegDesc := [
  { base := 0x00400000, wins := 8, winStride := 0x1000, count := 1, stride := 4,
    fields := [⟨31, 31, .wo, 0⟩, ⟨30, 30, .rw, 0x1⟩, ⟨29, 29, .rw, 0x1⟩, ⟨16, 0, .wo, 0⟩],
    resets := [] },
  { base := 0x00400004, wins := 8, winStride := 0x1000, count := 1, stride := 4,
    fields := [⟨31, 29, .ro, 0⟩, ⟨28, 28, .ro, 0⟩, ⟨27, 27, .ro, 0⟩, ⟨26, 26, .ro, 0⟩, ⟨25, 21, .ro, 0x10⟩, ⟨16, 0, .ro, 0⟩],
    resets := [] },
  { base := 0x00400008, wins := 8, winStride := 0x1000, count := 1, stride := 4,
    fields := [⟨15, 0, .ro, 0⟩],
    resets := [] },
  { base := 0x0040000C, wins := 8, winStride := 0x1000, count := 1, stride := 4,
    fields := [⟨7, 0, .rw, 0x8⟩],
    resets := [] },
  { base := 0x00400010, wins := 8, winStride := 0x1000, count := 1, stride := 4,
    fields := [⟨31, 16, .rc, 0⟩, ⟨15, 0, .rc, 0⟩],
    resets := [] },
  { base := 0x00400014, wins := 8, winStride := 0x1000, count := 1, stride := 4,
    fields := [⟨31, 0, .rc, 0⟩],
    resets := [] },
  { base := 0x00400040, wins := 8, winStride := 0x1000, count := 17, stride := 4,
    fields := [⟨31, 31, .ro, 0⟩, ⟨30, 30, .ro, 0⟩, ⟨29, 29, .ro, 0⟩, ⟨28, 26, .ro, 0⟩, ⟨25, 25, .ro, 0⟩, ⟨24, 21, .ro, 0⟩, ⟨20, 16, .ro, 0⟩, ⟨15, 8, .ro, 0⟩, ⟨7, 0, .ro, 0⟩],
    resets := [0x00000000, 0x00210000, 0x00420000, 0x00630000, 0x00840000, 0x00A50000, 0x00C60000, 0x00E70000, 0x01080000,
    0x01290000, 0x014A0000, 0x016B0000, 0x018C0000, 0x01AD0000, 0x01CE0000, 0x01EF0000, 0x02100000] },
  { base := 0x004000C0, wins := 8, winStride := 0x1000, count := 16, stride := 4,
    fields := [⟨31, 31, .ro, 0⟩, ⟨30, 30, .ro, 0⟩, ⟨29, 29, .ro, 0⟩, ⟨28, 26, .ro, 0⟩, ⟨25, 16, .ro, 0⟩, ⟨15, 10, .ro, 0⟩, ⟨9, 5, .ro, 0⟩, ⟨4, 0, .ro, 0⟩],
    resets := [] }]

/-- Registers of PWD: PWD_SEQ_CTL, PWD_SEQ_STAT, PWD_SEQ_CFG, PWD_FAULT, PWD_RAIL_CFG. -/
def regsPwd : List RegDesc := [
  { base := 0x00500000, wins := 1, winStride := 0x0, count := 1, stride := 4,
    fields := [⟨31, 31, .wo, 0⟩, ⟨30, 30, .wo, 0⟩],
    resets := [] },
  { base := 0x00500004, wins := 1, winStride := 0x0, count := 1, stride := 4,
    fields := [⟨31, 30, .ro, 0⟩, ⟨29, 29, .ro, 0x1⟩, ⟨28, 28, .ro, 0⟩, ⟨11, 8, .ro, 0⟩, ⟨5, 5, .ro, 0⟩, ⟨4, 4, .ro, 0⟩],
    resets := [] },
  { base := 0x00500008, wins := 1, winStride := 0x0, count := 1, stride := 4,
    fields := [⟨31, 24, .rwl, 0x14⟩, ⟨23, 16, .rwl, 0x32⟩, ⟨15, 8, .rwl, 0x14⟩, ⟨7, 0, .rwl, 0xA⟩],
    resets := [] },
  { base := 0x0050000C, wins := 1, winStride := 0x0, count := 1, stride := 4,
    fields := [⟨23, 20, .w1c, 0⟩, ⟨16, 16, .w1c, 0⟩, ⟨15, 15, .w1c, 0⟩, ⟨14, 14, .w1c, 0⟩, ⟨13, 13, .w1c, 0⟩, ⟨12, 12, .w1c, 0⟩, ⟨11, 8, .w1c, 0⟩, ⟨7, 4, .w1c, 0⟩, ⟨3, 0, .w1c, 0⟩],
    resets := [] },
  { base := 0x00500010, wins := 1, winStride := 0x0, count := 4, stride := 4,
    fields := [⟨13, 12, .rwl, 0x2⟩, ⟨9, 8, .rwl, 0⟩, ⟨7, 0, .rwl, 0⟩],
    resets := [0x00002228, 0x0000223C, 0x00002128, 0x00002132] }]

/-- Registers of MEM: MEM_PAGE_CFG, MEM_REF_STAT, MEM_ECC_CNT, MEM_ECC_FIRST, MEM_MAP_MASK, MEM_MAP_STAT, MEM_REGION, MEM_CLIENT_CFG,
MEM_CLIENT_STAT. -/
def regsMem : List RegDesc := [
  { base := 0x00600010, wins := 1, winStride := 0x0, count := 1, stride := 4,
    fields := [⟨7, 0, .rw, 0x30⟩],
    resets := [] },
  { base := 0x00600020, wins := 1, winStride := 0x0, count := 1, stride := 4,
    fields := [⟨31, 16, .rc, 0⟩, ⟨11, 8, .rc, 0⟩, ⟨0, 0, .ro, 0⟩],
    resets := [] },
  { base := 0x00600030, wins := 1, winStride := 0x0, count := 1, stride := 4,
    fields := [⟨31, 16, .rc, 0⟩, ⟨15, 8, .rc, 0⟩, ⟨7, 0, .rc, 0⟩],
    resets := [] },
  { base := 0x00600034, wins := 1, winStride := 0x0, count := 1, stride := 4,
    fields := [⟨31, 31, .w1c, 0⟩, ⟨30, 30, .ro, 0⟩, ⟨29, 0, .ro, 0⟩],
    resets := [] },
  { base := 0x00600100, wins := 1, winStride := 0x0, count := 9, stride := 4,
    fields := [⟨27, 0, .rwl, 0⟩],
    resets := [0x00804008, 0x01008010, 0x02010020, 0x04020040, 0x08040080, 0x00080400, 0x00100800, 0x00201000, 0x00402000] },
  { base := 0x00600124, wins := 1, winStride := 0x0, count := 1, stride := 4,
    fields := [⟨31, 31, .ro, 0⟩, ⟨30, 30, .ro, 0⟩],
    resets := [] },
  { base := 0x00600200, wins := 1, winStride := 0x0, count := 10, stride := 4,
    fields := [⟨24, 16, .rwl, 0⟩, ⟨8, 0, .rwl, 0⟩],
    resets := [0x00100000, 0x00100010, 0x00100020, 0x00100030, 0x00200040, 0x00200060, 0x003C0080, 0x002800BC, 0x008000E4, 0x001C0164] },
  { base := 0x00600300, wins := 1, winStride := 0x0, count := 9, stride := 4,
    fields := [⟨31, 31, .ro, 0⟩, ⟨23, 16, .rw, 0⟩, ⟨15, 0, .rw, 0⟩],
    resets := [0x80000400, 0x80000C00, 0x80000700, 0x80000200, 0x80000200, 0x00400000, 0x00400000, 0x00400000, 0x00200000] },
  { base := 0x00600340, wins := 1, winStride := 0x0, count := 9, stride := 4,
    fields := [⟨31, 16, .rc, 0⟩, ⟨15, 0, .rc, 0xFFFF⟩],
    resets := [] }]

/-- Registers of MPHY: MPHY_TRAIN_CTL, MPHY_TRAIN_STAT. -/
def regsMphy : List RegDesc := [
  { base := 0x00610000, wins := 1, winStride := 0x0, count := 1, stride := 4,
    fields := [⟨31, 31, .wo, 0⟩],
    resets := [] },
  { base := 0x00610004, wins := 1, winStride := 0x0, count := 1, stride := 4,
    fields := [⟨31, 30, .ro, 0⟩, ⟨29, 29, .ro, 0⟩, ⟨28, 24, .ro, 0⟩, ⟨23, 16, .ro, 0⟩, ⟨15, 0, .rc, 0⟩],
    resets := [] }]

/-- Every register of the device, in rising address order (R448; 1,757 registers). -/
def regTable : List RegDesc :=
  regsChip ++ regsClk ++ regsPwr ++ regsCal ++ regsMbx ++ regsEvt ++
  regsJob ++ regsNvm ++ regsSec ++ regsIng ++ regsSes ++ regsCas ++
  regsCas2 ++ regsSwd ++ regsDec ++ regsSyn ++ regsSyn2 ++ regsLyr ++
  regsLyr2 ++ regsCol ++ regsEmc ++ regsDrv ++ regsTim ++ regsPl ++
  regsPwd ++ regsMem ++ regsMphy

end Sys2Proof.Machine
end

