-- ==== Sys2Proof/Machine/Types.lean ====
section
/-! DEFINITION. The plain data the machine holds beside its registers: layers, slots, packets, cells, ports, sessions,
jobs and the rest, each as the chapter of the manual that its comment names gives it. -/

namespace Sys2Proof.Machine

/-- Placement of a layer in the hogel grid, in the raw integers of the formats of R29 (02_light_field_geometry.md):
OX and OY in 2^-6, KX and KY in 2^-12, DX and DY in 2^-12; an edge flag is true for CLAMP. -/
structure Placement where
  w : Nat
  h : Nat
  ox : Int
  oy : Int
  kx : Nat
  ky : Nat
  dx : Int
  dy : Int
  clampX : Bool
  clampY : Bool
  hbound : Nat
  vbound : Nat
  deriving DecidableEq, Repr

/-- Panel and hogel geometry of a timing set (R25, R27). -/
structure Geom where
  ng : Nat
  w : Nat
  h : Nat
  hp : Nat
  hx0 : Nat
  hy0 : Nat
  hpo : Bool
  mirU : Bool
  mirV : Bool
  deriving DecidableEq, Repr

/-- A decoded plane pixel: straight-alpha RGBA, four unsigned 10-bit values (03_scene_coding.md). -/
structure Px where
  r : Nat
  g : Nat
  b : Nat
  a : Nat
  deriving DecidableEq, Repr

/-- A block header's fields (R40). -/
structure BlockHdr where
  plane : Nat
  band : Nat
  zero : Bool
  dyna : Bool
  dync : Bool
  col : Nat
  ctab : Nat
  atab : Nat
  len : Nat
  tag : Nat
  deriving DecidableEq, Repr

/-- What a decoder makes of a block (R39, R64): its 16 rows of 512 pixels, or the kind of its error. -/
inductive DecodeResult where
  | ok (rows : List (List Px))
  | overrun
  | trailing
  | ecc
  deriving DecidableEq, Repr

/-! Layers, slots and commits (05_layers_commits_flips.md). -/

/-- States of a present frame slot (R98). -/
inductive SlotPhase where
  | free | filling | held
  deriving DecidableEq, Repr

/-- A layer record of a declaration (R103). -/
structure LayerRec where
  overlay : Bool
  isStatic : Bool
  index : Nat
  group : Nat
  isRef : Bool
  filt : Nat
  fset : Nat
  ofmt : Nat
  place : Placement
  fallowId : Nat
  ltag : Nat
  deriving DecidableEq, Repr

/-- A group record of a declaration: the fences it waits on, each with its target (R102). -/
structure GroupRec where
  group : Nat
  fences : List (Nat × Nat)
  deriving DecidableEq, Repr

/-- An accepted declaration (R101), with the payload that opened the slot (R107). -/
structure Decl where
  raw : List Byte
  tset : Nat
  groupMask : Nat
  groups : List GroupRec
  layers : List LayerRec
  deriving DecidableEq, Repr

/-- A ring descriptor (R57) without the fields the declaration gives (DECL, NCOL) or that follow from others. -/
structure Ring where
  alloc : Bool
  dirBase : Nat
  zmask : Nat
  rcvd : Nat
  bytes : Nat
  repl : Nat
  limit : Nat
  used : Nat
  deriving DecidableEq, Repr

/-- A block directory entry (R56) with the block's own bytes, which stand at the Sward address that ADDR names. -/
structure DirEntry where
  zero : Bool
  derr : Bool
  addr : Nat
  hdr : BlockHdr
  port : Nat
  bytes : List Byte
  deriving DecidableEq, Repr

/-- A fragment held by an assembly: its offset, the port that brought it, its bytes, and whether a fragment of that offset
has been processed (R225). -/
structure Frag where
  offset : Nat
  port : Nat
  bytes : List Byte
  counted : Bool
  deriving DecidableEq, Repr

/-- An open block assembly (R225). `version` is new at each opening and reopening, `head` holds the first 64 bytes, and
`touched` the ports whose fragments opened or joined it (R234). -/
structure Assembly where
  slot : Nat
  ring : Nat
  col : Nat
  blen : Nat
  hasSpace : Bool
  version : Nat
  head : List Byte
  frags : List Frag
  touched : List Nat
  deriving DecidableEq, Repr

/-- A frame slot (R97 to R100) with its rings, its directory and the overlay chunks received (R228). -/
structure Slot where
  phase : SlotPhase
  /-- the session that declared it (R245) -/
  sid : Nat
  decl : Option Decl
  order : Nat
  rings : List (Nat × Ring)
  dir : List (Nat × DirEntry)
  dirUsed : Nat
  units : Nat
  /-- (overlay, row, mask of chunks processed) -/
  ovlGot : List (Nat × Nat × Nat)
  deriving DecidableEq, Repr

/-- Where a packet came from: the port and its sequence number. -/
structure Origin where
  port : Nat
  seq : Nat
  deriving DecidableEq, Repr

/-- A commit that is waiting to complete or accepted and pending (R110, R111). `groups` are the groups still pending,
each with its wait count (R115). -/
structure Commit where
  /-- the model's own number of the commit, unique over all sessions -/
  key : Nat
  /-- the session it belongs to -/
  sid : Nat
  id : Nat
  slot : Option Nat
  tset : Nat
  groups : List (Nat × Nat)
  accepted : Bool
  /-- a Fallow job of it has started (R111) -/
  begun : Bool := false
  origin : Origin
  deriving DecidableEq, Repr

/-- Outcomes of a commit, by the codes of LYR_COMMIT_STAT. -/
inductive CommitOutcome where
  | undecided
  | accepted
  | landed (turn flip : Nat)
  | refused (reason context : Nat)
  | abandoned (reason : Nat)
  | superseded
  | discarded (reason : Nat)
  deriving DecidableEq, Repr

/-- One of the 256 recorded commit ids of the session (R109), with the packets waiting for its outcome. -/
structure CommitRec where
  id : Nat
  outcome : CommitOutcome
  /-- the turn at which it was decided -/
  turn : Nat
  slot : Nat
  groups : Nat
  waiters : List Origin
  deriving DecidableEq, Repr

/-- The showing content of a group (R96). -/
structure GroupShow where
  slot : Nat
  sid : Nat
  id : Nat
  turn : Nat
  layers : List LayerRec
  deriving DecidableEq, Repr

/-- A generation of a Fallow entry (R124, R324): the layer it stores, one directory entry a block position by (band, column), whose
address counts 16-byte units within the generation, and the granules that hold its blocks in HBM. -/
structure FallowGen where
  layer : LayerRec
  blocks : List (Nat × Nat × DirEntry)
  /-- the pixels of the blocks of a flattened plane, which the device coded losslessly: (band, column, rows) (R126) -/
  flat : List (Nat × Nat × List (List Px))
  table : List Nat
  deriving DecidableEq, Repr

/-- A Fallow entry (R124): its group, its current generation, the generation under construction with the commit it is
for, and the turn in which it was last shown. -/
structure FallowEntry where
  fid : Nat
  group : Nat
  cur : Option FallowGen
  new : Option FallowGen
  newFor : Nat
  lastShown : Nat
  deriving DecidableEq, Repr

/-- A Fallow job (R125 to R127): a copy of one plane or a flatten of several. -/
structure FallowJob where
  fid : Nat
  commit : Nat
  slot : Nat
  members : List LayerRec
  /-- granules set aside for the new generation (R124, R324) -/
  granules : Nat
  started : Bool
  ended : Bool
  deriving DecidableEq, Repr

/-- Where a layer of a turn takes its rows from. -/
inductive LayerSrc where
  | slot (n : Nat)
  | fallow (gen : FallowGen)
  | bcast (chan buf : Nat)
  deriving DecidableEq, Repr

/-- A layer of a turn's layer set, in compositing order (R71). -/
structure TurnLayer where
  layer : LayerRec
  src : LayerSrc
  deriving DecidableEq, Repr

/-- A refusal: NAK reason code and CONTEXT (R271). -/
structure Nak where
  reason : Nat
  ctx : Nat
  deriving DecidableEq, Repr

/-- Progress of a timing mode change (R131). -/
inductive ModePhase where
  | idle
  | waiting
  | q1
  | q2
  | retune
  | ready
  deriving DecidableEq, Repr

end Sys2Proof.Machine
end

