-- ==== Sys2Proof/Machine/Geometry.lean ====
section
/-! DEFINITION. Light-field geometry and ray addressing (02_light_field_geometry.md): hogel and view of an emitter,
the exact sample coordinates and their one rounding, edges, guard clamp and disparity maxima. -/

namespace Sys2Proof.Machine

/-- The hogel widths that divide 480 and do not exceed 16 (R25). -/
def hogelWidths : List Nat := [1, 2, 3, 4, 5, 6, 8, 10, 12, 15, 16]

/-- Whether a geometry lies within the limits of R25. -/
def Geom.valid (g : Geom) : Bool :=
  hogelWidths.contains g.w && decide (1 ≤ g.h) && decide (g.h ≤ 16) && decide (g.w * g.h ≤ 256) &&
  decide (1 ≤ g.ng) && decide (g.ng ≤ 128) && decide (1 ≤ g.hp) && decide (g.hp ≤ 17280) &&
  decide (g.hp % g.h = 0) && decide (g.hx0 ≤ 65535) && decide (g.hy0 ≤ 65535)

/-- Hogel and doubled view offsets of an emitter (R28). -/
structure HogelView where
  hx : Nat
  hy : Nat
  du2 : Int
  dv2 : Int
  deriving DecidableEq, Repr

/-- R28. -/
def hogelOf (g : Geom) (x y : Nat) : HogelView :=
  let u := x % g.w
  let v := y % g.h
  let u := if g.mirU then g.w - 1 - u else u
  let v := if g.mirV then g.h - 1 - v else v
  { hx := x / g.w + g.hx0
    hy := y / g.h + g.hy0
    du2 := 2 * (u : Int) - ((g.w : Int) - 1)
    dv2 := if g.hpo then 0 else 2 * (v : Int) - ((g.h : Int) - 1) }

/-- One coordinate of R30 in units of 2^-25 layer pixels, exact: `o` in 2^-6, `k` and `d` in 2^-12. -/
def exactCoord (o : Int) (k : Nat) (d : Int) (hogel : Nat) (dd2 : Int) : Int :=
  o * 2 ^ 19 + (k : Int) * (2 * (hogel : Int) + 1) * 2 ^ 12 - 2 ^ 24 + d * (k : Int) * dd2

/-- X64 or Y64 of R30: the exact coordinate in sixty-fourths of a pixel, rounded once; what a cluster uses is
this value, with no error built up along a row (R31). -/
def coord64 (o : Int) (k : Nat) (d : Int) (hogel : Nat) (dd2 : Int) : Int :=
  roundDiv (exactCoord o k d hogel dd2) (2 ^ 19)

/-- The filter coordinate of one axis after R32: the clamp of a CLAMP edge, the guard offset and the guard clamp. -/
structure AxisCoord where
  /-- C in u16.6 -/
  c : Nat
  /-- base column or row -/
  base : Int
  phase : Nat
  /-- the guard clamp changed the coordinate -/
  sat : Bool
  deriving DecidableEq, Repr

/-- R32 for one axis of extent `n` pixels. -/
def axisCoord (c64 : Int) (n : Nat) (clampEdge : Bool) : AxisCoord :=
  let c0 := if clampEdge then clampInt c64 0 (64 * ((n : Int) - 1)) else c64
  let g := c0 + 256
  let c := (clampInt g 0 (64 * ((n : Int) + 7))).toNat
  { c := c, base := ((c / 64 : Nat) : Int) - 4, phase := c % 64, sat := decide ((c : Int) ≠ g) }

/-- The tap indices base + lo to base + hi of one axis under R33: clamped in CLAMP mode, none where outside a
TRANSPARENT extent. -/
def tapIndex (n : Nat) (clampEdge : Bool) (i : Int) : Option Nat :=
  if clampEdge then some (clampInt i 0 ((n : Int) - 1)).toNat
  else if 0 ≤ i ∧ i < (n : Int) then some i.toNat else none

/-- The four plane taps base − 1 to base + 2 (R32, R33). -/
def planeTaps (n : Nat) (clampEdge : Bool) (base : Int) : List (Option Nat) :=
  [-1, 0, 1, 2].map (fun k => tapIndex n clampEdge (base + k))

/-- The two overlay taps base and base + 1 (R34). -/
def overlayTaps (n : Nat) (clampEdge : Bool) (base : Int) : List (Option Nat) :=
  [0, 1].map (fun k => tapIndex n clampEdge (base + k))

/-- The horizontal and vertical coordinates of a layer at an emitter (R30, R32). -/
def layerCoord (g : Geom) (p : Placement) (x y : Nat) : AxisCoord × AxisCoord :=
  let hv := hogelOf g x y
  (axisCoord (coord64 p.ox p.kx p.dx hv.hx hv.du2) p.w p.clampX,
   axisCoord (coord64 p.oy p.ky p.dy hv.hy hv.dv2) p.h p.clampY)

/-- ceil(Hmax) of R35: |DX| · KX · (w − 1) / 2, an exact multiple of 2^-25. -/
def ceilHmax (g : Geom) (p : Placement) : Nat := ceilDiv (p.dx.natAbs * p.kx * (g.w - 1)) (2 ^ 25)

/-- ceil(Vmax) of R35; Vmax is 0 when HPO = 1 or h = 1. -/
def ceilVmax (g : Geom) (p : Placement) : Nat :=
  if g.hpo ∨ g.h = 1 then 0 else ceilDiv (p.dy.natAbs * p.ky * (g.h - 1)) (2 ^ 25)

/-- Whether the declared bounds of a layer cover a geometry (R35, R36). -/
def boundsCover (g : Geom) (p : Placement) : Bool :=
  decide (ceilHmax g p ≤ p.hbound) && decide (ceilVmax g p ≤ p.vbound)

/-- The ranges of R29. -/
def Placement.inRange (p : Placement) : Bool :=
  decide (1 ≤ p.w) && decide (p.w ≤ 8192) && decide (1 ≤ p.h) && decide (p.h ≤ 4096) &&
  decide (0x0800 ≤ p.kx) && decide (p.kx ≤ 0x8000) && decide (0x0800 ≤ p.ky) && decide (p.ky ≤ 0x8000) &&
  decide (p.hbound ≤ 256) && decide (p.vbound ≤ 480)

/-- One result register of the probe (R37) from its flags. -/
def probeWord (range absent : Bool) (a : AxisCoord) (allOut : Bool) : Nat :=
  b2n range * 2 ^ 27 + b2n absent * 2 ^ 26 +
  (if range || absent then 0 else b2n a.sat * 2 ^ 25 + b2n allOut * 2 ^ 24 + a.c % 2 ^ 22)

end Sys2Proof.Machine
end

