-- ==== Sys2Proof/Machine/SMap.lean ====
section
/-! DEFINITION. Sparse maps in one canonical form: a list of (key, value) pairs with keys strictly rising and no entry
equal to what an unlisted key reads as, the default `d`. Memories, register files and table pages are such maps. -/

namespace Sys2Proof.Machine

/-- A sparse map as plain data. -/
abbrev SMap (α : Type) := List (Nat × α)

/-- The value at key `k`; `d k` where the map lists none. -/
def SMap.get (d : Nat → α) : SMap α → Nat → α
  | [], k => d k
  | (a, v) :: m, k => if a = k then v else SMap.get d m k

/-- List `k` with value `v`, keeping the keys rising. -/
def SMap.put : SMap α → Nat → α → SMap α
  | [], k, v => [(k, v)]
  | (a, w) :: m, k, v =>
    if k < a then (k, v) :: (a, w) :: m else if k = a then (k, v) :: m else (a, w) :: SMap.put m k v

/-- Take key `k` off the list. -/
def SMap.drop : SMap α → Nat → SMap α
  | [], _ => []
  | (a, w) :: m, k => if k = a then SMap.drop m k else (a, w) :: SMap.drop m k

/-- Write `v` at `k`: the default value is stored by not listing the key. -/
def SMap.set [DecidableEq α] (d : Nat → α) (m : SMap α) (k : Nat) (v : α) : SMap α :=
  if v = d k then SMap.drop m k else SMap.put m k v

/-- Write a string of values at consecutive keys. -/
def SMap.setMany [DecidableEq α] (d : Nat → α) : SMap α → Nat → List α → SMap α
  | m, _, [] => m
  | m, k, v :: vs => SMap.setMany d (SMap.set d m k v) (k + 1) vs

/-- `n` values at consecutive keys. -/
def SMap.getMany (d : Nat → α) (m : SMap α) (k : Nat) : Nat → List α
  | 0 => []
  | n + 1 => SMap.get d m k :: SMap.getMany d m (k + 1) n

/-- Write a string of values at the keys that `f` gives consecutive addresses. -/
def SMap.setVia [DecidableEq α] (d : Nat → α) (f : Nat → Nat) : SMap α → Nat → List α → SMap α
  | m, _, [] => m
  | m, k, v :: vs => SMap.setVia d f (SMap.set d m (f k) v) (k + 1) vs

/-- `n` values at the keys that `f` gives consecutive addresses. -/
def SMap.getVia (d : Nat → α) (f : Nat → Nat) (m : SMap α) (k : Nat) : Nat → List α
  | 0 => []
  | n + 1 => SMap.get d m (f k) :: SMap.getVia d f m (k + 1) n

/-- Keep only the keys that `p` accepts; the others read as the default again. -/
def SMap.keep (p : Nat → Bool) (m : SMap α) : SMap α := m.filter (fun e => p e.1)

/-- Keys strictly rising. -/
def SMap.sorted : SMap α → Bool
  | [] => true
  | [_] => true
  | (a, _) :: (b, v) :: m => decide (a < b) && SMap.sorted ((b, v) :: m)

/-- The canonical form. -/
def SMap.wf [DecidableEq α] (d : Nat → α) (m : SMap α) : Bool :=
  SMap.sorted m && m.all (fun e => decide (e.2 ≠ d e.1))

end Sys2Proof.Machine
end

