-- ==== Sys2Proof/Machine/Tbc.lean ====
section
/-! DEFINITION. Tefold Block Coding (03_scene_coding.md): the block header, the code tables, the sub-tiles, prediction
and reconstruction, and the decoding of a whole block (R40 to R53, R64). -/

namespace Sys2Proof.Machine

/-- The transparent pixel (0, 0, 0, 0). -/
def Px.clear : Px := ⟨0, 0, 0, 0⟩

/-- The header of a block, read from its first 16 bytes (R40). -/
def readBlockHdr (b : List Byte) : BlockHdr :=
  let f := byteAt b 4
  { plane := byteAt b 2 % 64
    band := byteAt b 3
    zero := bitOf f 7
    dyna := bitOf f 6
    dync := bitOf f 5
    col := f % 16
    ctab := byteAt b 5 % 32
    atab := byteAt b 6 % 32
    len := leAt b 8 3
    tag := leAt b 12 4 }

/-- The 16 header bytes of a header's fields (R40). -/
def writeBlockHdr (h : BlockHdr) : List Byte :=
  [0xB7, 0x01, BitVec.ofNat 8 (h.plane % 64), BitVec.ofNat 8 h.band,
   BitVec.ofNat 8 (b2n h.zero * 128 + b2n h.dyna * 64 + b2n h.dync * 32 + h.col % 16),
   BitVec.ofNat 8 (h.ctab % 32), BitVec.ofNat 8 (h.atab % 32), 0] ++ leBytes 3 h.len ++ [0] ++ leBytes 4 h.tag

/-- Check 1 of R62: MAGIC, VERSION and the reserved header bits. -/
def blockFmtOk (b : List Byte) : Bool :=
  byteAt b 0 == 0xB7 && byteAt b 1 == 0x01 && byteAt b 2 / 64 == 0 && !bitOf (byteAt b 4) 4 &&
  byteAt b 5 / 32 == 0 && byteAt b 6 / 32 == 0 && byteAt b 7 == 0 && byteAt b 11 == 0

/-- R41: the length limits and the fields of a ZERO block. -/
def blockLenOk (h : BlockHdr) : Bool :=
  if h.zero then h.len == 16 && !h.dyna && !h.dync && h.ctab == 0 && h.atab == 0
  else decide (24 ≤ h.len) && decide (h.len ≤ 106496)

/-- Whether code lengths satisfy R44: each at most 15, two or more codes, Kraft sum exactly 1. -/
def tableValid (lens : List Nat) : Bool :=
  lens.length == 33 && lens.all (fun n => decide (n ≤ 15)) && decide (2 ≤ (lens.filter (fun n => decide (n ≠ 0))).length) &&
  (lens.foldl (fun a n => if n = 0 then a else a + 2 ^ (15 - n)) 0 == 2 ^ 15)

/-- The 33 code lengths of a dynamic table of 17 bytes (R46). -/
def dynLens (t : List Byte) : List Nat :=
  (t.flatMap (fun b => [b.toNat / 16, b.toNat % 16])).take 33

/-- A dynamic table is valid under R46: 17 bytes, last nibble 0, lengths valid under R44. -/
def dynValid (t : List Byte) : Bool :=
  t.length == 17 && byteAt t 16 % 16 == 0 && tableValid (dynLens t)

/-- The 33 lengths of a table that gives one length to each symbol class C0 to C5 (R48). -/
def classLens (c0 c1 c2 c3 c4 c5 : Nat) : List Nat :=
  [c0] ++ List.replicate 2 c1 ++ List.replicate 4 c2 ++ List.replicate 8 c3 ++ List.replicate 16 c4 ++ List.replicate 2 c5

/-- The built-in tables 0 to 15 (R48). -/
def builtinTables : List (List Nat) :=
  [classLens 1 3 5 7 9 6, classLens 1 3 6 7 8 5, classLens 1 4 5 6 8 5, classLens 2 3 4 6 8 5,
   classLens 2 3 5 6 7 4, classLens 3 3 4 6 7 4, classLens 3 4 4 5 7 4, classLens 3 4 5 5 6 4,
   classLens 1 5 6 7 8 3, classLens 1 6 7 7 7 3, classLens 1 5 6 6 7 4, classLens 2 5 6 6 6 3,
   classLens 5 5 5 5 5 6, classLens 3 4 5 6 6 3, classLens 2 3 4 7 8 4, classLens 1 3 5 8 9 5]

/-- The static table an index names (R47), given the image tables that boot loaded (index 16 to 31). -/
def staticTable (image : List (Nat × List Nat)) (i : Nat) : Option (List Nat) :=
  if i < 16 then builtinTables[i]?
  else (image.find? (fun e => e.1 == i)).map (·.2)

/-- The symbols of each length 1 to 15, in increasing symbol order (R45). -/
def symsByLen (lens : List Nat) : List (List Nat) :=
  ((List.range 15).map (fun n => (List.range 33).filter (fun s => lens.getD s 0 == n + 1)))

/-- The canonical walk of R45: at each length the codes run on from those of every shorter length. -/
def decodeSym : List (List Nat) → Nat → Nat → List Bool → Option (Nat × List Bool)
  | _, _, _, [] => none
  | [], _, _, _ => none
  | l :: ls, code, first, b :: bs =>
    let c := 2 * code + b2n b
    if c < first + l.length then some (l.getD (c - first) 0, bs)
    else decodeSym ls c (2 * (first + l.length)) bs

/-- `n` bits of the stream, the first most significant (R42); none where the stream ends (OVERRUN). -/
def takeBits : Nat → Nat → List Bool → Option (Nat × List Bool)
  | 0, acc, bs => some (acc, bs)
  | _ + 1, _, [] => none
  | n + 1, acc, b :: bs => takeBits n (2 * acc + b2n b) bs

/-- One coded sample (R50): a symbol, and after ESC the mapped residual in 10 plain bits; unfolded. -/
def takeResidual (tbl : List (List Nat)) (bs : List Bool) : Option (Int × List Bool) :=
  match decodeSym tbl 0 0 bs with
  | none => none
  | some (s, bs) =>
    match (if s = 32 then takeBits 10 0 bs else some (s, bs)) with
    | none => none
    | some (m, bs) => some ((if m % 2 = 1 then -(((m + 1) / 2 : Nat) : Int) else ((m / 2 : Nat) : Int)), bs)

/-- The predictor of R52 for one channel. -/
def predict (prd a b c : Nat) : Nat :=
  match prd with
  | 0 => a
  | 1 => b
  | 2 => if max a b ≤ c then min a b else if c ≤ min a b then max a b else a + b - c
  | _ => (clampInt ((a : Int) + b - c) 0 1023).toNat

/-- The quantiser of a STEP (R53). -/
def quantQ (step : Nat) : Nat := [2, 3, 4, 6, 8, 12, 16, 24].getD step 2

/-- The reconstruction of R53: clamped with the quantiser for colour in QUANT, modulo 1024 otherwise. -/
def reconstruct (quant alpha : Bool) (step p : Nat) (r : Int) : Nat :=
  if quant && !alpha then (clampInt ((p : Int) + r * (quantQ step : Int)) 0 1023).toNat
  else (((p : Int) + r) % 1024).toNat

/-- The header of a PRED or QUANT sub-tile with the code tables of its block. -/
structure TileMode where
  quant : Bool
  prd : Nat
  aop : Bool
  step : Nat
  tc : List (List Nat)
  ta : List (List Nat)

/-- One pixel, coded as R, G, B and then A; A is 1023 and not coded when AOP = 1 (R49). -/
def takePixel (m : TileMode) (a b c : Px) (bs : List Bool) : Option (Px × List Bool) := do
  let (rr, bs) ← takeResidual m.tc bs
  let (rg, bs) ← takeResidual m.tc bs
  let (rb, bs) ← takeResidual m.tc bs
  let r := reconstruct m.quant false m.step (predict m.prd a.r b.r c.r) rr
  let g := reconstruct m.quant false m.step (predict m.prd a.g b.g c.g) rg
  let bl := reconstruct m.quant false m.step (predict m.prd a.b b.b c.b) rb
  if m.aop then some (⟨r, g, bl, 1023⟩, bs)
  else do
    let (ra, bs) ← takeResidual m.ta bs
    some (⟨r, g, bl, reconstruct m.quant true m.step (predict m.prd a.a b.a c.a) ra⟩, bs)

/-- The pixels of one row of a sub-tile from left to right. `left` is the pixel before the row's first (none at block
column 0), `up` the row above with the pixel before it as `upLeft` (none in row 0); R51. -/
def takeRow (m : TileMode) : Nat → Option Px → Option (List Px) → Option Px → List Bool → Option (List Px × List Bool)
  | 0, _, _, _, bs => some ([], bs)
  | n + 1, left, up, upLeft, bs =>
    let b := up.bind List.head?
    let (pa, pb, pc) := match left, b with
      | none, none => (Px.clear, Px.clear, Px.clear)
      | some l, none => (l, l, l)
      | none, some u => (u, u, u)
      | some l, some u => (l, u, upLeft.getD u)
    match takePixel m pa pb pc bs with
    | none => none
    | some (p, bs) =>
      match takeRow m n (some p) (up.map List.tail) b bs with
      | none => none
      | some (ps, bs) => some (p :: ps, bs)

/-- The 16 rows of a sub-tile; `lefts` holds the last column of the sub-tile before it (empty for sub-tile 0). -/
def takeRows (m : TileMode) : Nat → Option (List Px) → List Px → Option Px → List Bool → Option (List (List Px) × List Bool)
  | 0, _, _, _, bs => some ([], bs)
  | n + 1, up, lefts, upLeft, bs =>
    match takeRow m 16 lefts.head? up upLeft bs with
    | none => none
    | some (row, bs) =>
      match takeRows m n (some row) lefts.tail lefts.head? bs with
      | none => none
      | some (rows, bs) => some (row :: rows, bs)

/-- One sub-tile: its 16 rows of 16 pixels (R49). -/
def takeTile (tc ta : List (List Nat)) (lefts : List Px) (bs : List Bool) : Option (List (List Px) × List Bool) :=
  match takeBits 2 0 bs with
  | none => none
  | some (0, bs) => some (List.replicate 16 (List.replicate 16 Px.clear), bs)
  | some (1, bs) => do
    let (r, bs) ← takeBits 10 0 bs
    let (g, bs) ← takeBits 10 0 bs
    let (b, bs) ← takeBits 10 0 bs
    let (a, bs) ← takeBits 10 0 bs
    some (List.replicate 16 (List.replicate 16 ⟨r, g, b, a⟩), bs)
  | some (mode, bs) => do
    let (prd, bs) ← takeBits 2 0 bs
    let (aop, bs) ← takeBits 1 0 bs
    let (step, bs) ← (if mode = 3 then takeBits 3 0 bs else some (0, bs))
    takeRows ⟨mode == 3, prd, aop == 1, step, tc, ta⟩ 16 none lefts none bs

/-- The sub-tiles in stream order, each appended to the 16 rows built so far (R49). -/
def takeTiles (tc ta : List (List Nat)) : Nat → List Px → List (List Px) → List Bool → Option (List (List Px) × List Bool)
  | 0, _, acc, bs => some (acc, bs)
  | n + 1, lefts, acc, bs =>
    match takeTile tc ta lefts bs with
    | none => none
    | some (rows, bs) =>
      takeTiles tc ta n (rows.map (fun r => r.getLastD Px.clear)) (List.zipWith (· ++ ·) acc rows) bs

/-- The block with every pixel (0, 0, 0, 0): a ZERO block, and a block in error as it is shown (R65). -/
def clearBlock : List (List Px) := List.replicate 16 (List.replicate 512 Px.clear)

/-- The code table that a header names for one channel: the dynamic one at `off`, or the static one. -/
def blockTable (image : List (Nat × List Nat)) (b : List Byte) (dyn : Bool) (off idx : Nat) : List (List Nat) :=
  if dyn then symsByLen (dynLens (sliceB b off 17)) else symsByLen ((staticTable image idx).getD [])

/-- Decoding of a whole block of bytes (R43, R64): the tables, the 32 sub-tiles, then the padding. -/
def decodeBlock (image : List (Nat × List Nat)) (b : List Byte) : DecodeResult :=
  let h := readBlockHdr b
  if h.zero then .ok clearBlock
  else
    let tc := blockTable image b h.dync 16 h.ctab
    let ta := blockTable image b h.dyna (16 + 17 * b2n h.dync) h.atab
    let start := 16 + 17 * b2n h.dync + 17 * b2n h.dyna
    let bits := byteBitsMsb (sliceB b start (h.len - start))
    match takeTiles tc ta 32 [] (List.replicate 16 []) bits with
    | none => .overrun
    | some (rows, rest) => if rest.length < 8 && rest.all (· == false) then .ok rows else .trailing

/-- Check 4 of R62: CTAB and ATAB name present static tables, or are 0 where the dynamic table replaces them. -/
def tablesPresent (image : List (Nat × List Nat)) (h : BlockHdr) : Bool :=
  (if h.dync then h.ctab == 0 else (staticTable image h.ctab).isSome) &&
  (if h.dyna then h.atab == 0 else (staticTable image h.atab).isSome)

/-- Check 5 of R62: each dynamic table lies within the first LEN bytes and meets R46. -/
def dynTablesOk (h : BlockHdr) (b : List Byte) : Bool :=
  decide (16 + 17 * (b2n h.dync + b2n h.dyna) ≤ (if h.dync || h.dyna then h.len else 16 + 17 * 2)) &&
  (!h.dync || dynValid (sliceB b 16 17)) && (!h.dyna || dynValid (sliceB b (16 + 17 * b2n h.dync) 17))

/-- ceil(W / 512) block columns of a plane (R38). -/
def ncolOf (w : Nat) : Nat := ceilDiv w 512

/-- ceil(H / 16) bands of a plane (R38). -/
def nbandOf (h : Nat) : Nat := ceilDiv h 16

end Sys2Proof.Machine
end

