-- ==== Sys2Proof/Machine/Ray.lean ====
section
/-! DEFINITION. Ray synthesis (04_ray_synthesis.md): tap preparation, the polyphase and bilinear filters, front-to-back
compositing with early termination, the coefficient pages and the line-pool arithmetic. -/

namespace Sys2Proof.Machine

/-- A coefficient page: words of R84 by page offset / 4; unlisted words hold the linear kernel of R86. -/
abbrev CoefPage := SMap W32

/-- The word of the linear kernel at a page word index (R86): axis and bank do not matter. -/
def coefDefault (i : Nat) : W32 :=
  let p := (i / 2) % 64
  if i % 2 = 0 then BitVec.ofNat 32 (((64 - p) * 256) * 65536) else BitVec.ofNat 32 (p * 256)

/-- Coefficient of tap i at bank f, axis a, phase p: s2.14 (R84). -/
def coefTap (pg : CoefPage) (f a p i : Nat) : Int :=
  let w := (SMap.get coefDefault pg ((1024 * f + 512 * a + 8 * p + 4 * (i / 2)) / 4)).toNat
  sInt 16 (if i % 2 = 0 then w % 65536 else w / 65536)

/-- A prepared tap: premultiplied linear colour and alpha, u1.18 (R79). -/
structure LinTap where
  r : Int
  g : Int
  b : Int
  a : Int
  deriving DecidableEq, Repr

def LinTap.zero : LinTap := ⟨0, 0, 0, 0⟩

/-- R79: `lut c v` is the layer's pre-blend LUT. -/
def prepTap (lut : Nat → Nat → Nat) (t : Px) : LinTap :=
  let a11 := t.a + t.a / 512
  let pm := fun c v => (((lut c v) * a11 + 512) / 1024 : Nat)
  ⟨(pm 0 t.r : Int), (pm 1 t.g : Int), (pm 2 t.b : Int), ((a11 * 256 : Nat) : Int)⟩

/-- Weighted sum of taps, per channel. -/
def LinTap.axpy (k : Int) (t acc : LinTap) : LinTap :=
  ⟨acc.r + k * t.r, acc.g + k * t.g, acc.b + k * t.b, acc.a + k * t.a⟩

/-- A sample leaving a plane lane: premultiplied colour and alpha, each clamped (R80). -/
structure Sample where
  r : Nat
  g : Nat
  b : Nat
  a : Nat
  deriving DecidableEq, Repr

/-- The clamps of R80: alpha to 0..1, every colour to 0..alpha. -/
def clampSample (s : LinTap) : Sample :=
  let a := clampInt s.a 0 (2 ^ 18)
  let c := fun v => (clampInt v 0 a).toNat
  ⟨c s.r, c s.g, c s.b, a.toNat⟩

/-- The polyphase sample of R80 over 16 prepared taps (four rows of four). -/
def planeSample (pg : CoefPage) (filt px py : Nat) (taps : List (List LinTap)) : Sample :=
  let acc := (taps.zipIdx).foldl (fun acc (row, j) =>
    (row.zipIdx).foldl (fun acc (t, i) =>
      LinTap.axpy (coefTap pg filt 1 py j * coefTap pg filt 0 px i) t acc) acc) LinTap.zero
  let sh := fun v : Int => (v + 2 ^ 27) / 2 ^ 28
  clampSample ⟨sh acc.r, sh acc.g, sh acc.b, sh acc.a⟩

/-- The bilinear sample of R81 over four prepared taps (two rows of two). -/
def overlaySample (px py : Nat) (taps : List (List LinTap)) : Sample :=
  let w := fun (i j : Nat) => (((if i = 0 then 64 - px else px) * (if j = 0 then 64 - py else py) : Nat) : Int)
  let acc := (taps.zipIdx).foldl (fun acc (row, j) =>
    (row.zipIdx).foldl (fun acc (t, i) => LinTap.axpy (w i j) t acc) acc) LinTap.zero
  let sh := fun v : Int => (v + 2048) / 4096
  clampSample ⟨sh acc.r, sh acc.g, sh acc.b, sh acc.a⟩

/-- A ray's accumulator (R70): colour u2.18, transmittance u1.20, the terminated flag, and the entries composited. -/
structure RayAcc where
  r : Nat
  g : Nat
  b : Nat
  t : Nat
  done : Bool
  n : Nat
  deriving DecidableEq, Repr

/-- The start of a row (R82). -/
def RayAcc.init : RayAcc := ⟨0, 0, 0, 2 ^ 20, false, 0⟩

/-- One sample composited (R82); a terminated ray is not sampled (R76). -/
def RayAcc.step (tMin : Nat) (acc : RayAcc) (s : Sample) : RayAcc :=
  if acc.done then acc
  else
    let add := fun c v => c + (acc.t * v + 2 ^ 19) / 2 ^ 20
    let t := (acc.t * (2 ^ 18 - s.a) + 2 ^ 17) / 2 ^ 18
    ⟨add acc.r s.r, add acc.g s.g, add acc.b s.b, t, decide (t ≤ tMin), acc.n + 1⟩

/-- A linear colour triple, u1.18. -/
structure Rgb where
  r : Nat
  g : Nat
  b : Nat
  deriving DecidableEq, Repr

/-- A background field as u1.18 (R83). -/
def bgLin (v : Nat) : Nat := (v + v / 512) * 256

/-- The end of a row for one ray (R83): background behind an unterminated ray, then the clamp. -/
def RayAcc.finish (bg : Rgb) (acc : RayAcc) : Rgb :=
  let add := fun c v => if acc.done then c else c + (acc.t * bgLin v + 2 ^ 19) / 2 ^ 20
  let lim := fun c => min c (2 ^ 18)
  ⟨lim (add acc.r bg.r), lim (add acc.g bg.g), lim (add acc.b bg.b)⟩

/-- Pool units of a scene plane or Fallow layer of width w and vertical bound vb (R87). -/
def lineUnits (w vb : Nat) : Nat := ncolOf w * (ceilDiv (2 * vb + 6) 16 + 1)

/-- Bands of units a plane layer holds per block column (R87). -/
def lineBands (vb : Nat) : Nat := ceilDiv (2 * vb + 6) 16 + 1

/-- Pool units of an overlay (R87). -/
def ovlUnits (w vb : Nat) : Nat := ncolOf w * (ceilDiv (2 * vb + 4) 16 + 1)

/-- Bands of units an overlay holds per block column (R87). -/
def ovlBands (vb : Nat) : Nat := ceilDiv (2 * vb + 4) 16 + 1

/-- The centre row of a ray's hogel row under the diagnostic clamp (R91). -/
def clampCentre (p : Placement) (hy : Nat) : Int :=
  (p.oy * 2 ^ 19 + (p.ky : Int) * (2 * (hy : Int) + 1) * 2 ^ 12 - 2 ^ 24) / 2 ^ 25

/-- One vertical tap row before R33: clamped under R91 when `vc` holds a bound. `extra` is 2 for planes, 1 for overlays. -/
def clampTapRow (vc : Option Nat) (yc extra row : Int) : Int :=
  match vc with
  | none => row
  | some v => clampInt row (yc - v - 1) (yc + v + extra)

/-- The vertical tap rows of a layer for an emitter row, before R33: by − 1 to by + 2 for a plane, by and by + 1 for an
overlay (R32, R34), clamped under R91. -/
def vertTaps (g : Geom) (p : Placement) (overlay : Bool) (vc : Option Nat) (y : Nat) : List Int :=
  let hv := hogelOf g 0 y
  let a := axisCoord (coord64 p.oy p.ky p.dy hv.hy hv.dv2) p.h p.clampY
  let yc := clampCentre p hv.hy
  if overlay then [0, 1].map (fun k => clampTapRow vc yc 1 (a.base + k))
  else [-1, 0, 1, 2].map (fun k => clampTapRow vc yc 2 (a.base + k))

/-- Whether R91 moved any tap row of a layer for an emitter row. -/
def tapsClamped (g : Geom) (p : Placement) (overlay : Bool) (vc : Option Nat) (y : Nat) : Bool :=
  decide (vertTaps g p overlay vc y ≠ vertTaps g p overlay none y)

/-- The bands that an emitter row's vertical taps reach in a layer (R32, R33, R453). -/
def bandsOfRow (g : Geom) (p : Placement) (overlay : Bool) (vc : Option Nat) (y : Nat) : List Nat :=
  ((vertTaps g p overlay vc y).filterMap (tapIndex p.h p.clampY)).map (fun r => r / 16)

/-- The need row of a band: the first emitter row whose taps include a row of it (R453). -/
def needRow (g : Geom) (p : Placement) (overlay : Bool) (vc : Option Nat) (band : Nat) : Option Nat :=
  findBelow g.hp (fun y => (bandsOfRow g p overlay vc y).contains band)

/-- The last emitter row whose taps include a row of the band (R90). -/
def lastNeedRow (g : Geom) (p : Placement) (overlay : Bool) (vc : Option Nat) (band : Nat) : Option Nat :=
  ((List.range g.hp).filter (fun y => (bandsOfRow g p overlay vc y).contains band)).getLast?

/-- The column range and row range of a layer's footprint for a row segment (R73), cut to the layer or clamped to it;
none where it lies wholly outside. -/
def footprint (geo : Geom) (p : Placement) (overlay : Bool) (vc : Option Nat) (g y : Nat) :
    Option ((Nat × Nat) × (Nat × Nat)) :=
  let hx0 : Int := ((480 * g / geo.w + geo.hx0 : Nat) : Int)
  let hx1 : Int := hx0 + ((480 / geo.w : Nat) : Int) - 1
  let lo25 : Int := p.ox * 2 ^ 6 + (p.kx : Int) * hx0
  let hi25 : Int := p.ox * 2 ^ 6 + (p.kx : Int) * (hx1 + 1)
  let xlo : Int := lo25 / 2 ^ 12 - (p.hbound : Int) - 2
  let xhi : Int := -((-hi25) / 2 ^ 12) + (p.hbound : Int) + 2
  let taps := vertTaps geo p overlay vc y
  let ylo : Int := taps.foldl min (taps.headD 0)
  let yhi : Int := taps.foldl max (taps.headD 0)
  let cut := fun (lo hi : Int) (n : Nat) (cl : Bool) =>
    if cl then some ((clampInt lo 0 ((n : Int) - 1)).toNat, (clampInt hi 0 ((n : Int) - 1)).toNat)
    else
      let lo := max lo 0
      let hi := min hi ((n : Int) - 1)
      if lo ≤ hi then some (lo.toNat, hi.toNat) else none
  match cut xlo xhi p.w p.clampX, cut ylo yhi p.h p.clampY with
  | some a, some b => some (a, b)
  | _, _ => none

end Sys2Proof.Machine
end

