-- ==== Sys2Proof/Machine/Colour.lean ====
section
/-! DEFINITION. The colour pipeline and emitter calibration (06_colour_and_calibration.md): the LUT page, post-blend
interpolation, the panel-primary matrix, zone temperature correction, the emitter calibration map, dither and encoding. -/

namespace Sys2Proof.Machine

/-- A LUT page: words by page offset / 4; unlisted words hold the identity content of R138. -/
abbrev LutPage := SMap W32

/-- The identity content of R138 at a page word index; reserved words read 0 (R135). -/
def lutDefault (i : Nat) : W32 :=
  let o := 4 * i
  if o < 0x30000 then BitVec.ofNat 32 ((((o % 0x1000) / 4) * 262143 + 511) / 1023)
  else if o < 0x3C000 then BitVec.ofNat 32 (64 * (((o - 0x30000) % 0x4000) / 4))
  else if 0x3C200 ≤ o ∧ o < 0x3C224 then
    (if ((o - 0x3C200) / 4) % 4 = 0 then 0x4000#32 else 0#32)
  else if 0x3C300 ≤ o ∧ o < 0x3C400 then
    let s := (o - 0x3C300) / 32
    let n := ((o - 0x3C300) / 4) % 8
    if n = 0 then BitVec.ofNat 32 (15 * s * 16) else if n ≤ 3 then 0x8000#32 else 0#32
  else 0#32

/-- The bits of a page word that hold its field (R135); a reserved word holds none. -/
def lutMask (o : Nat) : Nat :=
  if o < 0x30000 then 0x3FFFF
  else if o < 0x3C000 then 0x7FFFF
  else if o < 0x3C120 then 0xF
  else if 0x3C200 ≤ o ∧ o < 0x3C224 then 0xFFFF
  else if 0x3C300 ≤ o ∧ o < 0x3C400 then
    let n := ((o - 0x3C300) / 4) % 8
    if n ≤ 3 then 0xFFFF else if n ≤ 6 then 0xFFF else 0
  else 0

def lutWord (pg : LutPage) (o : Nat) : Nat := (SMap.get lutDefault pg (o / 4)).toNat

/-- LUT_pre[layer][ch][v] (R139): table PRE_MAP[layer], no interpolation. -/
def lutPre (pg : LutPage) (layer c v : Nat) : Nat :=
  let t := lutWord pg (0x3C000 + 4 * layer) % 16
  lutWord pg (0x3000 * t + 0x1000 * c + 4 * v) % 2 ^ 18

/-- A post-blend entry, limited to 1.0 (R135, R140). -/
def postEntry (pg : LutPage) (c j : Nat) : Nat := min (lutWord pg (0x30000 + 0x4000 * c + 4 * j)) 0x40000

/-- Post-blend interpolation of one channel (R140). -/
def postBlend (pg : LutPage) (c x : Nat) : Nat :=
  let i := min (x / 64) 4095
  let f : Nat := if 4095 < x / 64 then 64 else x % 64
  let e0 : Int := (postEntry pg c i : Int)
  let e1 : Int := if i < 4095 then (postEntry pg c (i + 1) : Int) else (postEntry pg c 4095 : Int)
  (e0 + ((e1 - e0) * (f : Int) + 32) / 64).toNat

/-- The matrix entry M[c][k], s2.14 (R135). -/
def matEntry (pg : LutPage) (c k : Nat) : Int := sInt 16 (lutWord pg (0x3C200 + 12 * c + 4 * k))

/-- One output channel of the matrix (R141). -/
def matChan (pg : LutPage) (p : Rgb) (c : Nat) : Nat :=
  let acc := matEntry pg c 0 * p.r + matEntry pg c 1 * p.g + matEntry pg c 2 * p.b
  (clampInt ((acc + 2 ^ 13) / 2 ^ 14) 0 (2 ^ 18)).toNat

/-- Set-point temperature T[s], s12.4 (R135). -/
def setPointT (pg : LutPage) (s : Nat) : Int := sInt 16 (lutWord pg (0x3C300 + 32 * s))
/-- Gain KT[s][c], u1.15. -/
def setPointK (pg : LutPage) (s c : Nat) : Int := (lutWord pg (0x3C300 + 32 * s + 4 * (1 + c)) % 65536 : Nat)
/-- Offset OT[s][c], s12.0. -/
def setPointO (pg : LutPage) (s c : Nat) : Int := sInt 12 (lutWord pg (0x3C300 + 32 * s + 4 * (4 + c)))

/-- A zone's latched temperature, set index and weight (R142, R143). -/
structure ZoneSet where
  temp : Int
  s : Nat
  w : Nat
  deriving DecidableEq, Repr

/-- The set index and weight of a temperature (R143). -/
def zoneSet (pg : LutPage) (t : Int) : ZoneSet :=
  if t < setPointT pg 0 then ⟨t, 0, 0⟩
  else if setPointT pg 7 ≤ t then ⟨t, 6, 256⟩
  else
    let s := (((List.range 7).filter (fun s => decide (setPointT pg s ≤ t))).getLast?).getD 0
    ⟨t, s, (((t - setPointT pg s) * 256) / (setPointT pg (s + 1) - setPointT pg s)).toNat⟩

/-- Interpolation with an arithmetic shift (R143, R167): a + ((b − a) · w + 128) >> 8. -/
def lerp8 (a b : Int) (w : Nat) : Int := a + ((b - a) * (w : Int) + 128) / 256

/-- Zone temperature correction of one channel (R145). -/
def zoneChan (pg : LutPage) (z : ZoneSet) (c q : Nat) : Nat :=
  let k := lerp8 (setPointK pg z.s c) (setPointK pg (z.s + 1) c) z.w
  let o := lerp8 (setPointO pg z.s c) (setPointO pg (z.s + 1) c) z.w
  let v := ((q : Int) * k + 2 ^ 14) / 2 ^ 15
  let v := if q = 0 then v else v + o * 16
  (clampInt v 0 (2 ^ 18)).toNat

/-- COL: post-blend, matrix, zone correction (R140, R141, R145). -/
def colourRay (pg : LutPage) (z : ZoneSet) (x : Rgb) : Rgb :=
  let p : Rgb := ⟨postBlend pg 0 x.r, postBlend pg 1 x.g, postBlend pg 2 x.b⟩
  ⟨zoneChan pg z 0 (matChan pg p 0), zoneChan pg z 1 (matChan pg p 1), zoneChan pg z 2 (matChan pg p 2)⟩

/-- What EMC applies to a row segment: the substitution of R152, or a segment record's bytes with its format. -/
inductive CalSeg where
  | neutral
  | record (headerOnly : Bool) (bytes : List Byte)
  deriving DecidableEq, Repr

/-- Base gain of channel c (R150). -/
def segGBase (b : List Byte) (c : Nat) : Nat := leAt b (2 * c) 2
/-- Gain delta shift of channel c (R150). -/
def segGSh (b : List Byte) (c : Nat) : Nat := bitsOf (leAt b 4 4) (19 + 4 * c) (16 + 4 * c)
/-- Offset triple k, channel c (R150). -/
def segOfs (b : List Byte) (k c : Nat) : Int := sInt 12 (leAt b 8 20 >>> (12 * (3 * k + c)))
/-- The 14-bit field of emitter e (R151); 0 in the header-only format (R149). -/
def segField (b : List Byte) (headerOnly : Bool) (e : Nat) : Nat :=
  if headerOnly then 0 else (leAt b (32 + 14 * e / 8) 3 >>> (14 * e % 8)) % 2 ^ 14

/-- Whether word 7 names the row segment (R154). -/
def segTagOk (b : List Byte) (y g : Nat) : Bool :=
  bitsOf (leAt b 28 4) 30 16 == y && bitsOf (leAt b 28 4) 6 0 == g

/-- EMC on one channel of emitter e (R152). -/
def emcChan (seg : CalSeg) (e c t : Nat) : Nat :=
  match seg with
  | .neutral => (clampInt (((t : Int) * 0x8000 + 2 ^ 14) / 2 ^ 15) 0 (2 ^ 18)).toNat
  | .record ho b =>
    let f := segField b ho e
    let gain := clampInt ((segGBase b c : Int) + sInt 4 (f >>> (4 * c)) * ((2 ^ segGSh b c : Nat) : Int)) 0 0xFFFF
    let v := ((t : Int) * gain + 2 ^ 14) / 2 ^ 15
    let v := if t = 0 then v else v + segOfs b (f / 4096) c * 16
    (clampInt v 0 (2 ^ 18)).toNat

/-- EMC on a ray (R152). -/
def emcRay (seg : CalSeg) (e : Nat) (t : Rgb) : Rgb :=
  ⟨emcChan seg e 0 t.r, emcChan seg e 1 t.g, emcChan seg e 2 t.b⟩

/-- The ordered-dither matrix of R156, BAYER[yi][xi]. -/
def bayer (yi xi : Nat) : Nat :=
  (([[0, 8, 2, 10], [12, 4, 14, 6], [3, 11, 1, 9], [15, 7, 13, 5]] : List (List Nat)).getD yi []).getD xi 0

/-- The dither threshold of R156; `k` is bits [1:0] of the turn number. -/
def ditherOf (mode k x y c : Nat) : Nat :=
  if mode = 0 then 128
  else
    let ox := if mode = 2 then 0 else [0, 2, 2, 0].getD k 0
    let oy := if mode = 2 then 0 else [0, 2, 0, 2].getD k 0
    16 * bayer ((y + oy + c) % 4) ((x + ox + c) % 4) + 8

/-- The code of one channel (R157); `fs` are the four full-scale fields, 0 acting as 1. -/
def encodeChan (fs : List Nat) (d v : Nat) : Nat :=
  if v = 0 then 0
  else
    let f := fun r => max (fs.getD r 0x40000) 1
    let r := if v ≤ f 0 then 0 else if v ≤ f 1 then 1 else if v ≤ f 2 then 2 else 3
    let mfx := (v * 65280) / f r
    let m := min ((mfx + d) / 256) 255
    if m = 0 then 0 else r * 256 + m

end Sys2Proof.Machine
end

