-- ==== Sys2Proof/Machine/Drive.lean ====
section
/-! DEFINITION. Panel drive (07_panel_drive_and_ledger.md): the ray word, the ledger update, timing-set validity, the
Clover phases and the gate outputs. -/

namespace Sys2Proof.Machine

/-- A ray word (R159). -/
def rayWord (k : Nat) (r g b : Nat) : W32 :=
  BitVec.ofNat 32 ((k % 4) * 2 ^ 30 + (b % 1024) * 2 ^ 20 + (g % 1024) * 2 ^ 10 + r % 1024)

/-- The stress and unit tables of a turn: DRV_STRESS as 40 words, DRV_UNIT as 2 words (07, "Ledger update"). -/
structure StressTables where
  st : List W32
  ut : List W32
  deriving DecidableEq, Repr

/-- ST[s][b], s8.0: five words per set point, the last holding one entry. -/
def StressTables.stAt (t : StressTables) (s b : Nat) : Int :=
  sInt 8 ((t.st.getD (5 * s + b / 4) 0).toNat >>> (8 * (b % 4)))

/-- UT[s], u8.0. -/
def StressTables.utAt (t : StressTables) (s : Nat) : Int :=
  (((t.ut.getD (s / 4) 0).toNat >>> (8 * (s % 4))) % 256 : Nat)

/-- The brightness class b of R167. -/
def stressClass (r g b : Nat) : Nat := if r = 0 ∧ g = 0 ∧ b = 0 then 0 else 1 + (max r (max g b)) / 64

/-- R167 before the last clamp: the recovery step k of one emitter and L + S − U·k. -/
def ledgerRaw (t : StressTables) (z : ZoneSet) (r g b : Nat) (l : Int) : Nat × Int :=
  let c := stressClass r g b
  let s := lerp8 (t.stAt z.s c) (t.stAt (z.s + 1) c) z.w
  let u := lerp8 (t.utAt z.s) (t.utAt (z.s + 1)) z.w
  let u := if u = 0 then 1 else u
  let k := clampInt (roundDiv (l + s) u) 0 3
  (k.toNat, l + s - u * k)

/-- R167: the recovery step k and the new ledger entry L' of one emitter. -/
def ledgerStep (t : StressTables) (z : ZoneSet) (r g b : Nat) (l : Int) : Nat × Int :=
  let e := ledgerRaw t z r g b l
  (e.1, clampInt e.2 (-128) 127)

/-- The fields of a timing set that validity and scan-out use (R14, R117, R162, R165). -/
structure Timing where
  rowCyc : Nat
  blank : Nat
  active : Nat
  npwmLog2 : Nat
  recoverRows : Nat
  emitRows : Nat
  offset : Nat
  n : Nat
  d : Nat
  goutCfg : List Nat
  goutEdge : List Nat
  goutRow : List Nat
  deriving DecidableEq, Repr

/-- Row slots of a turn (R160). -/
def Timing.slots (t : Timing) : Nat := t.active + t.blank

/-- Row time in units of 1/(10·N) ns: ROW_CYC · D / (156.25 MHz · N) (R392). -/
def Timing.rowUnits (t : Timing) : Nat := t.rowCyc * t.d * 64

/-- R165 for one gate output. -/
def goutValid (t : Timing) (i : Nat) : Bool :=
  let cfg := t.goutCfg.getD i 0
  let mode := bitsOf cfg 31 30
  let on := bitsOf (t.goutEdge.getD i 0) 11 0
  let off := bitsOf (t.goutEdge.getD i 0) 27 16
  if mode = 1 ∨ mode = 2 then
    decide (on < off) && decide (off ≤ t.rowCyc) && decide (bitsOf cfg 10 8 ≤ bitsOf cfg 18 16) &&
    decide (bitsOf (t.goutRow.getD i 0) 14 0 ≤ t.slots - 1) && (!bitOf cfg 26 || bitsOf cfg 29 28 == 1)
  else true

/-- Validity of a timing set (R14, R117, R162, R165, R392), given the synthesis lead and the ledger's ROW0. -/
def timingValid (t : Timing) (lead row0 : Nat) : Bool :=
  decide (lead + 16 ≤ t.blank) && decide (8786 * t.n ≤ t.rowUnits) &&
  decide (t.offset + lead + 16 ≤ t.blank) &&
  decide (2 ^ t.npwmLog2 ≤ t.emitRows) && decide (t.emitRows % 2 ^ t.npwmLog2 = 0) &&
  decide (1 ≤ t.recoverRows) && decide (t.emitRows + t.recoverRows + 2 ≤ t.slots) &&
  decide (row0 + t.active ≤ 17280) && decide (1 ≤ t.active) && decide (1 ≤ t.blank) &&
  (List.range 16).all (goutValid t)

/-- The Clover phase of a row in a slot. -/
inductive CloverPhase where
  | program | emit | recover | rest
  deriving DecidableEq, Repr

/-- The phase of active row r in slot q of the turn, slots continuing modulo N (R161). -/
def cloverPhase (t : Timing) (r q : Nat) : CloverPhase :=
  let n := t.slots
  let e := (q + n - (r + 1) % n) % n
  if e = 0 then .program else if e ≤ t.emitRows then .emit
  else if e ≤ t.emitRows + t.recoverRows then .recover else .rest

/-- Whether gate output i selects slot q (R164). -/
def goutSelects (t : Timing) (i q : Nat) : Bool :=
  let cfg := t.goutCfg.getD i 0
  let row := bitsOf (t.goutRow.getD i 0) 14 0
  match bitsOf cfg 31 30 with
  | 0 => false
  | 1 =>
    let per := bitsOf cfg 18 16 + 1
    decide ((q + per - bitsOf cfg 10 8 % per) % per = 0) &&
    (bitOf cfg 25 || (decide (1 ≤ q) && decide (q ≤ t.active)))
  | 2 =>
    q == row ||
    (bitOf cfg 26 && (List.range (2 ^ t.npwmLog2)).any (fun k => k != 0 && q == (row + k * (t.emitRows / 2 ^ t.npwmLog2)) % t.slots))
  | _ => true

/-- Whether gate output i is active in TIME cycle c of slot q: cycles ON to OFF − 1 of a selected slot; in LEVEL every cycle of every
slot, however long the slot is (R164). -/
def goutActive (t : Timing) (i q c : Nat) : Bool :=
  goutSelects t i q && (bitsOf (t.goutCfg.getD i 0) 31 30 == 3 ||
    (decide (bitsOf (t.goutEdge.getD i 0) 11 0 ≤ c) && decide (c < bitsOf (t.goutEdge.getD i 0) 27 16)))

end Sys2Proof.Machine
end

