-- ==== Sys2Proof/Machine/Types2.lean ====
section
/-! DEFINITION. The state of the scene and synthesis blocks: layers and commits, timing sets, the line pool, the
clusters and the drive of a turn. -/

namespace Sys2Proof.Machine

/-- A timing set of the image (R371): its TIM values, its geometry, its TIME ratio, the ledger's ROW0 and the register
loads of its CALSET record, with the calibration generation that record assigns. -/
structure TSet where
  tset : Nat
  timing : Timing
  geom : Geom
  row0 : Nat
  /-- TIM, SYN geometry and DRV register values to load, by register address -/
  timLoads : List (Nat × W32)
  synLoads : List (Nat × W32)
  drvLoads : List (Nat × W32)
  calGen : Option Nat
  calArea : Nat
  deriving DecidableEq, Repr

/-- LYR: groups, commits, fences' outcomes, the turn and the Fallow cache (05_layers_commits_flips.md). -/
structure Lyr where
  /-- the 48-bit turn number -/
  turn : Nat
  /-- a latch row has opened a turn since TIM started from a power-up (R122) -/
  opened : Bool
  flipTime : Nat
  /-- the latch instant of the current turn, in 2^-16 ns of the time base -/
  latchTime : Nat
  groups : List (Option GroupShow)
  commits : List Commit
  ids : List CommitRec
  layerSet : List TurnLayer
  /-- a quiet turn is open (R131) -/
  quiet : Bool
  /-- fade factor u1.18 of R121, 2^18 for no fade -/
  fade : Nat
  mode : ModePhase
  modeTarget : Nat
  modeCommit : Option Nat
  /-- the head's MODE cell is issued; the change starts at the next latch row (R130, R293) -/
  modeSent : Bool
  modeGo : Bool
  /-- TIM, DRV and CLK_TIME_CFG values written in Q2 that become live at the new timing (R132) -/
  pendLoads : List (Nat × W32)
  /-- a START (true) or STOP held during the mode change (R454) -/
  heldSyn : Option Bool
  heldDrv : Option Bool
  entries : List FallowEntry
  jobs : List FallowJob
  drops : List Nat
  /-- LYR_REPEAT_CFG and fence_timeout in force at the latch row that opened the turn (R115, R121) -/
  repeatCfg : W32
  fenceLim : Nat
  /-- the commits' groups whose wait counts advanced at that latch row, as (commit, group) (R115) -/
  waited : List (Nat × Nat)
  /-- the model's own count of declarations and commits taken -/
  count : Nat
  deriving DecidableEq, Repr

/-- A decoded block in the line pool (R65, R90): layer position in the turn's layer set, band, block column, rows. -/
structure PoolBlock where
  layer : Nat
  band : Nat
  col : Nat
  rows : List (List Px)
  deriving DecidableEq, Repr

/-- A band of overlay rows in the overlay store (R90). -/
structure OvlBand where
  layer : Nat
  band : Nat
  rows : List (List Px)
  deriving DecidableEq, Repr

/-- One synthesis cluster's row scheduler: the next row to start and when its last pass ends, in 1/(10·N) ns from T_0 of
the turn (R77). -/
structure Cluster where
  next : Nat
  busy : Int
  deriving DecidableEq, Repr

/-- A finished row segment in the row-streamer FIFO. -/
structure RowSeg where
  row : Nat
  group : Nat
  words : List W32
  deriving DecidableEq, Repr

/-- SYN and DEC: the decode order of the turn, the decoders, the line pool, the overlay store, the clusters and the
row streamer (03, 04). -/
structure Syn where
  order : List (Nat × Nat × Nat)
  decoders : List (Option (Nat × Nat × Nat))
  /-- the block that each decoder fetches into its input buffer, one ahead of the block it decodes (R307) -/
  ahead : List (Option (Nat × Nat × Nat))
  pool : List PoolBlock
  late : List (Nat × Nat × Nat)
  ovl : List OvlBand
  clusters : List Cluster
  hist : List Nat
  peff : Nat
  fifo : List RowSeg
  deriving DecidableEq, Repr

/-- The tables latched for a turn (R15): COL's zone sets, DRV's tables, the timing whose phases the rows run. -/
structure TurnTables where
  zones : List ZoneSet
  stress : StressTables
  fs : List Nat
  dither : Nat
  timing : Timing
  geom : Geom
  tMin : Nat
  bg : Rgb
  lead : Nat
  synRun : Bool
  drvRun : Bool
  mapGen : Nat
  vcap : Option Nat
  deriving DecidableEq, Repr

/-- DRV: saturation counts of the turn being encoded and each row's saturated columns (R172). -/
structure Drv where
  satHi : Nat
  satLo : Nat
  /-- (row, column groups encoded, least saturated column) -/
  rowSat : List (Nat × Nat × Option Nat)
  deriving DecidableEq, Repr

end Sys2Proof.Machine
end

