-- ==== Sys2Proof/Machine/Types3.lean ====
section
/-! DEFINITION. Packets, ingest ports, attachments and the session (09_ingest_link.md, 10_scene_sessions.md). -/

namespace Sys2Proof.Machine

/-- A packet header (R221). -/
structure Hdr where
  ty : Nat
  auth : Bool
  enc : Bool
  retx : Bool
  xd : Bool
  keyph : Nat
  len : Nat
  seq : Nat
  xdep : Nat
  sid : Nat
  tsf : List Byte
  stamp : Nat
  deriving DecidableEq, Repr

/-- A packet: header, payload and tag (R219). -/
structure Pkt where
  hdr : Hdr
  payload : List Byte
  tag : List Byte
  deriving DecidableEq, Repr

/-- A received packet held in the window until it is processed (R231). A refused packet counts as received and is
passed over. `joined` is the version of the assembly that a BLOCK fragment joined on arrival (R225), and 0 on a bond HELLO
whose tag verified on arrival (R253). -/
structure HeldPkt where
  pkt : Pkt
  refused : Bool
  joined : Option Nat
  deriving DecidableEq, Repr

/-- A device packet awaiting acknowledgement (R239), with its retransmissions and the time of its first transmission. -/
structure SentPkt where
  pkt : Pkt
  tries : Nat
  firstAt : Nat
  deriving DecidableEq, Repr

/-- A sequenced packet that waits because 256 are unacknowledged (R239). -/
structure WaitPkt where
  ty : Nat
  tsf : List Byte
  payload : List Byte
  deriving DecidableEq, Repr

/-- An ingest port's packet layer (R223, R230, R231, R239). Lane state stands in the ING registers. -/
structure IngPort where
  /-- NEXT: the lowest sequence number not yet received -/
  rxNext : Nat
  /-- the next sequence number to process -/
  procNext : Nat
  /-- received and not yet processed, in rising sequence order -/
  held : List (Nat × HeldPkt)
  /-- sequenced packets received that no ACK has covered -/
  uncovered : Nat
  echo : Nat
  txNext : Nat
  unacked : List SentPkt
  waiting : List WaitPkt
  /-- ALIGN count of the back-channel (R216) -/
  align : Nat
  /-- the packets the back-channel has sent, oldest first -/
  wire : List Pkt
  /-- the ALIGN blocks the back-channel has sent, oldest first; they are not part of its stream (R216) -/
  aligned : List (List Byte)
  /-- the microsecond of State.clock in which the last NAK packet was sent (R237) -/
  nakAt : Option Nat
  deriving DecidableEq, Repr

/-- States of an attachment, in the order of the codes of SES_ATT_STAT. -/
inductive AttState where
  | closed | hello | auth | keyed | declared | streaming | draining | degraded
  deriving DecidableEq, Repr

/-- Roles of an attachment, by the codes of SES_ATT_STAT. -/
inductive Role where
  | none | primary | standby | promoted
  deriving DecidableEq, Repr

/-- A receiving key of the phase before, while it is kept (R257): its secret, the packets authenticated under it, and the
first sequence number of the new phase on each port. -/
structure OldKey where
  sec : List Byte
  count : Nat
  firsts : List (Nat × Nat)
  deriving DecidableEq, Repr

/-- One direction's keys (R254, R257): the phase, its secret, the key of the phase before while it is kept, the packets sealed
or authenticated under the key and the time of its first packet. -/
structure KeyDir where
  phase : Nat
  sec : List Byte
  prev : Option OldKey
  count : Nat
  since : Option Nat
  dueSent : Bool
  deriving DecidableEq, Repr

/-- EVENT records (R268). -/
inductive EvRec where
  | commit (outcome reason slot groups id turn flip : Nat)
  | session (code cause port lastId slots idv shown turn : Nat)
  | blockerr (kind slot col ring tag turn : Nat)
  | device (source turn : Nat)
  deriving DecidableEq, Repr

/-- A certificate fragment received: INDEX, COUNT, CLEN, OFFSET and its bytes (R249). -/
structure CertFrag where
  index : Nat
  count : Nat
  clen : Nat
  offset : Nat
  bytes : List Byte
  deriving DecidableEq, Repr

/-- An attachment (R243): its ports, role and state, its handshake, its keys, its causes of degradation and its queue of
EVENT records. -/
structure Att where
  ports : List Nat
  sid : Nat
  role : Role
  state : AttState
  /-- the state a DEGRADED attachment left (R261) -/
  resume : AttState
  enc : Bool
  nonceS : List Byte
  nonceD : List Byte
  /-- free count that names the ephemeral private key; 0 once it is erased (R254) -/
  priv : Nat
  /-- transcript items 1, 2, 3, 5, 6, 7 as sent or received so far (R254) -/
  items : List (Nat × List Byte)
  certs : List CertFrag
  /-- INDEX of the first CERT that agrees with no chain of its COUNT and CLEN (cause 1 of R250) -/
  certBad : Option Nat
  keyshare : Option (List Byte)
  /-- sequence number of that KEYSHARE -/
  ksSeq : Nat
  rx : KeyDir
  tx : KeyDir
  finS : List Byte
  peerId : Nat
  silent : Bool
  bond : Bool
  retx : Bool
  /-- the attachment has been KEYED, so its packets are protected -/
  keyed : Bool
  /-- CLOSED, with its CLOSE still outstanding (R267): the port and sequence number of that CLOSE -/
  closing : Option (Nat × Nat)
  queue : List EvRec
  deriving DecidableEq, Repr

/-- The session (R243 to R246): its id and the 16 before it, and whether a commit of it has landed. -/
structure Ses where
  active : Bool
  sid : Nat
  recent : List Nat
  landed : Bool
  failovers : Nat
  /-- the time of the last failover, P of R264 -/
  failAt : Option Nat
  /-- attachments, by the lowest port each holds -/
  atts : List Att
  /-- (reason, detail) of the last CLOSE sent on each port -/
  closeInfo : List (Nat × Nat)
  /-- rings with a grant not yet sent in a CREDIT: (slot, ring) (R240) -/
  grants : List (Nat × Nat)
  deriving DecidableEq, Repr

end Sys2Proof.Machine
end

