-- ==== Sys2Proof/Machine/Types4.lean ====
section
/-! DEFINITION. The cascade's state: cells, ports, enumeration, the parent's ticks, broadcast channels and event records
(11_cascade.md). -/

namespace Sys2Proof.Machine

/-- A cell (R277). -/
structure Cell where
  ty : Nat
  seq : Nat
  ack : Nat
  srcNone : Bool
  src : Nat
  all : Bool
  dst : Nat
  payload : List Byte
  deriving DecidableEq, Repr

/-- One direction pair of a cascade link (R279). -/
structure CasPort where
  /-- next SEQ to send -/
  txSeq : Nat
  /-- next SEQ expected -/
  rxNext : Nat
  unacked : List Cell
  /-- cells that wait to be sent, oldest first -/
  waiting : List Cell
  align : Nat
  /-- the cells sent, oldest first -/
  wire : List Cell
  /-- the ALIGN blocks sent, oldest first, four in a period; they are not part of the stream (R216, R275) -/
  aligned : List (List Byte)
  /-- the wake bursts of 20 µs sent on transmit lane 0 (R299) -/
  bursts : Nat
  deriving DecidableEq, Repr

/-- Enumeration in progress at this device (R281): the number to give next, the downstream port whose DONE is awaited,
and whether the subtree is excluded. -/
structure EnumSt where
  next : Nat
  port : Nat
  excl : Bool
  deriving DecidableEq, Repr

/-- A BCOMMIT held for its target turn (R290, R291). -/
structure BCommit where
  kind : Nat
  arg : Nat
  target : Nat
  value : Nat
  deriving DecidableEq, Repr

/-- A copy of an overlay into a broadcast channel, on the head (R295). -/
structure BCopy where
  ovl : Nat
  slot : Nat
  w : Nat
  h : Nat
  deriving DecidableEq, Repr

/-- A broadcast channel (R294, R295): the active buffer, what the inactive one has received in order (rows complete, pixels
of the row in progress, the row width, and whether nothing was missed), the copies, and the turn of the last exchange. -/
structure Bcast where
  active : Nat
  rows : Nat
  x : Nat
  width : Option Nat
  whole : Bool
  copy : Option BCopy
  queued : Option BCopy
  lastTurn : Nat
  deriving DecidableEq, Repr

/-- An event record from the tree (R298). -/
structure TreeEvt where
  src : Nat
  source : Nat
  count : Nat
  turn : Nat
  deriving DecidableEq, Repr

/-- What the last TURN cell of KIND 0 said of the parent (R287). -/
structure Parent where
  turn : Nat
  /-- latch instant in 2^-16 ns -/
  latch : Nat
  tset : Nat
  mphase : Nat
  target : Nat
  deriving DecidableEq, Repr

/-- CAS. -/
structure Cas where
  ports : List CasPort
  enum : Option EnumSt
  held : List Cell
  bcHold : List BCommit
  chans : List Bcast
  fifo : List TreeEvt
  /-- a time base setting requested for the next latch instant, in ns (R285) -/
  setReq : Option Nat
  /-- the count is held this long, in 2^-16 ns (R285) -/
  hold : Nat
  parent : Option Parent
  /-- latest one-way delays in ps, newest first, at most 16; the estimate is valid with 16 (R286) -/
  delays : List Nat
  echoId : Nat
  /-- the ECHO requests without a reply, oldest first: the ID and the time at which each left, in 2^-16 ns (R286) -/
  echoes : List (Nat × Nat)
  /-- error left to slew, in ps -/
  slewErr : Int
  /-- downstream ports that came UP and whose child is due every system fence at its LOCKED, each with the ECHO replies sent to it since
  (R286, R303) -/
  fencesDue : List (Nat × Nat)
  /-- a twin partner's pair link is DOWN: its ray words are 0 until it is LOCKED again (R301) -/
  pairLost : Bool
  /-- the head has woken with WAKE_FWD and owes its tree a WAKE cell (R299) -/
  wakeDue : Bool
  deriving DecidableEq, Repr

/-- A cascade link after reset. -/
def CasPort.reset : CasPort := { txSeq := 0, rxNext := 0, unacked := [], waiting := [], align := 0, wire := [], aligned := [], bursts := 0 }

/-- A broadcast channel after reset. -/
def Bcast.reset : Bcast :=
  { active := 0, rows := 0, x := 0, width := none, whole := false, copy := none, queued := none, lastTurn := 0 }

/-- CAS after reset. -/
def Cas.reset : Cas :=
  { ports := List.replicate 5 CasPort.reset, enum := none, held := [], bcHold := [], chans := List.replicate 8 Bcast.reset,
    fifo := [], setReq := none, hold := 0, parent := none, delays := [], echoId := 0, echoes := [],
    slewErr := 0, fencesDue := [], pairLost := false, wakeDue := false }

end Sys2Proof.Machine
end

