-- ==== Sys2Proof/Machine/Types5.lean ====
section
/-! DEFINITION. The control plane's state: mailboxes, Heath's services and the job engine (13_control_plane.md). -/

namespace Sys2Proof.Machine

/-- A mailbox (R338 to R347): the message in IN with the device or port it came from, the EPOCH and MSEQ of the last
message placed, a request that Heath has taken and not yet run with the device it came from, the message in OUT with the
device it is for, Heath's next MSEQ, and Heath's unsent responses, oldest first, each with its destination. -/
structure Box where
  inMsg : Option (List Byte)
  inFrom : Nat
  last : Option (Nat × Nat)
  req : Option (Nat × List Byte)
  outMsg : Option (List Byte)
  outDst : Nat
  outSeq : Nat
  responses : List (Nat × List Byte)
  deriving DecidableEq, Repr

/-- Where a service request came from: the box, the device of a cascade box, and its RID (R346). -/
structure ReqFrom where
  box : Nat
  dev : Nat
  rid : Nat
  deriving DecidableEq, Repr

/-- A calibration-map load in progress (R147, R382): the request, the eMMC area, the generation it fills, and SWAP. -/
structure MapLoad where
  req : Option ReqFrom
  area : Nat
  gen : Nat
  swap : Bool
  deriving DecidableEq, Repr

/-- A ledger save in progress (R347, R382): the request, none for the save before DEEP; its area and the SEQ it will have; the ring and
the id of its LEDGER_SNAP job, and once that has ended its status, the bytes it made in SNAP and its first turn. -/
structure LedgerSave where
  req : Option ReqFrom
  area : Nat
  seq : Nat
  ring : Nat
  job : Nat
  snap : Option (Nat × Nat × Nat)
  deriving DecidableEq, Repr

/-- An image write that is open (R383). -/
structure ImgWrite where
  target : Nat
  area : Nat
  total : Nat
  held : List (Nat × Byte)
  deriving DecidableEq, Repr

/-- A forwarded request (R348): the request here, its SVC and the device named. -/
structure Forward where
  req : ReqFrom
  svc : Nat
  dev : Nat
  deriving DecidableEq, Repr

/-- Heath's services in progress. -/
structure Heath where
  mapLoad : Option MapLoad
  ledgerSave : Option LedgerSave
  imgWrite : Option ImgWrite
  /-- a CAPTURE service waits for the job of this id on this ring -/
  capture : Option (ReqFrom × Nat × Nat)
  forwards : List Forward
  /-- RAILS_UP requests honoured after a fault since POR (R372) -/
  retries : Nat
  deriving DecidableEq, Repr

/-- A job descriptor (R355). -/
structure JobDesc where
  id : Nat
  opcode : Nat
  effort : Nat
  resume : Bool
  irq : Bool
  tab : Nat
  bsize : Nat
  src : Nat
  srcLen : Nat
  dst : Nat
  dstCap : Nat
  tokOff : Nat
  tokBlocks : Nat
  tokOp : Nat
  tokTab : Nat
  arg : Nat
  deriving DecidableEq, Repr

/-- A running job (R354): its descriptor, the bounds of the turns it has read, and for a CAPTURE the turn it takes, the
segments it has taken and whether it has fallen behind. -/
structure Job where
  desc : JobDesc
  turn0 : Nat
  turn1 : Nat
  capTurn : Option Nat
  capSegs : List RowSeg
  capLost : Bool
  deriving DecidableEq, Repr

/-- A job ring's state beside its registers: ids of its recent jobs with their status, newest first; its running job; and how many of
the entries after that job's have completed with DUP while it runs (R366). -/
structure JobRing where
  ids : List (Nat × Nat)
  running : Option Job
  early : Nat
  deriving DecidableEq, Repr

/-- JOB. -/
structure Jobs where
  rings : List JobRing
  /-- the ring after the one served last, for round-robin among the rings with PRIO = 0 and among those with PRIO = 1 -/
  nextRing : Nat
  nextPrio : Nat
  deriving DecidableEq, Repr

/-- An empty mailbox. -/
def Box.reset : Box :=
  { inMsg := none, inFrom := 0, last := none, req := none, outMsg := none, outDst := 0, outSeq := 0, responses := [] }

/-- Heath with no service in progress. -/
def Heath.reset : Heath :=
  { mapLoad := none, ledgerSave := none, imgWrite := none, capture := none, forwards := [], retries := 0 }

/-- JOB after reset. -/
def Jobs.reset : Jobs := { rings := List.replicate 8 ⟨[], none, 0⟩, nextRing := 0, nextPrio := 0 }

end Sys2Proof.Machine
end

