-- ==== Sys2Proof/Machine/Types6.lean ====
section
/-! DEFINITION. Straps, fuses, the applied image and the progress of bring-up (14_boot_image_identity.md,
16_electrical_and_package.md). -/

namespace Sys2Proof.Machine

/-- The strap levels sampled at the last POR release (R428). -/
structure Straps where
  head : Bool
  addr1 : Bool
  addr0 : Bool
  deriving DecidableEq, Repr

/-- The fuses that change in the field, and the grade (R386, R387): the root hashes, the slots revoked and the rollback thermometer. The
serial, slot 0's hash, the unit's keys and its certificate are constants of the unit. -/
structure Fuses where
  gradeX : Bool
  debugLock : Bool
  root1 : Option (BitVec 384)
  root2 : Option (BitVec 384)
  revoked : Nat
  rollback : BitVec 64
  deriving DecidableEq, Repr

/-- What the running image gave that no register holds (R369 to R373). -/
structure Image where
  copyB : Bool
  version : Nat
  rollback : Nat
  bootTset : Nat
  /-- the root slot that verified it -/
  rootSlot : Nat
  fwVersion : Nat
  /-- LOAD, ENTRY and the code of FIRMWARE -/
  firmware : Nat × Nat × List Byte
  /-- the POLICY record -/
  policy : List Byte
  /-- CERTS records: (KIND, INDEX, bytes) -/
  certs : List (Nat × Nat × List Byte)
  /-- job-engine byte tables 1 to 3 -/
  byteTabs : List (Nat × List Nat)
  deriving DecidableEq, Repr

/-- Bring-up (R375, R376): the copy staged and its bytes, the copies already tried, and whether the firmware has started. -/
structure Boot where
  staged : Option (Bool × List Byte)
  tried : List Bool
  /-- the fuse requests and the rollback burn of this bring-up are done (R379, R387) -/
  burned : Bool
  /-- where bring-up stands, by the codes of NVM_BOOT_STAT, which mirrors them -/
  state : Nat
  step : Nat
  /-- the sessions have been opened at the first turn of this bring-up (R375 step 12) -/
  opened : Bool
  deriving DecidableEq, Repr

/-- Bring-up before anything. -/
def Boot.reset : Boot := { staged := none, tried := [], burned := false, state := 0, step := 0, opened := false }

/-- Fuses of a unit as manufactured. -/
def Fuses.reset : Fuses :=
  { gradeX := false, debugLock := false, root1 := none, root2 := none, revoked := 0, rollback := 0 }

end Sys2Proof.Machine
end

