-- ==== Sys2Proof/Machine/Types7.lean ====
section
/-! DEFINITION. The state of TIM, of the panel-link ports and of the rail sequencer beside their registers
(07_panel_drive_and_ledger.md, 08_panel_link.md). -/

namespace Sys2Proof.Machine

/-- TIM (R160, R287, R303): whether it runs, the row slot in progress and when it began, whether the turn's statistics have
been set, the TIME cycles by which slot Hp + 1 was lengthened, the quiet turns of a rejoin that have opened, whether TIM
waits for the parent's next latch instant, and whether it stays stopped until the sequencer next reaches RUN (R177). -/
structure Tim where
  run : Bool
  slot : Nat
  slotAt : Nat
  statsDone : Bool
  adjust : Int
  rejoin : Nat
  restart : Bool
  parked : Bool
  deriving DecidableEq, Repr

/-- What a panel-link port is doing while its STATE reads TRAINING (R199). -/
inductive PlStage where
  | none | presence | tsa | tsb | reversal
  deriving DecidableEq, Repr

/-- What a failed lane sends in blanking (R209). -/
inductive Retrain where
  | presence | idle | tsa | tsb
  | rows
  deriving DecidableEq, Repr

/-- A lane in retraining (R209): its step, and whether read-back of its TS-B found a mismatch. -/
structure LaneRetry where
  lane : Nat
  step : Retrain
  dirty : Bool
  deriving DecidableEq, Repr

/-- A driver's report in training: index, lock and lanes heard, each input PHASE 3 (R199, R201). -/
structure TrainRep where
  drv : Nat
  up0 : Bool
  up1 : Bool
  lane0 : Nat
  deriving DecidableEq, Repr

/-- What has taken effect on a port at the row start that comes (R204, R210): its lanes', status and black words before, and the failures
and restorations. -/
structure PlStart where
  lanes : List Nat
  stat : Nat
  black : Nat
  fails : List (Nat × Nat)
  restore : List Nat
  deriving DecidableEq, Repr

/-- A panel-link port: its training stage and reports, failures declared and not yet in effect as (lane, cause), the lanes in
retraining, the lanes that a restoration is due for, and on each logical lane the line bits of the row slot in progress, in
send order; none in electrical idle (R192, R195). -/
structure PlPort where
  stage : PlStage
  reps : List TrainRep
  fails : List (Nat × Nat)
  retry : List LaneRetry
  restore : List Nat
  lanes : List (List Bool)
  start : Option PlStart
  deriving DecidableEq, Repr

/-- A panel-link port after reset. -/
def PlPort.reset : PlPort :=
  { stage := .none, reps := [], fails := [], retry := [], restore := [], lanes := List.replicate 17 [], start := none }

/-- Where the rail sequencer stands (R176, R177, R179). `stepUp n` and `stepDown n` wait STEP: before the ramp of rail n,
before EMIT_SUP_EN (n = 4) or before the release of the gates (n = 5); before rail n is stopped. -/
inductive SeqPos where
  | off
  | ramp (n : Nat)
  | stepUp (n : Nat)
  | extUp
  | release
  | run
  | extDown
  | stepDown (n : Nat)
  | discharge (n : Nat)
  deriving DecidableEq, Repr

/-- PWD: the sequencer's position, whether STEP is taken as 0 (R178), whether the sequence of R179 runs, the rails started and
not yet discharged, whether a DOWN request waits for T_(Hp+1), the PWR cycle of the last DOWN request (R181),
and whether PWD's registers reset once SAFE = 1 (R180). -/
structure Pwd where
  pos : SeqPos
  fast : Bool
  uv : Bool
  started : List Nat
  downReq : Bool
  downAt : Option Nat
  resetDue : Bool
  deriving DecidableEq, Repr

/-- PWD after reset. -/
def Pwd.reset : Pwd :=
  { pos := .off, fast := false, uv := false, started := [], downReq := false, downAt := none, resetDue := false }

/-- TIM after reset. -/
def Tim.reset : Tim :=
  { run := false, slot := 0, slotAt := 0, statsDone := false, adjust := 0, rejoin := 0, restart := false, parked := true }

end Sys2Proof.Machine
end

