-- ==== Sys2Proof/Machine/Types8.lean ====
section
/-! DEFINITION. The state of the HBM and Sward controllers, of the temperature model and of the calibration runs beside their
registers (12_memory.md, 15_clocks_resets_power.md). -/

namespace Sys2Proof.Machine

/-- A transmitter's equaliser codes: PRE and POST (R416). -/
structure Taps where
  pre : Nat
  post : Nat
  deriving DecidableEq, Repr

/-- A transmitter's equaliser: its codes now and its targets (R419). -/
structure TxEq where
  code : Taps
  target : Taps
  deriving DecidableEq, Repr

/-- A delay line of an HBM data bit (R320, R418): its tap, its target, and its trim set V[0] to V[7]. -/
structure DqLine where
  code : Nat
  target : Nat
  trims : List Nat
  deriving DecidableEq, Repr

/-- The event that a capture register made way for at a moment (R68, R325): the moment, the number by which the lower of two events of
one moment goes first, the values it would hold, and whether they are held. -/
structure Capture where
  clock : Nat
  prio : Nat
  vals : List (Nat × W32)
  held : Bool
  deriving DecidableEq, Repr

/-- MEM, MPHY and Sward's scrub: the clients' FIFO levels in lines (R314), refreshes owed by each pseudo-channel (R318), open rows by bank
as row + 1 (R313), the next line to scrub (R309), the delay lines of each pseudo-channel, reads first (R320), the set points whose write
results are stored since POR (R418), whether the stack is in self-refresh, and whether clients have had service since reset (R314). -/
structure Mem where
  levels : List Nat
  owed : List Nat
  openRows : SMap Nat
  scrub : Nat
  dq : List (List DqLine)
  stored : List Bool
  selfRefresh : Bool
  served : Bool
  deriving DecidableEq, Repr

/-- The calibration runs and the temperature model: the transmit equalisers (17 lanes of PL0 to PL7, the two ingest
back-channels, 4 lanes of each cascade port), the converters' trim codes with their targets (current limit, slope) for each
rail, TPD_RUN, whether a run has begun since POR, whether the run in progress has yet to latch its temperatures, the equaliser
targets it will hand over by transmitter class, and the latest frame with a temperature of each driver with its time
(R413). -/
structure Cal where
  txeq : List TxEq
  conv : List (List (Nat × Nat))
  tpdRun : Nat
  ran : Bool
  starting : Bool
  txNew : List Taps
  frames : List (Option (Nat × Nat))
  deriving DecidableEq, Repr

/-- A delay line before any training. -/
def DqLine.reset : DqLine := { code := 0, target := 0, trims := List.replicate 8 0 }

/-- MEM after reset. -/
def Mem.reset : Mem :=
  { levels := List.replicate 9 0, owed := List.replicate 32 0, openRows := [], scrub := 0,
    dq := List.replicate 32 (List.replicate 64 DqLine.reset),
    stored := List.replicate 8 false, selfRefresh := false, served := false }

/-- An equaliser at the reset codes of CAL_TXEQ_SET. -/
def TxEq.reset : TxEq := ⟨⟨2, 4⟩, ⟨2, 4⟩⟩

/-- CAL after reset. -/
def Cal.reset : Cal :=
  { txeq := List.replicate 158 TxEq.reset, conv := List.replicate 4 [(0, 0), (0, 0)], tpdRun := 0, ran := false, starting := false,
    txNew := List.replicate 10 ⟨2, 4⟩,
    frames := List.replicate 128 none }

end Sys2Proof.Machine
end

