-- ==== Sys2Proof/Machine/Types9.lean ====
section
/-! DEFINITION. The state of clocks, resets, power states and voltage scaling beside their registers
(15_clocks_resets_power.md), of the boundary-scan port (14_boot_image_identity.md), and what a CORE cycle has brought so far, for the
events that fall in one (00_scope.md R10, R11). -/

namespace Sys2Proof.Machine

/-- CLK, PWR and the reset logic: whether POR is asserted; whether the core domains are out of reset; the step of R375 at which
bring-up restarts when they leave it; the next state of the chain of R404, due or being entered; whether entry to
STANDBY gives running jobs their 100 ms; whether the loop of R410 is in its span, its v, its consecutive
high-margin windows, the VOUT_MODE exponent of R409 and R410 (none until it has been read) and whether a mode other than LINEAR16 was read
(R409), the last VOUT_COMMAND sent; whether R415 holds the core, with a pin reset that waits for 110 °C; the time when bring-up
began; the ingest ports whose wake detectors are on in STANDBY and DEEP, bit p for port p (R406); whether RESET_N has been low
since POR was asserted (R424, R447); and whether CORE_SUP_EN is high (R408, R424). -/
structure Pwr where
  por : Bool
  core : Bool
  restart : Option Nat
  due : Option Nat
  going : Option Nat
  grace : Bool
  avsOn : Bool
  avsV : Nat
  avsHi : Nat
  avsExp : Option Int
  avsOther : Bool
  avsCmd : Nat
  tripped : Bool
  tripReset : Bool
  bootAt : Nat
  ingDet : Nat
  resetLow : Bool
  supEn : Bool
  deriving DecidableEq, Repr

/-- The TAP (R388): the instruction in effect, and one that waits for SAFE = 1. -/
structure Tap where
  ir : Nat
  waiting : Option Nat
  deriving DecidableEq, Repr

/-- CLK and PWR after reset, POR still asserted. -/
def Pwr.reset : Pwr :=
  { por := true, core := false, restart := some 1, due := none, going := some 0, grace := false, avsOn := false, avsV := 750, avsHi := 0,
    avsExp := none, avsOther := false,
    avsCmd := 0, tripped := false, tripReset := false, bootAt := 0, ingDet := 0, resetLow := false, supEn := false }

/-- The TAP after reset: IDCODE, as IEEE 1149.1 has it. -/
def Tap.reset : Tap := ⟨1, none⟩

/-- What the present CORE cycle has brought (the model's own; log entry 2): by register the W1C bits that hardware set (R11); by field the
value before hardware's additions and what these alone make (R11); the CTL registers in which a request was written that a latch row of
this cycle leaves (R85, R92); the blocks that were started, and the refused writes of RWL fields (R10); by register one more than the rank
of the last path that wrote it, and the rank of the path that writes now (R327); the attachments heard (R272); the boxes whose IN was
cleared, and the messages that a full IN turned away as box, sender and bytes (R366); and the TAIL writes refused as ring and value
(R366). -/
structure Cyc where
  sets : SMap Nat
  adds : List (Fld × Nat × Nat)
  asked : List Nat
  starts : List Owner
  refused : List (Nat × Nat)
  wrote : SMap Nat
  rank : Nat
  heard : List Nat
  cleared : List Nat
  turned : List (Nat × Nat × List Byte)
  tails : List (Nat × Nat)
  deriving DecidableEq, Repr

/-- A cycle in which nothing has happened. -/
def Cyc.reset : Cyc :=
  { sets := [], adds := [], asked := [], starts := [], refused := [], wrote := [], rank := 0, heard := [], cleared := [], turned := [],
    tails := [] }

/-- Hardware changes a field from `old` by `g`, for R11. -/
def Cyc.note (c : Cyc) (f : Fld) (old : Nat) (g : Nat → Nat) : Cyc :=
  match c.adds.find? (fun e => e.1 == f) with
  | none => { c with adds := (f, old, g 0) :: c.adds }
  | some e => { c with adds := (f, e.2.1, g e.2.2) :: c.adds.erase e }

end Sys2Proof.Machine
end

