-- ==== Sys2Proof/Machine/State.lean ====
section
/-! DEFINITION. The machine's state: everything the manual gives the block, as plain data, with the queue of waiting
commands, the reasons a step can stop, and the state after power-on reset. -/

namespace Sys2Proof.Machine

/-- Snapshots of one access path (R396), by register address; unlisted: the register's reset value. -/
structure Snaps where
  bus : SMap W32
  control : SMap W32
  service : SMap W32
  heath : SMap W32
  /-- paths on which the snapshot of LYR_FLIP_TIME_LO is armed (R123) -/
  armed : List Path
  deriving DecidableEq, Repr

/-- The machine. -/
structure State where
  /-- waiting commands, first in, first out -/
  pending : List Instr
  /-- registers at their address; unlisted: the reset value (R450) -/
  regs : SMap W32
  snaps : Snaps
  /-- the value the last register read returned (the model's own; see the log) -/
  rdata : W32
  /-- the bytes that the last management-bus read gave the host, and the place of the byte that the last transaction's target
  did not acknowledge -/
  i2cOut : List Byte
  i2cNack : Option Nat
  /-- the model's own count of free values taken -/
  free : Nat
  /-- the time base in 2^-16 ns (R285, R393) -/
  time : Nat
  /-- time passed in 2^-16 ns, which no setting of the time base moves (the model's own) -/
  clock : Nat
  /-- results of a running geometry probe (R37) -/
  probe : Option (Nat × Nat)
  coef0 : SMap W32
  coef1 : SMap W32
  lut0 : SMap W32
  lut1 : SMap W32
  slots : List Slot
  asms : List Assembly
  /-- the model's own count of assemblies opened and reopened (Assembly.version) -/
  asmSeq : Nat
  /-- rings with NOCREDIT refusals owed a credit: (slot, ring) (R227) -/
  owed : List (Nat × Nat)
  lyr : Lyr
  syn : Syn
  tab : TurnTables
  drv : Drv
  hbm : SMap Byte
  /-- the Heath data area of Sward, by Sward address (R305) -/
  swd : SMap Byte
  tsets : List TSet
  /-- image code tables 16 to 31 (R47) -/
  codeTabs : List (Nat × List Nat)
  ports : List IngPort
  ses : Ses
  cas : Cas
  tim : Tim
  pl : List PlPort
  pwd : Pwd
  mem : Mem
  /-- the latest event of each capture register whose events can coincide, by the address of its VALID bit (R68, R325) -/
  caps : SMap Capture
  cal : Cal
  pwr : Pwr
  tap : Tap
  boxes : List Box
  heath : Heath
  jobs : Jobs
  /-- the straps sampled at POR release -/
  straps : Straps
  fuses : Fuses
  img : Option Image
  boot : Boot
  nor : SMap Byte
  emmc : SMap Byte
  /-- raisings of each event source in the turn that is open (R352) -/
  evtTurn : List Nat
  /-- what the CORE cycle in progress has brought (the model's own; log entry 2) -/
  cyc : Cyc
  deriving DecidableEq, Repr

/-- Why the machine could stop. The manual gives the block no state in which it stops, and no command raises this. -/
inductive Fault where
  /-- Raised by no command; it exists so that the type of faults is closed and named. Safe. -/
  | none
  deriving DecidableEq, Repr

/-- Why a command could be refused by the model. -/
inductive Refusal where
  /-- A command that the model has no meaning for yet, by the name of its row. Safe. -/
  | notModelled (mnemonic : String)
  deriving DecidableEq, Repr

/-- An empty slot. -/
def Slot.empty : Slot :=
  { phase := .free, sid := 0, decl := none, order := 0, rings := [], dir := [], dirUsed := 0, units := 0, ovlGot := [] }

/-- LYR after reset. -/
def Lyr.reset : Lyr :=
  { turn := 0, opened := false, flipTime := 0, latchTime := 0, groups := List.replicate 16 none, commits := [], ids := [],
    layerSet := [], quiet := false, fade := 2 ^ 18, mode := .idle, modeTarget := 0, modeCommit := none, modeSent := false,
    modeGo := false,
    pendLoads := [], heldSyn := none, heldDrv := none, entries := [], jobs := [], drops := [], repeatCfg := 0x1000,
    fenceLim := 3, waited := [], count := 0 }

/-- SYN and DEC after reset. -/
def Syn.reset : Syn :=
  { order := [], decoders := List.replicate 32 none, ahead := List.replicate 32 none, pool := [], late := [], ovl := [],
    clusters := List.replicate 128 ⟨0, 0⟩, hist := List.replicate 10 0, peff := 0, fifo := [] }

/-- The reference timing, which the TIM registers hold at reset (07_panel_drive_and_ledger.md). -/
def Timing.reset : Timing :=
  { rowCyc := 0x13D, blank := 0x0F0, active := 0x4380, npwmLog2 := 3, recoverRows := 0x06D8, emitRows := 0x36C0,
    offset := 0, n := 32, d := 15,
    goutCfg := [0x80000000, 0x40030000, 0x40030100, 0x40030200, 0x40030300, 0x94000000, 0x52010000, 0x52010100,
      0xA0000000, 0x62010000, 0x62010100, 0xF0000000, 0x30000000, 0x30000000, 0x30000000, 0x30000000],
    goutEdge := [0x012C0008, 0x012C0008, 0x012C0008, 0x012C0008, 0x012C0008, 0x00A00004, 0x00A00004, 0x00A00004,
      0x00A00004, 0x00A00004, 0x00A00004, 0, 0, 0, 0, 0],
    goutRow := [0, 0, 0, 0, 0, 1, 0, 0, 0x36C1, 0, 0, 0, 0, 0, 0, 0] }

/-- The reference geometry, which SYN_GEOM_CFG holds at reset (02_light_field_geometry.md). -/
def Geom.reset : Geom :=
  { ng := 128, w := 10, h := 10, hp := 17280, hx0 := 0, hy0 := 0, hpo := false, mirU := false, mirV := false }

/-- The per-turn tables before any turn has opened. -/
def TurnTables.reset : TurnTables :=
  { zones := List.replicate 128 ⟨0, 0, 0⟩, stress := ⟨List.replicate 40 0, List.replicate 2 0x01010101⟩,
    fs := [0x1000, 0x4000, 0x10000, 0x40000], dither := 1, timing := Timing.reset, geom := Geom.reset,
    tMin := 0x400, bg := ⟨0, 0, 0⟩, lead := 32, synRun := false, drvRun := false, mapGen := 0, vcap := none }

/-- An ingest port's packet layer after reset. -/
def IngPort.reset : IngPort :=
  { rxNext := 0, procNext := 0, held := [], uncovered := 0, echo := 0, txNext := 0, unacked := [], waiting := [],
    align := 0, wire := [], aligned := [], nakAt := none }

/-- No session. -/
def Ses.reset : Ses :=
  { active := false, sid := 0, recent := [], landed := false, failovers := 0, failAt := none, atts := [], closeInfo := [(0, 0), (0, 0)],
    grants := [] }

/-- The machine after power-on reset. -/
def State.reset : State :=
  { pending := [], regs := [], snaps := ⟨[], [], [], [], []⟩, rdata := 0, i2cOut := [], i2cNack := none, free := 0, time := 0,
    clock := 0, probe := none,
    coef0 := [], coef1 := [], lut0 := [], lut1 := [],
    slots := [Slot.empty, Slot.empty, Slot.empty], asms := [], asmSeq := 0, owed := [],
    lyr := Lyr.reset, syn := Syn.reset, tab := TurnTables.reset, drv := ⟨0, 0, []⟩,
    hbm := [], swd := [], tsets := [], codeTabs := [],
    ports := [IngPort.reset, IngPort.reset], ses := Ses.reset, cas := Cas.reset,
    tim := Tim.reset, pl := List.replicate 8 PlPort.reset, pwd := Pwd.reset, mem := Mem.reset, caps := [], cal := Cal.reset,
    pwr := Pwr.reset, tap := Tap.reset,
    boxes := List.replicate 8 Box.reset, heath := Heath.reset, jobs := Jobs.reset,
    straps := ⟨true, false, false⟩, fuses := Fuses.reset, img := none, boot := Boot.reset,
    nor := [], emmc := [], evtTurn := List.replicate 64 0, cyc := Cyc.reset }

end Sys2Proof.Machine
end

