-- ==== Sys2Proof/Machine/Ops.lean ====
section
/-! DEFINITION. The named operations that every family uses: registers and their fields, saturating counts, free
values, events (R350 to R352), EVENT records (R270), and the time base. -/

namespace Sys2Proof.Machine

/-- The layout that an address belongs to, in a table. -/
def descIn : List RegDesc → Nat → Option RegDesc
  | [], _ => none
  | d :: ds, a =>
    let off := a - d.base
    let w := if d.wins = 1 then 0 else off / d.winStride
    let r := if d.wins = 1 then off else off % d.winStride
    if d.base ≤ a ∧ w < d.wins ∧ r % d.stride = 0 ∧ r / d.stride < d.count then some d else descIn ds a

/-- The layout of the register at an address (R448); none at a reserved offset or outside the windows. -/
def regDesc (a : Nat) : Option RegDesc := descIn regTable a

/-- The element number of an address within its array. -/
def RegDesc.elem (d : RegDesc) (a : Nat) : Nat :=
  let off := a - d.base
  (if d.wins = 1 then off else off % d.winStride) / d.stride

/-- The reset value of a register's fields (R450). -/
def RegDesc.resetOf (d : RegDesc) (a : Nat) : Nat :=
  if d.resets = [] then d.fields.foldl (fun v f => v + f.reset * 2 ^ f.lo) 0
  else d.resets.getD (d.elem a) 0

/-- The reset value of the register at an address; 0 where there is none (R448). -/
def regReset (a : Nat) : W32 :=
  match regDesc a with
  | none => 0
  | some d => BitVec.ofNat 32 (d.resetOf a)

/-- The contents of a register. -/
def State.rget (s : State) (a : Nat) : W32 := SMap.get regReset s.regs a

/-- Set the contents of a register, as the hardware does. -/
def State.rset (s : State) (a : Nat) (v : W32) : State := { s with regs := SMap.set regReset s.regs a v }

/-- The value of a field. -/
def State.fget (s : State) (f : Fld) : Nat := bitsOf (s.rget f.addr).toNat f.hi f.lo

/-- A one-bit field as a truth value. -/
def State.flag (s : State) (f : Fld) : Bool := s.fget f != 0

/-- Set a field, as the hardware does. -/
def State.fset (s : State) (f : Fld) (n : Nat) : State :=
  s.rset f.addr (BitVec.ofNat 32 (putBits (s.rget f.addr).toNat f.hi f.lo n))

/-- Set or clear a one-bit field. -/
def State.fput (s : State) (f : Fld) (b : Bool) : State := s.fset f (b2n b)

/-- Hardware changes a field by `g`; a read that clears the field in this cycle finds what it was before (R11). -/
def State.fbump (s : State) (f : Fld) (g : Nat → Nat) : State :=
  { s.fset f (g (s.fget f)) with cyc := s.cyc.note f (s.fget f) g }

/-- Add to a counter that saturates at the top of its field. -/
def State.fadd (s : State) (f : Fld) (n : Nat) : State := s.fbump f (fun v => satAdd (2 ^ (f.hi + 1 - f.lo) - 1) v n)

/-- Raise a field to at least `n`. -/
def State.fmax (s : State) (f : Fld) (n : Nat) : State := s.fbump f (fun v => max v n)

/-- Hardware sets bits of a W1C register; a clear in this cycle leaves them set (R11). -/
def State.wset (s : State) (a : Nat) (m : Nat) : State :=
  { s.rset a (s.rget a ||| BitVec.ofNat 32 m) with
    cyc := { s.cyc with sets := SMap.put s.cyc.sets a (SMap.get (fun _ => 0) s.cyc.sets a ||| m) } }

/-- Software clears a W1C register whole: what hardware sets in this cycle stays (R11). -/
def State.wclear (s : State) (a : Nat) : State := s.rset a (BitVec.ofNat 32 (SMap.get (fun _ => 0) s.cyc.sets a))

/-- Change what the cycle has brought. -/
def State.modCyc (s : State) (f : Cyc → Cyc) : State := { s with cyc := f s.cyc }

/-- Whether a CTL register has taken a request in this cycle, which a latch row that begins in it leaves for the next (R85, R92). -/
def State.askedNow (s : State) (a : Nat) : Bool := s.cyc.asked.contains a

/-- Software writes a request to a CTL register. -/
def State.ask (s : State) (a : Nat) : State := s.modCyc (fun c => { c with asked := a :: c.asked })

/-- What hardware's additions to a field in this cycle make on their own. -/
def State.aloneOf (s : State) (f : Fld) : Nat := ((s.cyc.adds.find? (fun e => e.1 == f)).map (fun e => e.2.2)).getD 0

/-- What a field was before hardware's additions in this cycle. -/
def State.beforeOf (s : State) (f : Fld) : Nat := ((s.cyc.adds.find? (fun e => e.1 == f)).map (fun e => e.2.1)).getD (s.fget f)

/-- One count of this cycle is taken back: what it counted did not come to pass. -/
def State.uncount (s : State) (f : Fld) : State :=
  let old := s.beforeOf f
  let n := s.aloneOf f - 1
  { s.fset f (satAdd (2 ^ (f.hi + 1 - f.lo) - 1) old n) with
    cyc := { s.cyc with adds := (f, old, n) :: s.cyc.adds.filter (fun e => e.1 != f) } }

/-- Whole nanoseconds passed, whatever the time base is set to. -/
def State.ageNs (s : State) : Nat := s.clock / 65536

/-- Apply register loads in order. -/
def State.loads (s : State) (l : List (Nat × W32)) : State := l.foldl (fun s e => s.rset e.1 e.2) s

/-- The time base in whole nanoseconds (R285). -/
def State.nowNs (s : State) : Nat := s.time / 65536

/-- Take a fresh free value. -/
def State.fresh (s : State) : Nat × State := ((Config.freeValue s.free).toNat, { s with free := s.free + 1 })

/-- Change attachment `i` of the session. -/
def State.modAtt (s : State) (i : Nat) (f : Att → Att) : State :=
  { s with ses := { s.ses with atts := modNth s.ses.atts i f } }

/-- Change an ingest port. -/
def State.modPort (s : State) (p : Nat) (f : IngPort → IngPort) : State := { s with ports := modNth s.ports p f }

/-- An ingest port. -/
def State.port (s : State) (p : Nat) : IngPort := s.ports.getD p IngPort.reset

/-- Change LYR. -/
def State.modLyr (s : State) (f : Lyr → Lyr) : State := { s with lyr := f s.lyr }

/-- Change CAS. -/
def State.modCas (s : State) (f : Cas → Cas) : State := { s with cas := f s.cas }

/-- Change the session. -/
def State.modSes (s : State) (f : Ses → Ses) : State := { s with ses := f s.ses }

/-- Whether an attachment is KEYED or later and not closed. -/
def Att.keyedUp (a : Att) : Bool :=
  match a.state with
  | .keyed | .declared | .streaming | .draining | .degraded => true
  | _ => false

/-- Whether a record belongs to the kinds that a full queue drops (R270). -/
def EvRec.droppable : EvRec → Bool
  | .blockerr .. => true
  | .device .. => true
  | _ => false

/-- Queue a record on one attachment; a full queue of 4,096 drops a BLOCKERR or DEVICE record and counts it (R270). -/
def State.queueOn (s : State) (i : Nat) (r : EvRec) : State :=
  match s.ses.atts[i]? with
  | none => s
  | some a =>
    if r.droppable && decide (4096 ≤ a.queue.length) then s.fadd F.SES_EVT_LOST_COUNT 1
    else s.modAtt i (fun a => { a with queue := a.queue ++ [r] })

/-- Queue a record on every KEYED attachment (R270). -/
def State.queueAll (s : State) (r : EvRec) : State :=
  forBelow s.ses.atts.length (fun i s =>
    if ((s.ses.atts[i]?).map Att.keyedUp).getD false then s.queueOn i r else s) s

/-- Event source `n` becomes pending and is counted, with its overflow (R351). -/
def State.markEvt (s : State) (n : Nat) : State :=
  let s1 := s.wset (R.EVT_PEND (n / 32)) (2 ^ (n % 32))
  (if s.fget (F.EVT_COUNT_COUNT n) = 255 then s1.wset (R.EVT_OVF (n / 32)) (2 ^ (n % 32)) else s1).fadd (F.EVT_COUNT_COUNT n) 1

/-- Raise event source `n` (R351, R352): pending bit, count with overflow, the turn's count, and one DEVICE record for
the first raising of a source in a turn that the SES mask forwards. -/
def State.raise (s : State) (n : Nat) : State :=
  let s2 := s.markEvt n
  let first := s2.evtTurn.getD n 0 == 0
  let s3 := { s2 with evtTurn := modNth s2.evtTurn n (· + 1) }
  if first && bitOf (s3.rget (R.EVT_MASK_SES (n / 32))).toNat (n % 32) then s3.queueAll (.device n s3.lyr.turn) else s3

/-- EVENT_N: driven low while a pending event is masked in (R352). -/
def State.eventLow (s : State) : Bool :=
  (List.range 2).any (fun w => ((s.rget (R.EVT_PEND w)) &&& (s.rget (R.EVT_MASK_PIN w))) != 0)

/-- What a byte of HBM that nothing has written reads as (DESIGN CHOICE, log entry 3). -/
def hbmDefault (_ : Nat) : Byte := 0

/-- What a byte of the Heath data area that nothing has written reads as (DESIGN CHOICE, log entry 3). -/
def swdDefault (_ : Nat) : Byte := 0

/-- What a byte of the boot NOR that nothing has written reads as: an erased byte (PRESUMED, log entry 50). -/
def norDefault (_ : Nat) : Byte := 0xFF

/-- What a byte of the eMMC that nothing has written reads as (DESIGN CHOICE, log entry 52). -/
def emmcDefault (_ : Nat) : Byte := 0

/-- The parity of the bits of `v` that `mask` selects. -/
def parityOf (v mask : Nat) : Nat := popcount 28 ((v % 2 ^ 28) &&& mask) % 2

/-- Where an HBM address lies (R311): the address with its home bits replaced by the outputs that the masks make, so that bits 34 to 33
are the stack id, 32 to 19 the row, 18 to 15 the bank, 14 to 13 and 7 to 5 the column, 12 to 8 the pseudo-channel and 4 to 0 the byte
of the burst. -/
def hbmPlace (masks : List Nat) (a : Nat) : Nat :=
  let out := fun k => parityOf (a / 32) (masks.getD k 0)
  let pc := out 0 + 2 * out 1 + 4 * out 2 + 8 * out 3 + 16 * out 4
  let bank := out 5 + 2 * out 6 + 4 * out 7 + 8 * out 8
  putBits (putBits a 12 8 pc) 18 15 bank

/-- The masks of the hashed outputs. -/
def State.mapMasks (s : State) : List Nat := (List.range 9).map (fun k => s.fget (F.MEM_MAP_MASK_MASK k))

/-- Write bytes to HBM, each where the masks place its address. -/
def State.hbmWrite (s : State) (a : Nat) (bs : List Byte) : State :=
  { s with hbm := SMap.setVia hbmDefault (hbmPlace s.mapMasks) s.hbm a bs }

/-- Read bytes of HBM. -/
def State.hbmRead (s : State) (a n : Nat) : List Byte := SMap.getVia hbmDefault (hbmPlace s.mapMasks) s.hbm a n

/-- Whether an address from `lo` to `hi - 1` lies at a place, sought among those that differ from it in the home bits. -/
def placedIn (masks : List Nat) (lo hi q : Nat) : Bool :=
  (List.range 512).any (fun h =>
    let a := putBits (putBits q 12 8 (h % 32)) 18 15 (h / 32)
    decide (lo ≤ a) && decide (a < hi) && hbmPlace masks a == q)

/-- Whether this device is the head of its cascade tree. -/
def State.isHead (s : State) : Bool := s.flag F.CAS_STAT_HEAD

/-- The base address of a memory region (R321). -/
def State.regionBase (s : State) (n : Nat) : Nat := s.fget (F.MEM_REGION_BASE n) * 64 * 2 ^ 20

/-- The size of a memory region in bytes (R321). -/
def State.regionSize (s : State) (n : Nat) : Nat := s.fget (F.MEM_REGION_SIZE n) * 64 * 2 ^ 20

/-- Whether addresses `a` to `e - 1` lie within ranges that are given as first address and end, from one to the next; `fuel`
bounds how many are passed through. -/
def coveredBy (bounds : List (Nat × Nat)) : (fuel : Nat) → (a e : Nat) → Bool
  | 0, a, e => decide (e ≤ a)
  | fuel + 1, a, e =>
    if e ≤ a then true
    else match bounds.find? (fun b => decide (b.1 ≤ a) && decide (a < b.2)) with
      | none => false
      | some b => coveredBy bounds fuel b.2 e

/-- Whether bytes `a` to `a + n - 1` lie wholly within the named regions (R316). -/
def State.inRegions (s : State) (rs : List Nat) (a n : Nat) : Bool :=
  coveredBy (rs.map (fun r => (s.regionBase r, s.regionBase r + s.regionSize r))) rs.length a (a + n) &&
  decide (a + n ≤ 24 * 2 ^ 30)

/-- An event that a capture register describes (R68, R325): it is captured where VALID is 0, and of events of one moment the one of the
lowest number; it is kept, so that a clear of VALID at that moment finds it (R11). -/
def State.capture (s : State) (valid : Fld) (prio : Nat) (vals : List (Nat × W32)) : State :=
  let now := (s.caps.find? (fun e => e.1 == valid.addr && e.2.clock == s.clock)).map (·.2)
  if (now.map (fun c => decide (c.prio ≤ prio))).getD false then s
  else
    let held := !s.flag valid || (now.map (fun c => c.held)).getD false
    { (if held then s.loads vals else s) with caps := SMap.put s.caps valid.addr ⟨s.clock, prio, vals, held⟩ }

/-- The registers whose bit 31 is the VALID of a capture. -/
def captureRegs : List Nat := [R.DEC_ERR_FIRST, R.DRV_LEDGER_SAT_FIRST, R.MEM_ECC_FIRST]

/-- A clear of the VALID bit of a capture register: an event of the same moment is captured (R11, R68). -/
def State.recapture (s : State) (a : Nat) : State :=
  match s.caps.find? (fun e => e.1 == a && e.2.clock == s.clock) with
  | none => s
  | some (_, c) => { s.loads c.vals with caps := SMap.put s.caps a { c with held := true } }

/-- The clients of HBM (R314). -/
inductive Client where
  | ledgerRd | ledgerWr | calmap | ovlPf | fallowRd | ovlWr | fallowJob | job | heath
  deriving DecidableEq, Repr

/-- A client's number. -/
def Client.num : Client → Nat
  | .ledgerRd => 0
  | .ledgerWr => 1
  | .calmap => 2
  | .ovlPf => 3
  | .fallowRd => 4
  | .ovlWr => 5
  | .fallowJob => 6
  | .job => 7
  | .heath => 8

/-- Regions that a client reads (R314). -/
def Client.reads : Client → List Nat
  | .ledgerRd => [2]
  | .calmap => [4, 5]
  | .ovlPf => [6, 7]
  | .fallowRd => [8]
  | .job => [0, 1, 2, 3, 4, 5, 9]
  | .heath => List.range 10
  | _ => []

/-- Regions that a client writes, outside the loads that hold a write permit (R314, R316). -/
def Client.writes : Client → List Nat
  | .ledgerWr => [2]
  | .ovlWr => [6, 7]
  | .fallowJob => [8]
  | .job => [0, 1, 3, 9]
  | .heath => List.range 10
  | _ => []

/-- Capture an uncorrectable HBM read and raise MEM_ECC (R316): its address in 32-byte units, and whether the read lay
outside the client's regions. -/
def State.eccCapture (s : State) (c : Client) (outside : Bool) (a : Nat) : State :=
  (s.capture F.MEM_ECC_FIRST_VALID c.num
    [(R.MEM_ECC_FIRST, BitVec.ofNat 32 (2 ^ 31 + (if outside then 2 ^ 30 else 0) + a / 32 % 2 ^ 30))]).raise 9

/-- The bank that an HBM address lies in among 32 × 48, numbered pseudo-channel × 48 + SID × 16 + bank, and the row (R311). -/
def State.hbmBank (s : State) (a : Nat) : Nat × Nat :=
  let q := hbmPlace s.mapMasks a
  (bitsOf q 12 8 * 48 + bitsOf q 34 33 * 16 + bitsOf q 18 15, bitsOf q 32 19)

/-- Change MEM. -/
def State.modMem (s : State) (f : Mem → Mem) : State := { s with mem := f s.mem }

/-- Change CAL. -/
def State.modCal (s : State) (f : Cal → Cal) : State := { s with cal := f s.cal }

/-- The open rows after an access, a burst at a time; with IDLE = 0 each row closes after its access (R313). -/
def State.rowsAfter (s : State) (a n : Nat) : SMap Nat :=
  let stays := s.fget F.MEM_PAGE_CFG_IDLE != 0
  forBelow ((a + n + 31) / 32 - a / 32) (fun i rows =>
    let b := s.hbmBank ((a / 32 + i) * 32)
    SMap.set (fun _ => 0) rows b.1 (if stays then b.2 + 1 else 0)) s.mem.openRows

/-- Rows that an access opens (R313). -/
def State.touch (s : State) (a n : Nat) : State := { s with mem := { s.mem with openRows := s.rowsAfter a n } }

/-- A write by a client that may write the named regions: outside them it is dropped and counted (R316). -/
def State.writeIn (s : State) (rs : List Nat) (a : Nat) (bs : List Byte) : State :=
  if s.inRegions rs a bs.length then (s.hbmWrite a bs).touch a bs.length else s.fadd F.MEM_ECC_CNT_RANGE 1

/-- A client's write (R316). -/
def State.clientWrite (s : State) (c : Client) (a : Nat) (bs : List Byte) : State := s.writeIn c.writes a bs

/-- A client's read of pieces of memory, each an address and a length (R310, R316): whether its data are lost, and its effects. Outside
the client's regions the read is not made, counts, and acts as an uncorrectable error; within them `e` is what it reported, an
uncorrectable error in a word that is a free choice among those read. -/
def State.readPieces (s : State) (c : Client) (ps : List (Nat × Nat)) (e : EccResult) : Bool × State :=
  match ps.find? (fun q => !s.inRegions c.reads q.1 q.2) with
  | some q => (true, (s.fadd F.MEM_ECC_CNT_RANGE 1).eccCapture c true q.1)
  | none =>
    let s0 := ps.foldl (fun s q => s.touch q.1 q.2) s
    match e with
    | .clean => (false, s0)
    | .corrected => (false, s0.fadd F.MEM_ECC_CNT_CORR 1)
    | .uncorrectable =>
      let (v, s1) := s0.fresh
      let bytes := ps.flatMap (fun q => (List.range ((q.2 + 7) / 8)).map (fun i => q.1 + 8 * i))
      (true, (s1.fadd F.MEM_ECC_CNT_UNCORR 1).eccCapture c false (bytes.getD (v % max 1 bytes.length) 0))

/-- What a read reports for which no command says it: a free value (log entry 10). -/
def State.freshEcc (s : State) : EccResult × State :=
  let (v, s1) := s.fresh
  (if v % 3 = 0 then .clean else if v % 3 = 1 then .corrected else .uncorrectable, s1)

/-- A client's read of `n` bytes. -/
def State.clientRead (s : State) (c : Client) (a n : Nat) (e : EccResult) : Bool × State := s.readPieces c [(a, n)] e

/-- Whether full training of the HBM stack runs, in which no client is served (R319). -/
def State.hbmTrains (s : State) : Bool := s.fget F.MPHY_TRAIN_STAT_STATE == 1

/-- The crossings that a reset flushes are counted (R399); no source overflows a crossing (R397), so OVF stays 0. -/
def State.flushXing (s : State) (n : Nat) : State := s.fadd F.CLK_XING_STAT_FLUSH (Config.crossings n)

/-- Change a panel-link port. -/
def State.modPl (s : State) (p : Nat) (f : PlPort → PlPort) : State := { s with pl := modNth s.pl p f }

/-- A panel-link port. -/
def State.plPort (s : State) (p : Nat) : PlPort := s.pl.getD p PlPort.reset

end Sys2Proof.Machine
end

