-- ==== Sys2Proof/Machine/Power.lean ====
section
/-! DEFINITION. Power-state requests and the chain RUN, IDLE, STANDBY, DEEP (15_clocks_resets_power.md R403 to R406). -/

namespace Sys2Proof.Machine

/-- Power states, by the codes of R403, with TRIPPED (R415). -/
inductive PState where
  | run | idle | standby | deep | tripped
  deriving DecidableEq, Repr

/-- The code of a power state. -/
def PState.code : PState → Nat
  | .run => 0
  | .idle => 1
  | .standby => 2
  | .deep => 3
  | .tripped => 4

/-- Sources of a request, by the codes of PWR_STATE_STAT.WAKE. -/
inductive WakeSrc where
  | register | mbox0 | cas | ing | hello | timer | wakeCell | service
  deriving DecidableEq, Repr

/-- The code of a request source. -/
def WakeSrc.code : WakeSrc → Nat
  | .register => 1
  | .mbox0 => 2
  | .cas => 3
  | .ing => 4
  | .hello => 5
  | .timer => 6
  | .wakeCell => 7
  | .service => 8

/-- Change PWR. -/
def State.modPwr (s : State) (f : Pwr → Pwr) : State := { s with pwr := f s.pwr }

/-- The last power state reached. -/
def State.pstate (s : State) : Nat := s.fget F.PWR_STATE_STAT_STATE

/-- The next state of the chain on the way from `st` to `target` (R404). -/
def chainNext (st target : Nat) : Option Nat :=
  if st = target then none
  else if st = 0 then some 1
  else if st = 1 then some target
  else if st = 2 ∨ st = 3 then some 1
  else none

/-- With no step in progress, the next step toward the target falls due (R405). -/
def State.pwrAim (s : State) : State :=
  if s.pwr.due.isSome || s.pwr.going.isSome then s
  else
    let n := chainNext s.pstate (s.fget F.PWR_STATE_STAT_TARGET)
    (s.fput F.PWR_STATE_STAT_MOVING n.isSome).modPwr (fun p => { p with due := n })

/-- A state is reached (R405): the event, and the next step toward the target. -/
def State.pwrReached (s : State) (st : PState) : State :=
  let s1 := ((s.fset F.PWR_STATE_STAT_STATE st.code).fadd F.PWR_STATE_STAT_CHANGES 1).raise 21
  (s1.modPwr (fun p => { p with due := none, going := none })).pwrAim

/-- Begin the step that is due, if it leads to `st` from `src`. -/
def State.pwrBegin (s : State) (src st : PState) : Option State :=
  if s.pwr.due = some st.code ∧ s.pstate = src.code then
    some (s.modPwr (fun p => { p with due := none, going := some st.code }))
  else none

/-- Whether RUN is refused: CRIT or TRIP holds (R405). -/
def State.runRefused (s : State) : Bool := s.fget F.CAL_THERM_STAT_LEVEL == 4 || s.pwr.tripped

/-- Whether the core's clocks run (R391, R403). -/
def State.coreRuns (s : State) : Bool := s.pwr.core && s.flag F.CLK_STAT_C_LOCK

/-- Whether the block of an address is off, or held in reset (R329, R401, R403). -/
def State.isOff (s : State) (a : Nat) : Bool :=
  if s.pwr.por then true
  else if a < 0x60000 then false
  else if 0x500000 ≤ a ∧ a < 0x510000 then !s.coreRuns && (s.pstate == 2 || s.pstate == 3)
  else !s.coreRuns

/-- A register access that starts an action at address `a`: without effect while the block is off or held in reset (R329). -/
def State.onReg (s : State) (a : Nat) (f : State → State) : State := if s.isOff a then s else f s

/-- Bring-up reaches a state and step, which NVM_BOOT_STAT reports. -/
def State.bootTo (s : State) (st step : Nat) : State :=
  let s1 := (s.fset F.NVM_BOOT_STAT_STATE st).fset F.NVM_BOOT_STAT_STEP step
  { s1 with boot := { s1.boot with state := st, step := step } }

/-- A request for a power state, by the code of its source (R405). -/
def State.pwrAsk (s : State) (src target : Nat) : State :=
  let s1 := s.fset F.PWR_STATE_STAT_WAKE src
  if target = 0 ∧ s1.runRefused then s1.fset F.PWR_STATE_STAT_RESULT 2
  else if target = s1.pstate ∧ s1.pwr.due.isNone ∧ s1.pwr.going.isNone then s1.fset F.PWR_STATE_STAT_RESULT 1
  else ((s1.fset F.PWR_STATE_STAT_RESULT 0).fset F.PWR_STATE_STAT_TARGET target).pwrAim

/-- A request for a power state from a source of R405. -/
def State.pwrRequest (s : State) (src : WakeSrc) (target : Nat) : State := s.pwrAsk src.code target

/-- A wake source requests the state that WAKE_TO names, where its enable bit is 1 (R406). -/
def State.pwrWake (s : State) (src : WakeSrc) (en : Fld) : State :=
  if s.flag en then s.pwrRequest src (s.fget F.PWR_WAKE_CFG_WAKE_TO) else s

end Sys2Proof.Machine
end

