-- ==== Sys2Proof/Machine/Crypto.lean ====
section
/-! DEFINITION. Hashing and key derivation over the opaque SHA-384 (R254: HMAC of RFC 2104, HKDF of RFC 5869). -/

namespace Sys2Proof.Machine

/-- SHA-384 of a byte string, as 48 bytes. -/
def sha384Bytes (m : List Byte) : List Byte := beBytes 48 (Config.sha384 m).toNat

/-- A byte string padded with zeros to `n` bytes. -/
def padTo (n : Nat) (b : List Byte) : List Byte := (b ++ List.replicate (n - b.length) 0).take n

/-- The unit's public key, that of UNIT_KEY (R384, R385). -/
def leafPublic : List Byte := Config.ecPublic Config.unitPrivate.toNat

/-- HMAC-SHA-384 (block length 128 bytes). -/
def hmacSha384 (key msg : List Byte) : List Byte :=
  let k := padTo 128 (if 128 < key.length then sha384Bytes key else key)
  sha384Bytes (k.map (· ^^^ 0x5C) ++ sha384Bytes (k.map (· ^^^ 0x36) ++ msg))

/-- HKDF-Expand for at most 48 bytes: the first block of the output. -/
def hkdfExpand (prk info : List Byte) (n : Nat) : List Byte := (hmacSha384 prk (info ++ [0x01])).take n

/-- The bytes of an ASCII string. -/
def ascii (s : String) : List Byte := s.toList.map (fun c => BitVec.ofNat 8 c.toNat)

/-- key[n] of R254 from the phase's secret. -/
def phaseKey (sec : List Byte) : List Byte := hkdfExpand sec (ascii "key") 32

/-- sec[n + 1] of R254. -/
def nextSec (sec : List Byte) : List Byte := hkdfExpand sec (ascii "next") 48

/-- The nonce of R255: iv[n] with the port and the sequence number. -/
def phaseNonce (sec : List Byte) (port seq : Nat) : List Byte :=
  let iv := padTo 12 (hkdfExpand sec (ascii "iv") 12)
  iv.take 7 ++ [(iv.getD 7 0) ^^^ BitVec.ofNat 8 port] ++
    ((iv.drop 8).zip (beBytes 4 seq)).map (fun e => e.1 ^^^ e.2)

end Sys2Proof.Machine
end

