-- ==== Sys2Proof/Machine/Unit.lean ====
section
/-! DEFINITION. The unit's identity: its fuse array and its certificate (14_boot_image_identity.md R384 to R387). How X.509 v3
writes a certificate in DER is PRESUMED from the standards that R385 names (log entry 24). -/

namespace Sys2Proof.Machine

/-! DER. -/

/-- The bytes of a number, most significant first, without leading zeros. -/
def natBytes (n : Nat) : List Byte := (beBytes 8 n).dropWhile (· == 0)

/-- A DER length. -/
def derLen (n : Nat) : List Byte := if n < 128 then [BitVec.ofNat 8 n] else BitVec.ofNat 8 (128 + (natBytes n).length) :: natBytes n

/-- A DER element. -/
def der (tag : Nat) (b : List Byte) : List Byte := BitVec.ofNat 8 tag :: (derLen b.length ++ b)

/-- A SEQUENCE. -/
def derSeq (l : List (List Byte)) : List Byte := der 0x30 l.flatten

/-- An OBJECT IDENTIFIER, from the bytes of its encoding. -/
def derOid (l : List Nat) : List Byte := der 0x06 (l.map (BitVec.ofNat 8))

/-- A positive INTEGER. -/
def derNat (n : Nat) : List Byte :=
  let b := natBytes n
  der 0x02 (if (b.headD 0x80).toNat < 128 then b else 0 :: b)

/-- A BIT STRING of whole bytes. -/
def derBits (b : List Byte) : List Byte := der 0x03 (0 :: b)

/-- A distinguished name, from the last byte of each attribute type 2.5.4.n and its text. -/
def derName (l : List (Nat × String)) : List Byte :=
  derSeq (l.map (fun e => der 0x31 (derSeq [derOid [0x55, 0x04, e.1], der 0x0C (ascii e.2)])))

/-- An extension, from the last byte of its type 2.5.29.n. -/
def derExt (n : Nat) (critical : Bool) (v : List Byte) : List Byte :=
  derSeq [derOid [0x55, 0x1D, n], (if critical then der 0x01 [0xFF] else []), der 0x04 v]

/-! The unit certificate (R385). -/

/-- A number in hexadecimal digits, upper case (DESIGN CHOICE, log entry 24). -/
def hexDigits (k n : Nat) : String :=
  String.ofList ((List.range k).map (fun i => "0123456789ABCDEF".toList.getD (n / 16 ^ (k - 1 - i) % 16) '0'))

/-- ecdsa-with-SHA384. -/
def derEcdsa384 : List Byte := derSeq [derOid [0x2A, 0x86, 0x48, 0xCE, 0x3D, 0x04, 0x03, 0x03]]

/-- What the certificate of a unit of a grade says. -/
def unitTbs (gradeX : Bool) : List Byte :=
  derSeq [der 0xA0 (derNat 2), derNat Config.unitSerial.toNat, derEcdsa384,
    derName [(3, "Tefold Unit CA"), (10, "Tefold Semiconductor")],
    derSeq [der 0x17 Config.madeOn, der 0x18 (ascii "99991231235959Z")],
    derName [(3, hexDigits 16 Config.unitSerial.toNat), (11, if gradeX then "CHN-8200-X B0" else "CHN-8200-C B0"),
      (10, "Tefold Semiconductor")],
    derSeq [derSeq [derOid [0x2A, 0x86, 0x48, 0xCE, 0x3D, 0x02, 0x01], derOid [0x2B, 0x81, 0x04, 0x00, 0x22]],
      derBits leafPublic],
    der 0xA3 (derSeq [derExt 15 true (der 0x03 [0x07, 0x80]), derExt 19 true (derSeq []),
      derExt 14 false (der 0x04 Config.leafKeyId), derExt 35 false (derSeq [der 0x80 Config.caKeyId])])]

/-- The unit certificate: at INDEX 0 of the device's chain, and in the fuses from byte 0x130. -/
def unitCert (gradeX : Bool) : List Byte :=
  derSeq [unitTbs gradeX, derEcdsa384, derBits (Config.caSign (unitTbs gradeX))]

/-! The fuse array (R386). -/

/-- The root slots that are programmed, bit n for slot n. -/
def Fuses.programmed (f : Fuses) : Nat := 1 + 2 * b2n f.root1.isSome + 4 * b2n f.root2.isSome

/-- The hash in a root slot. -/
def Fuses.root (f : Fuses) (n : Nat) : Option (BitVec 384) :=
  if n = 0 then some Config.rootHash0 else if n = 1 then f.root1 else if n = 2 then f.root2 else none

/-- Program root slot 1 or 2. -/
def Fuses.setRoot (f : Fuses) (n : Nat) (h : BitVec 384) : Fuses :=
  if n = 1 then { f with root1 := some h } else { f with root2 := some h }

/-- The fused rollback level: the 1 bits of the thermometer. -/
def Fuses.level (f : Fuses) : Nat := popcount 64 f.rollback.toNat

/-- Raise the fused level to `n`, of at most 64; it never falls (R379). -/
def Fuses.burn (f : Fuses) (n : Nat) : Fuses := { f with rollback := f.rollback ||| BitVec.ofNat 64 (2 ^ min 64 n - 1) }

/-- The fields of the map, each with its byte offset; a hash lies as its bytes stand, the private scalar most significant byte first,
and a number least significant byte first (DESIGN CHOICE, log entry 24). -/
def Fuses.fields (f : Fuses) : List (Nat × List Byte) :=
  let hash := fun n => ((f.root n).map (fun h => beBytes 48 h.toNat)).getD (List.replicate 48 0)
  let trims := (List.range 4).flatMap (fun r => (List.range 2).flatMap (fun k =>
    (List.range 8).map (fun j => BitVec.ofNat 8 ((Config.convTrims r k).getD j 0))))
  [(0x000, leBytes 8 Config.unitSerial.toNat), (0x008, beBytes 48 Config.unitPrivate.toNat),
    (0x038, leBytes 4 (b2n f.gradeX + 2 * b2n f.debugLock)), (0x040, trims), (0x080, hash 0 ++ hash 1 ++ hash 2),
    (0x110, leBytes 1 (f.programmed + 16 * f.revoked)), (0x118, leBytes 8 f.rollback.toNat),
    (0x128, leBytes 2 (unitCert f.gradeX).length), (0x130, (unitCert f.gradeX).take 1024)]

/-- A byte of the array; one that no field holds reads 0. -/
def Fuses.byte (f : Fuses) (o : Nat) : Byte :=
  (f.fields.findSome? (fun e => if e.1 ≤ o then e.2[o - e.1]? else none)).getD 0

/-- A number of `n` bytes in the array. -/
def Fuses.num (f : Fuses) (o n : Nat) : Nat := leNat ((List.range n).map (fun i => f.byte (o + i)))

/-- UNIT_KEY, which only the signing engine reads (R384, R386). -/
def Fuses.unitKey (f : Fuses) : Nat := beNat ((List.range 48).map (fun i => f.byte (0x008 + i)))

end Sys2Proof.Machine
end

