-- ==== Sys2Proof/Machine/Send.lean ====
section
/-! DEFINITION. The device as a sender of packets (R219, R221, R232, R235 to R240, R255): building, sealing and sending,
and the NAK entries of a refusal. -/

namespace Sys2Proof.Machine

/-- Packet type codes (R222). -/
inductive PType where
  | hello | cert | keyshare | finish | declare | block | overlay | fence | commit | control | mail | event | ack | nak
  | credit | keepalive | close
  deriving DecidableEq, Repr

/-- The code of a packet type. -/
def PType.code : PType → Nat
  | .hello => 0x01
  | .cert => 0x02
  | .keyshare => 0x03
  | .finish => 0x04
  | .declare => 0x10
  | .block => 0x11
  | .overlay => 0x12
  | .fence => 0x13
  | .commit => 0x14
  | .control => 0x20
  | .mail => 0x21
  | .event => 0x22
  | .ack => 0x30
  | .nak => 0x31
  | .credit => 0x32
  | .keepalive => 0x33
  | .close => 0x34

/-- All packet types. -/
def PType.all : List PType :=
  [.hello, .cert, .keyshare, .finish, .declare, .block, .overlay, .fence, .commit, .control, .mail, .event, .ack, .nak,
    .credit, .keepalive, .close]

/-- The type of a code; none where R222 lists none. -/
def ptypeOf (c : Nat) : Option PType := PType.all.find? (fun t => t.code == c)

/-- Types without a sequence number (R222). -/
def PType.unseq : PType → Bool
  | .ack => true
  | .nak => true
  | .keepalive => true
  | _ => false

/-- Types that the device never receives (R222). -/
def PType.deviceOnly : PType → Bool
  | .event => true
  | .credit => true
  | _ => false

/-- Types that occupy a page of the port buffer (R222, R241). -/
def PType.buffered : PType → Bool
  | .block => false
  | .credit => false
  | t => !t.unseq

/-- The bytes of a header (R221). -/
def Hdr.encode (h : Hdr) : List Byte :=
  leBytes 1 h.ty ++ leBytes 1 (b2n h.auth * 128 + b2n h.enc * 64 + b2n h.retx * 32 + b2n h.xd * 16 + h.keyph) ++
  leBytes 2 h.len ++ leBytes 4 h.seq ++ leBytes 4 h.xdep ++ leBytes 4 h.sid ++ padTo 12 h.tsf ++ leBytes 4 h.stamp

/-- The associated header bytes of R255: RETX and STAMP read 0. -/
def Hdr.aad (h : Hdr) : List Byte := { h with retx := false, stamp := 0 }.encode

/-- A packet as sent: header, payload, tag, CRC-32C and padding to 8 bytes (R219). -/
def Pkt.encode (p : Pkt) : List Byte :=
  let b := p.hdr.encode ++ p.payload ++ p.tag
  let w := b ++ leBytes 4 (crc32c b)
  w ++ List.replicate ((8 - w.length % 8) % 8) 0

/-- The blocks of an ingest stream as the 8 bytes after the sync header, with whether the header is that of a control block
(R215). -/
structure StreamBlk where
  control : Bool
  bytes : List Byte
  deriving DecidableEq, Repr

/-- The START control block (R215). -/
def startBlk : StreamBlk := { control := true, bytes := leBytes 8 0x78 }

/-- The IDLE control block, which fills the stream between packets (R215, R216). -/
def idleBlk : StreamBlk := { control := true, bytes := leBytes 8 0x1E }

/-- The ALIGN control block of a logical lane (R215). -/
def alignBlk (lane port count : Nat) : List Byte :=
  leBytes 1 0x4B ++ leBytes 1 lane ++ leBytes 1 port ++ leBytes 1 (count % 256) ++ List.replicate 4 0xA5

/-- The stream blocks of a packet or a cell of these bytes: one START and then the data blocks, byte 0 of a block first (R216,
R219). -/
def streamBlocks (b : List Byte) : List StreamBlk :=
  startBlk :: (List.range (b.length / 8)).map (fun k => { control := false, bytes := sliceB b (8 * k) 8 })

/-- The START and data blocks that a port's back-channel has sent, oldest first; IDLE blocks stand between packets. -/
def IngPort.stream (q : IngPort) : List StreamBlk := q.wire.flatMap (fun p => streamBlocks p.encode)

/-- Lane and block period, counted from the last ALIGN, of stream block `n` of a port of `lanes` lanes (R216, R275); an ingest port has 8,
its back-channel lane 0 alone, and a cascade port 4. -/
def stripe (lanes n : Nat) : Nat × Nat := (n % lanes, n / lanes)

/-- The stream blocks that logical lane `l` of a port of `lanes` lanes carries, in order. -/
def laneBlocks (lanes l : Nat) (st : List StreamBlk) : List StreamBlk :=
  (st.zipIdx.filter (fun b => (stripe lanes b.2).1 == l)).map (fun b => b.1)

/-- The attachment that holds a port, by its place in the list. -/
def State.attOf (s : State) (p : Nat) : Option Nat :=
  findBelow s.ses.atts.length (fun i => ((s.ses.atts[i]?).map (fun a => a.ports.contains p)).getD false)

/-- Attachment `i`. -/
def State.att (s : State) (i : Nat) : Option Att := s.ses.atts[i]?

/-- Whether an ingest port is UP (ING_STAT.STATE). -/
def State.portUp (s : State) (p : Nat) : Bool := s.fget (F.ING_STAT_STATE p) == 2

/-- The port an attachment's packets leave on: its lowest UP port, else its lowest (R232). -/
def State.sendPort (s : State) (a : Att) : Nat := ((a.ports.find? s.portUp).orElse (fun _ => a.ports.head?)).getD 0

/-- The device's STAMP: its time base in ns modulo 2^32 (R221). -/
def State.stamp (s : State) : Nat := s.nowNs % 2 ^ 32

/-- Seal a packet under an attachment's current sending key (R255). -/
def sealPkt (a : Att) (port : Nat) (h : Hdr) (payload : List Byte) : Pkt :=
  let h := { h with auth := true, enc := a.enc && !payload.isEmpty, keyph := a.tx.phase % 4 }
  let key := phaseKey a.tx.sec
  let nonce := phaseNonce a.tx.sec port h.seq
  if h.enc then
    let out := Config.gcmSeal key nonce h.aad payload
    { hdr := h, payload := padTo payload.length out, tag := padTo 16 (out.drop payload.length) }
  else { hdr := h, payload := payload, tag := padTo 16 (Config.gcmSeal key nonce (h.aad ++ payload) []) }

/-- Put a packet on the back-channel of a port. -/
def State.emit (s : State) (p : Nat) (pkt : Pkt) : State := s.modPort p (fun q => { q with wire := q.wire ++ [pkt] })

/-- Send a sequenced packet of attachment `i` on port `p` now, or keep it waiting while 256 are unacknowledged (R239). -/
def State.sendSeq (s : State) (i p : Nat) (ty : PType) (tsf payload : List Byte) : State :=
  match s.att i with
  | none => s
  | some a =>
    let q := s.port p
    if 256 ≤ q.unacked.length ∨ q.waiting ≠ [] then
      s.modPort p (fun q => { q with waiting := q.waiting ++ [⟨ty.code, tsf, payload⟩] })
    else
      let h : Hdr := { ty := ty.code, auth := false, enc := false, retx := false, xd := false, keyph := 0,
                       len := payload.length, seq := q.txNext, xdep := 0, sid := a.sid, tsf := padTo 12 tsf, stamp := s.stamp }
      let pkt := if a.keyed then sealPkt a p h payload else { hdr := h, payload := payload, tag := [] }
      let s1 := s.modPort p (fun q => { q with
        txNext := (q.txNext + 1) % 2 ^ 32, unacked := q.unacked ++ [⟨pkt, 0, s.ageNs⟩] })
      let s2 := if a.keyed then s1.modAtt i (fun a => { a with tx := { a.tx with
          count := a.tx.count + 1, since := some (a.tx.since.getD s.ageNs) } }) else s1
      s2.emit p pkt

/-- Send on the attachment's sending port. -/
def State.sendAtt (s : State) (i : Nat) (ty : PType) (tsf payload : List Byte) : State :=
  match s.att i with
  | none => s
  | some a => s.sendSeq i (s.sendPort a) ty tsf payload

/-- Send the packets that waited for an acknowledgement, oldest first, while fewer than 256 are unacknowledged. -/
def State.sendWaiting (s : State) (i p : Nat) : Nat → State
  | 0 => s
  | n + 1 =>
    match (s.port p).waiting with
    | [] => s
    | w :: ws =>
      if 256 ≤ (s.port p).unacked.length then s
      else
        let s1 := s.modPort p (fun q => { q with waiting := [] })
        let s2 := s1.sendSeq i p ((ptypeOf w.ty).getD .event) w.tsf w.payload
        State.sendWaiting (s2.modPort p (fun q => { q with waiting := ws })) i p n

/-- SID that an unsequenced packet of a port carries: its attachment's, or 0. -/
def State.portSid (s : State) (p : Nat) : Nat := (((s.attOf p).bind s.att).map (fun a => a.sid)).getD 0

/-- Send an unsequenced packet: SEQ, AUTH and ENC are 0 (R222, R256). -/
def State.sendUnseq (s : State) (p : Nat) (ty : PType) (tsf payload : List Byte) : State :=
  s.emit p { hdr := { ty := ty.code, auth := false, enc := false, retx := false, xd := false, keyph := 0,
                      len := payload.length, seq := 0, xdep := 0, sid := s.portSid p, tsf := padTo 12 tsf, stamp := s.stamp },
             payload := payload, tag := [] }

/-- Runs of consecutive received sequence numbers among those held, at most 32 (R235). -/
def sackRuns : List Nat → List (Nat × Nat) → List (Nat × Nat)
  | [], acc => acc
  | x :: xs, acc =>
    match acc.getLast? with
    | some (a, b) => if x = b + 1 then sackRuns xs (acc.dropLast ++ [(a, x)]) else sackRuns xs (acc ++ [(x, x)])
    | none => sackRuns xs [(x, x)]

/-- Send an ACK (R235): CUM is NEXT, with the runs held above it. -/
def State.sendAck (s : State) (p : Nat) : State :=
  let q := s.port p
  let offs := (q.held.map (fun e => (e.1 + 2 ^ 32 - q.rxNext) % 2 ^ 32)).filter (fun o => o < 4096)
  let runs := (sackRuns offs []).take 32
  let pay := runs.flatMap (fun r => leBytes 4 ((q.rxNext + r.1) % 2 ^ 32) ++ leBytes 4 ((q.rxNext + r.2) % 2 ^ 32))
  (s.sendUnseq p .ack (leBytes 4 q.rxNext ++ leBytes 1 runs.length ++ leBytes 3 0 ++ leBytes 4 q.echo) pay).modPort p
    (fun q => { q with uncovered := 0 })

/-- Kinds of NAK entry (R236). -/
inductive NakKind where
  | resend | refuse | window
  deriving DecidableEq, Repr

/-- The code of a NAK entry's kind. -/
def NakKind.code : NakKind → Nat
  | .resend => 1
  | .refuse => 2
  | .window => 3

/-- Add a NAK entry to a NAK packet that has been sent in the same microsecond (R237). -/
def Pkt.addEntry (w : Pkt) (cum ent : List Byte) : Pkt :=
  let pay := w.payload ++ ent
  { w with hdr := { w.hdr with len := pay.length, tsf := padTo 12 (cum ++ leBytes 1 (pay.length / 12)) }
           payload := pay }

/-- Change the last packet of a wire that `ok` accepts; none where there is no such packet. -/
def changeLast (ok : Pkt → Bool) (f : Pkt → Pkt) : List Pkt → Option (List Pkt)
  | [] => none
  | w :: ws =>
    match changeLast ok f ws with
    | some r => some (w :: r)
    | none => if ok w then some (f w :: ws) else none

/-- The NAK packet that a port has sent last, as long as entries that fall due now share it (R237): it is of the present
microsecond, and it holds fewer than 64 entries. -/
def State.sharedNak (s : State) (p : Nat) : Option Pkt :=
  if (s.port p).nakAt = some (s.ageNs / 1000) then
    (((s.port p).wire.filter (fun w => w.hdr.ty == PType.nak.code)).getLast?).filter (fun w => decide (w.payload.length < 768))
  else none

/-- Send a NAK entry; entries that fall due within one microsecond share a packet (R237). -/
def State.sendNak (s : State) (p first count : Nat) (k : NakKind) (n : Nak) : State :=
  let ent := leBytes 4 first ++ leBytes 2 count ++ leBytes 1 k.code ++ leBytes 1 n.reason ++ leBytes 4 n.ctx
  let cum := leBytes 4 (s.port p).rxNext
  match (s.sharedNak p).bind (fun _ => changeLast (fun w => w.hdr.ty == PType.nak.code) (fun w => w.addEntry cum ent) (s.port p).wire) with
  | some ws => s.modPort p (fun q => { q with wire := ws })
  | none => (s.sendUnseq p .nak (cum ++ leBytes 1 1) ent).modPort p (fun q => { q with nakAt := some (s.ageNs / 1000) })

/-- Report the refusal of a packet in a REFUSE entry, and count the reasons that ING_NAK_CNT counts (R230, R237). -/
def State.refusePkt (s : State) (o : Origin) (n : Nak) : State :=
  let s1 := s.sendNak o.port o.seq 1 .refuse n
  if n.reason = 0x06 then s1.fadd (F.ING_NAK_CNT_PKTFMT o.port) 1
  else if n.reason = 0x08 then s1.fadd (F.ING_NAK_CNT_NOCREDIT o.port) 1
  else s1

end Sys2Proof.Machine
end

