-- ==== Sys2Proof/Machine/Slots.lean ====
section
/-! DEFINITION. Frame slots, their rings and credits, and declarations (05_layers_commits_flips.md R96 to R107, R452;
03_scene_coding.md R54 to R61; 09_ingest_link.md R226, R227). -/

namespace Sys2Proof.Machine

/-- Slot `n`. -/
def State.slot (s : State) (n : Nat) : Slot := s.slots.getD n Slot.empty

/-- Change slot `n`. -/
def State.modSlot (s : State) (n : Nat) (f : Slot → Slot) : State := { s with slots := modNth s.slots n f }

/-- Size of slot `n` in MiB; 0 for an absent slot (R97). No slot extends above the 288 MiB of R23, whatever is written to
SWD_SLOT_CFG while SWD is stopped (DESIGN CHOICE, log entry 22). -/
def State.slotSize (s : State) (n : Nat) : Nat :=
  let a := min 288 (s.fget F.SWD_SLOT_CFG_SIZE0)
  let b := min (288 - a) (s.fget F.SWD_SLOT_CFG_SIZE1)
  match n with
  | 0 => a
  | 1 => b
  | 2 => min (288 - a - b) (s.fget F.SWD_SLOT_CFG_SIZE2)
  | _ => 0

/-- The code of SWD_SLOT_STAT.STATE. -/
def State.slotCode (s : State) (n : Nat) : Nat :=
  if s.slotSize n = 0 then 0
  else match (s.slot n).phase with
    | .free => 1
    | .filling => 2
    | .held => 3

/-- Whether a slot is FILLING. -/
def State.isFilling (s : State) (n : Nat) : Bool := s.slotCode n == 2

/-- The broadcast channel that overlay `i` is mapped to (R294). -/
def State.bovlChan (s : State) (i : Nat) : Option Nat :=
  let nib := bitsOf (s.rget R.CAS_BOVL_MAP).toNat (4 * i + 3) (4 * i)
  if i < 8 ∧ 8 ≤ nib then some (nib % 8) else none

/-- The active geometry, from the registers (R25, R27). -/
def State.geom (s : State) : Geom :=
  { ng := s.fget F.SYN_GEOM_CFG_NG_M1 + 1
    w := s.fget F.SYN_GEOM_CFG_W_M1 + 1
    h := s.fget F.SYN_GEOM_CFG_H_M1 + 1
    hp := s.fget F.TIM_FRAME_CFG_ACTIVE
    hx0 := s.fget F.SYN_GEOM_ORIGIN_HX0
    hy0 := s.fget F.SYN_GEOM_ORIGIN_HY0
    hpo := s.flag F.SYN_GEOM_CFG_HPO
    mirU := s.flag F.SYN_GEOM_CFG_MIRROR_U
    mirV := s.flag F.SYN_GEOM_CFG_MIRROR_V }

/-- The live timing, from the registers; 0 acts as 1 in N and D. -/
def State.timing (s : State) : Timing :=
  { rowCyc := s.fget F.TIM_ROW_CFG_ROW_CYC
    blank := s.fget F.TIM_FRAME_CFG_BLANK
    active := s.fget F.TIM_FRAME_CFG_ACTIVE
    npwmLog2 := s.fget F.TIM_CLOVER_CFG_NPWM_LOG2
    recoverRows := s.fget F.TIM_CLOVER_CFG_RECOVER_ROWS
    emitRows := s.fget F.TIM_CLOVER_CFG_EMIT_ROWS
    offset := s.fget F.TIM_LATCH_CFG_OFFSET
    n := max 1 (s.fget F.CLK_TIME_CFG_N)
    d := max 1 (s.fget F.CLK_TIME_CFG_D)
    goutCfg := (List.range 16).map (fun n => (s.rget (R.TIM_GOUT_CFG n)).toNat)
    goutEdge := (List.range 16).map (fun n => (s.rget (R.TIM_GOUT_EDGE n)).toNat)
    goutRow := (List.range 16).map (fun n => (s.rget (R.TIM_GOUT_ROW n)).toNat) }

/-- The active timing set's number. -/
def State.activeSet (s : State) : Nat := s.fget F.TIM_MODE_STAT_ACTIVE

/-- The timing set of a number, where the image has it. -/
def State.tsetOf (s : State) (n : Nat) : Option TSet := s.tsets.find? (fun t => t.tset == n)

/-- Whether a timing set is present and valid under R14, R117, R162 and R165 with the present lead. -/
def State.tsetValid (s : State) (n : Nat) : Bool :=
  match s.tsetOf n with
  | none => false
  | some t => timingValid t.timing (s.fget F.SYN_LEAD_CFG_LEAD) t.row0 && t.geom.valid

/-- Whether SYN's registers hold the target's geometry while the old set is still the active one: from Q2 until the new timing
starts (R132). -/
def State.geomAhead (s : State) : Bool :=
  match s.lyr.mode with
  | .q2 => true
  | .retune => true
  | .ready => true
  | _ => false

/-- The geometry that R35 uses for a timing set: the active geometry for the active set (R106). -/
def State.geomFor (s : State) (n : Nat) : Geom :=
  if n = s.activeSet ∧ !s.geomAhead then s.geom else ((s.tsetOf n).map TSet.geom).getD s.geom

/-- Layer record of a declaration (R103). -/
def readLayer (b : List Byte) (o : Nat) : LayerRec :=
  let c := byteAt b (o + 1)
  let e := byteAt b (o + 3)
  { overlay := bitOf (byteAt b o) 7
    isStatic := bitOf (byteAt b o) 6
    index := byteAt b o % 64
    group := c / 16
    isRef := bitOf c 3
    filt := c % 8
    fset := byteAt b (o + 2)
    ofmt := bitsOf e 3 2
    place :=
      { w := leAt b (o + 4) 2, h := leAt b (o + 6) 2
        ox := sInt 24 (leAt b (o + 8) 4), oy := sInt 24 (leAt b (o + 12) 4)
        kx := leAt b (o + 16) 2, ky := leAt b (o + 18) 2
        dx := sInt 16 (leAt b (o + 20) 2), dy := sInt 16 (leAt b (o + 22) 2)
        clampX := bitOf e 0, clampY := bitOf e 1
        hbound := leAt b (o + 24) 2, vbound := leAt b (o + 26) 2 }
    fallowId := leAt b (o + 28) 4
    ltag := leAt b (o + 32) 4 }

/-- The groups of a 16-bit mask, in increasing order. -/
def maskGroups (m : Nat) : List Nat := (List.range 16).filter (fun g => bitOf m g)

/-- The mask of a list of groups. -/
def groupMask (gs : List Nat) : Nat := (gs.eraseDups).foldl (fun m g => m + 2 ^ g) 0

/-- A failed part of check 1 of R105, by the payload offset of the field it is charged to (R452). -/
def failAt (ok : Bool) (off : Nat) : List Nat := if ok then [] else [off]

/-- Failures of the declaration header. -/
def declHdrFails (s : State) (b : List Byte) : List Nat :=
  let rel := bitOf (byteAt b 6) 0
  failAt (decide (byteAt b 0 < 3) && decide (s.slotSize (byteAt b 0) ≠ 0)) 0 ++
  failAt (if rel then byteAt b 1 == 0 else (s.tsetOf (byteAt b 1)).isSome) 1 ++
  failAt (!rel || leAt b 2 2 == 0) 2 ++
  failAt (if rel then byteAt b 4 == 0 else decide (byteAt b 4 ≤ 64)) 4 ++
  failAt (if rel then byteAt b 5 == 0 else decide (byteAt b 5 ≤ 8)) 5 ++
  failAt (byteAt b 6 / 2 == 0) 6 ++
  failAt (zeroAt b 7 9) 7

/-- Failures of the group record at `o`, which must be that of group `g`. -/
def declGroupFails (b : List Byte) (o g : Nat) : List Nat :=
  let nf := byteAt b (o + 1)
  failAt (byteAt b o == g) o ++ failAt (decide (nf ≤ 4)) (o + 1) ++ failAt (zeroAt b (o + 2) 2) (o + 2) ++
  (List.range 4).flatMap (fun i =>
    failAt (if i < nf then decide (byteAt b (o + 4 + 5 * i) ≤ 63) else byteAt b (o + 4 + 5 * i) == 0) (o + 4 + 5 * i) ++
    failAt (decide (i < nf) || leAt b (o + 5 + 5 * i) 4 == 0) (o + 5 + 5 * i))

/-- Failures of the layer record at `o`, given the records before it and how many of its kind the header announces. -/
def declLayerFails (b : List Byte) (o mask : Nat) (before : List LayerRec) (nplane novl : Nat) : List Nat :=
  let l := readLayer b o
  let sameKind := (before.filter (fun k => k.overlay == l.overlay)).length
  let announced := if l.overlay then novl else nplane
  failAt (decide (sameKind < announced) && !(before.any (fun k => k.overlay == l.overlay && k.index == l.index)) &&
    (!l.overlay || decide (l.index ≤ 7)) && !(l.overlay && l.isStatic)) o ++
  failAt (bitOf mask l.group && !(l.overlay && l.isRef) && !(l.isStatic && l.isRef) && (!l.overlay || l.filt == 0)) (o + 1) ++
  failAt (l.fset == 0 || (!l.overlay && l.isStatic)) (o + 2) ++
  failAt (byteAt b (o + 3) / 16 == 0 && decide (l.ofmt ≤ 1) && (l.overlay || l.ofmt == 0)) (o + 3) ++
  failAt ((l.fallowId != 0) == (l.isStatic || l.isRef)) (o + 28) ++
  failAt (zeroAt b (o + 36) 12) (o + 36)

/-- The layer records of a payload. -/
def readLayers (b : List Byte) (o : Nat) : Nat → List LayerRec
  | 0 => []
  | n + 1 => readLayer b o :: readLayers b (o + 48) n

/-- The least element of a list. -/
def leastOf : List Nat → Option Nat
  | [] => none
  | x :: xs => some (xs.foldl min x)

/-- Check 1 of R105; the CONTEXT of R452 where it fails. -/
def declFmt (s : State) (b : List Byte) : Option Nak :=
  let mask := leAt b 2 2
  let ng := popcount 16 mask
  let np := byteAt b 4
  let no := byteAt b 5
  let need := 16 + 24 * ng + 48 * (np + no)
  let mk := fun off => some (⟨0x20, off * 65536 + byteAt b 0⟩ : Nak)
  if b.length ≠ need then mk (min b.length need)
  else
    let layers := readLayers b (16 + 24 * ng) (np + no)
    let fails := declHdrFails s b ++
      ((maskGroups mask).zipIdx).flatMap (fun (g, i) => declGroupFails b (16 + 24 * i) g) ++
      ((layers.zipIdx).flatMap (fun (_, j) =>
        declLayerFails b (16 + 24 * ng + 48 * j) mask (layers.take j) np no))
    match leastOf fails with
    | none => none
    | some o => mk o

/-- Check 3 of R105 on one record: the lowest cause that applies (R452). -/
def declGeomCause (g : Geom) (b : List Byte) (o : Nat) : Option Nat :=
  let l := readLayer b o
  let signOk := fun o => let v := leAt b o 4; if bitOf v 23 then v / 2 ^ 24 == 255 else v / 2 ^ 24 == 0
  if !l.place.inRange then some 1
  else if !(signOk (o + 8) && signOk (o + 12)) then some 2
  else if l.place.hbound < ceilHmax g l.place then some 3
  else if l.place.vbound < ceilVmax g l.place then some 4
  else none

/-- Whether two layers have the identical fields that a flatten set and a REF layer share (R105 check 4). -/
def samePlacement (a b : LayerRec) : Bool :=
  { a.place with hbound := 0, vbound := 0 } == { b.place with hbound := 0, vbound := 0 } && a.filt == b.filt

/-- The Fallow entry of an id. -/
def State.entry (s : State) (fid : Nat) : Option FallowEntry := s.lyr.entries.find? (fun e => e.fid == fid)

/-- Check 4 of R105 on one record, given the records before it (a condition that joins two is charged to the later). -/
def declFallowOk (s : State) (l : LayerRec) (before : List LayerRec) : Bool :=
  (l.fset == 0 || before.all (fun k => k.fset != l.fset ||
    (k.group == l.group && k.fallowId == l.fallowId && samePlacement k l))) &&
  (l.fallowId == 0 || before.all (fun k => k.fallowId != l.fallowId ||
    ((!(k.isStatic || l.isStatic) || k.group == l.group) && !(k.isStatic && l.isRef) && !(k.isRef && l.isStatic)))) &&
  (!l.isStatic || (match s.entry l.fallowId with | none => true | some e => e.group == l.group)) &&
  (!l.isRef || (match s.entry l.fallowId with
    | none => false
    | some e => e.group == l.group && (match e.cur with | none => false | some g => samePlacement g.layer l)))

/-- The declaration a payload spells. -/
def readDecl (b : List Byte) : Decl :=
  let mask := leAt b 2 2
  let ng := popcount 16 mask
  { raw := b, tset := byteAt b 1, groupMask := mask
    groups := ((maskGroups mask).zipIdx).map (fun (g, i) =>
      { group := g
        fences := (List.range (byteAt b (16 + 24 * i + 1))).map (fun k =>
          (byteAt b (16 + 24 * i + 4 + 5 * k), leAt b (16 + 24 * i + 5 + 5 * k) 4)) })
    layers := readLayers b (16 + 24 * ng) (byteAt b 4 + byteAt b 5) }

/-- The scene planes of a declaration that send blocks: KIND = 0 and REF = 0 (R105, R107). -/
def Decl.planes (d : Decl) : List LayerRec := d.layers.filter (fun l => !l.overlay && !l.isRef)

/-- A ring before anything is stored in it. -/
def Ring.fresh : Ring :=
  { alloc := false, dirBase := 0, zmask := 0, rcvd := 0, bytes := 0, repl := 0, limit := 0, used := 0 }

/-- A ring of a slot. -/
def Slot.ring (t : Slot) (r : Nat) : Ring := ((t.rings.find? (fun e => e.1 == r)).map (·.2)).getD Ring.fresh

/-- Replace a ring of a slot, keeping the list in rising ring order. -/
def Slot.setRing (t : Slot) (r : Nat) (v : Ring) : Slot := { t with rings := SMap.put t.rings r v }

/-- The scene plane of a ring, where the slot's declaration has it with that band (R57 DECL). -/
def Slot.ringPlane (t : Slot) (r : Nat) : Option LayerRec :=
  match t.decl with
  | none => none
  | some d => d.planes.find? (fun l => l.index == r / 256 && decide (r % 256 < nbandOf l.place.h))

/-- Block columns of a declared ring; 0 for a ring that is not declared. -/
def Slot.ncol (t : Slot) (r : Nat) : Nat := ((t.ringPlane r).map (fun l => ncolOf l.place.w)).getD 0

/-- Whether a ring holds every block column (R57 COMPLETE). -/
def Slot.ringComplete (t : Slot) (r : Nat) : Bool :=
  decide (0 < t.ncol r) && (List.range (t.ncol r)).all (fun c => bitOf (t.ring r).rcvd c)

/-- The declared rings of a slot, in increasing number. -/
def Slot.declRings (t : Slot) : List Nat :=
  match t.decl with
  | none => []
  | some d => ((List.range 64).flatMap (fun p =>
      match d.planes.find? (fun l => l.index == p) with
      | none => []
      | some l => (List.range (nbandOf l.place.h)).map (fun b => p * 256 + b)))

/-- Chunks of 512 pixels in an overlay row (R228). -/
def chunksOf (w : Nat) : Nat := ceilDiv w 512

/-- The mask of the chunks of an overlay row that have been processed. -/
def Slot.chunkMask (t : Slot) (ovl row : Nat) : Nat :=
  ((t.ovlGot.find? (fun e => e.1 == ovl && e.2.1 == row)).map (fun e => e.2.2)).getD 0

/-- Whether every row of every declared overlay is present; a mapped overlay of a follower counts as present (R294). -/
def State.overlaysComplete (s : State) (n : Nat) : Bool :=
  match (s.slot n).decl with
  | none => true
  | some d => (d.layers.filter (fun l => l.overlay)).all (fun l =>
      (!s.isHead && (s.bovlChan l.index).isSome) ||
      (List.range l.place.h).all (fun y => (s.slot n).chunkMask l.index y == 2 ^ chunksOf l.place.w - 1))

/-- R61 and R228: the slot holds every block and every overlay row it declares. -/
def State.slotComplete (s : State) (n : Nat) : Bool :=
  (s.slot n).decl.isSome && (s.slot n).declRings.all (fun r => (s.slot n).ringComplete r) && s.overlaysComplete n

/-- Unused credit of a ring (R227). -/
def Ring.unused (r : Ring) : Nat := (r.limit + 256 - r.used % 256) % 256

/-- Open assemblies of a ring. -/
def State.openIn (s : State) (n r : Nat) : Nat := (s.asms.filter (fun a => a.slot == n && a.ring == r)).length

/-- Assembly contexts neither open nor backing a credit, of 4,096 (R225, R227). -/
def State.ctxFree (s : State) : Nat :=
  4096 - (s.asms.length + (s.slots.flatMap (fun t => t.rings.map (fun e => e.2.unused))).foldl (· + ·) 0)

/-- Grant `k` credits to a ring, bounded by the free contexts, and note the grant for the next CREDIT (R227, R240). -/
def State.grant (s : State) (n r k : Nat) : State :=
  let k := min k s.ctxFree
  if k = 0 then s
  else
    let s1 := s.modSlot n (fun t => t.setRing r { (t.ring r) with limit := ((t.ring r).limit + k) % 256 })
    if s1.ses.grants.contains (n, r) then s1
    else { s1 with ses := { s1.ses with grants := s1.ses.grants ++ [(n, r)] } }

/-- Step 2 of R227: one credit for each ring owed one, where a context is free and the ring is still declared. -/
def State.grantOwed (s : State) : State :=
  s.owed.foldl (fun s e =>
    if s.isFilling e.1 && decide (0 < (s.slot e.1).ncol e.2) then
      if s.ctxFree = 0 then s
      else let s1 := s.grant e.1 e.2 1; { s1 with owed := s1.owed.erase e }
    else { s with owed := s.owed.erase e }) s

/-- RING_CREDIT: 0 acts as 1, above 128 as 128. -/
def State.ringCredit (s : State) : Nat := min 128 (max 1 (s.fget F.ING_CREDIT_CFG_RING_CREDIT))

/-- Step 1 of R227 on one slot: raise each declared ring's unused credit. -/
def State.grantSlot (s : State) (n : Nat) : State :=
  (s.slot n).declRings.foldl (fun s r =>
    let t := s.slot n
    let lev := min s.ringCredit (t.ncol r - popcount 16 (t.ring r).rcvd - s.openIn n r)
    if (t.ring r).unused < lev then s.grant n r (lev - (t.ring r).unused) else s) s

/-- The FILLING slots in the order of their declaration. -/
def State.fillingSlots (s : State) : List Nat :=
  let fs := [0, 1, 2].filter s.isFilling
  let key := fun n => (s.slot n).order
  fs.foldl (fun acc n => (acc.filter (fun m => key m < key n)) ++ [n] ++ (acc.filter (fun m => !(key m < key n)))) []

/-- R227: owed credits first, then the top-up of every FILLING slot. -/
def State.grantAll (s : State) : State := s.fillingSlots.foldl (fun s n => s.grantSlot n) s.grantOwed

/-- A slot leaves FILLING or is released: unused credit is voided and open assemblies are closed (R227). -/
def State.voidCredit (s : State) (n : Nat) : State :=
  let s1 := s.modSlot n (fun t => { t with rings := t.rings.map (fun e => (e.1, { e.2 with limit := e.2.used })) })
  { s1 with asms := s1.asms.filter (fun a => a.slot != n)
            owed := s1.owed.filter (fun e => e.1 != n)
            ses := { s1.ses with grants := s1.ses.grants.filter (fun e => e.1 != n) } }

/-- Release of a slot: everything it holds is freed and it is FREE (R99, R107). -/
def State.freeSlot (s : State) (n : Nat) : State :=
  (s.voidCredit n).modSlot n (fun _ => Slot.empty)

end Sys2Proof.Machine
end

