-- ==== Sys2Proof/Machine/CasOps.lean ====
section
/-! DEFINITION. Cells on the cascade links (11_cascade.md R277 to R280, R296, R297): encoding, sending, routing, and what
becomes of a cell that cannot be routed. -/

namespace Sys2Proof.Machine

/-- Cell types (R278). -/
inductive CType where
  | turn | echo | enum | bcommit | mail | event | wake | data
  deriving DecidableEq, Repr

/-- The code of a cell type. -/
def CType.code : CType → Nat
  | .turn => 1
  | .echo => 2
  | .enum => 3
  | .bcommit => 4
  | .mail => 5
  | .event => 6
  | .wake => 7
  | .data => 8

/-- Whether cells of a type code are sequenced (R278). -/
def cellSequenced (ty : Nat) : Bool := decide (3 ≤ ty) && decide (ty ≤ 8)

/-- Priority of a cell type code (R278). -/
def cellPrio (ty : Nat) : Nat :=
  if ty ≤ 2 then 1 else if ty = 3 ∨ ty = 4 ∨ ty = 7 then 2 else if ty = 8 then 4 else 3

/-- The 16 header bytes and the payload of a cell (R277). -/
def Cell.body (c : Cell) : List Byte :=
  leBytes 1 c.ty ++ leBytes 1 0 ++ leBytes 2 c.payload.length ++ leBytes 2 c.seq ++ leBytes 2 c.ack ++
  leBytes 4 (b2n c.srcNone * 2 ^ 31 + c.src) ++ leBytes 4 (b2n c.all * 2 ^ 31 + c.dst) ++ c.payload

/-- A cell as sent: header, payload, CRC-32C and padding to 8 bytes (R277). -/
def Cell.encode (c : Cell) : List Byte :=
  let w := c.body ++ leBytes 4 (crc32c c.body)
  w ++ List.replicate ((8 - w.length % 8) % 8) 0

/-- The START and data blocks that a cascade port has sent, oldest first; IDLE blocks stand between cells (R275, R277). -/
def CasPort.stream (q : CasPort) : List StreamBlk := q.wire.flatMap (fun c => streamBlocks c.encode)

/-- What transmit lane `l` of a cascade port has carried: block n of the stream travels on logical lane n mod 4 (R275). -/
def CasPort.lane (q : CasPort) (l : Nat) : List StreamBlk := laneBlocks 4 l q.stream

/-- Read a cell from the bytes framed: none with a framing or CRC fault or with a reserved bit set (R277). -/
def readCell (b : List Byte) : Option Cell :=
  let len := leAt b 2 2
  let n := 20 + len
  if b.length < 20 ∨ 1024 < len ∨ b.length ≠ (n + 7) / 8 * 8 then none
  else if crc32c (b.take (16 + len)) ≠ leAt b (16 + len) 4 then none
  else if byteAt b 1 ≠ 0 ∨ bitsOf (leAt b 8 4) 30 18 ≠ 0 ∨ bitsOf (leAt b 12 4) 30 18 ≠ 0 then none
  else some
    { ty := byteAt b 0, seq := leAt b 4 2, ack := leAt b 6 2, srcNone := bitOf (leAt b 8 4) 31, src := leAt b 8 4 % 2 ^ 18,
      all := bitOf (leAt b 12 4) 31, dst := leAt b 12 4 % 2 ^ 18, payload := sliceB b 16 len }

/-- A cascade port. -/
def State.casPort (s : State) (n : Nat) : CasPort := s.cas.ports.getD n CasPort.reset

/-- Change a cascade port. -/
def State.modCasPort (s : State) (n : Nat) (f : CasPort → CasPort) : State :=
  { s with cas := { s.cas with ports := modNth s.cas.ports n f } }

/-- Whether cascade port `n` is UP and its partner is no head (R274). -/
def State.casUp (s : State) (n : Nat) : Bool :=
  s.fget (F.CAS_PORT_STAT_STATE n) == 2 && !s.flag (F.CAS_PORT_STAT_HEADCLASH n)

/-- Whether this device is numbered. -/
def State.numbered (s : State) : Bool := s.flag F.CAS_NUM_VALID

/-- This device's number. -/
def State.devNum (s : State) : Nat := s.fget F.CAS_NUM_NUM

/-- Whether the subtree of downstream port `k` (0 to 3) is enumerated. -/
def State.dnEnumerated (s : State) (k : Nat) : Bool := s.flag (F.CAS_PORT_STAT_NUMBERED (k + 1))

/-- Downstream ports with an enumerated subtree. -/
def State.dnPorts (s : State) : List Nat := (List.range 4).filter s.dnEnumerated

/-- First number of the range of downstream port `k` (R281). -/
def State.dnBase (s : State) (k : Nat) : Nat :=
  s.devNum + 1 + ((List.range k).map (fun j => s.fget (F.CAS_PORT_SIZE_SIZE j))).foldl (· + ·) 0

/-- The downstream port whose range holds a number. -/
def State.dnPortOf (s : State) (dst : Nat) : Option Nat :=
  (List.range 4).find? (fun k => s.dnEnumerated k && decide (s.dnBase k ≤ dst) &&
    decide (dst < s.dnBase k + s.fget (F.CAS_PORT_SIZE_SIZE k)))

/-- The waiting cell of highest priority, oldest first among equals, with the rest. -/
def pickCell (cs : List Cell) : Option (Cell × List Cell) :=
  match (List.range 4).findSome? (fun p => cs.find? (fun c => cellPrio c.ty == p + 1)) with
  | none => none
  | some c => some (c, cs.erase c)

/-- Send waiting cells while the link is UP and holds fewer than 256 unacknowledged cells (R279). -/
def State.pumpCells (s : State) (n : Nat) : Nat → State
  | 0 => s
  | k + 1 =>
    let q := s.casPort n
    if !s.casUp n then s
    else
      match pickCell q.waiting with
      | none => s
      | some (c, rest) =>
        if cellSequenced c.ty then
          if 256 ≤ q.unacked.length then s
          else
            let c1 := { c with seq := q.txSeq, ack := q.rxNext }
            State.pumpCells (s.modCasPort n (fun q => { q with
              txSeq := (q.txSeq + 1) % 2 ^ 16, waiting := rest, unacked := q.unacked ++ [c1], wire := q.wire ++ [c1] })) n k
        else
          let c1 := { c with seq := 0, ack := q.rxNext }
          State.pumpCells (s.modCasPort n (fun q => { q with waiting := rest, wire := q.wire ++ [c1] })) n k

/-- The cascade state of CAS_STAT. -/
def State.casState (s : State) : Nat := s.fget F.CAS_STAT_STATE

/-- Whether this device carries cells of a type: an excluded one only ECHO, ENUM and WAKE (R284). -/
def State.carries (s : State) (ty : Nat) : Bool :=
  s.casState != 7 || ty == CType.echo.code || ty == CType.enum.code || ty == CType.wake.code

/-- A cell that this device held while it had no number, as it leaves: its originator is numbered now (R277, R280). -/
def Cell.named (c : Cell) (num : Nat) : Cell := if c.srcNone then { c with srcNone := false, src := num } else c

/-- Queue a cell on port `n` and send what may be sent. -/
def State.putCell (s : State) (n : Nat) (c : Cell) : State :=
  if !s.carries c.ty then s
  else
  let s1 := s.modCasPort n (fun q => { q with waiting := q.waiting ++ [c] })
  s1.pumpCells n (s1.casPort n).waiting.length

/-- A cell of this device's own. -/
def State.ownCell (s : State) (ty : CType) (all : Bool) (dst : Nat) (payload : List Byte) : Cell :=
  { ty := ty.code, seq := 0, ack := 0, srcNone := !s.numbered, src := (if s.numbered then s.devNum else 0),
    all := all, dst := dst, payload := payload }

/-- Heath queues a response for box `b`'s OUT, to device `dst` of a cascade box (R346, R347). -/
def State.pushResponse (s : State) (b dst : Nat) (body : List Byte) : State :=
  { s with boxes := modNth s.boxes b (fun x => { x with responses := x.responses ++ [(dst, body)] }) }

/-- The body of a service response (R346). -/
def responseBody (svc rid result : Nat) (data : List Byte) : List Byte :=
  leBytes 2 (svc % 32768 + 32768) ++ leBytes 2 rid ++ leBytes 2 result ++ leBytes 2 0 ++ data

/-- A forwarded request in box 3's OUT comes back NOROUTE: its requester is answered so (R348). -/
def State.forwardLost (s : State) : State :=
  match (s.boxes.getD 3 Box.reset).outMsg with
  | none => s
  | some m =>
    match s.heath.forwards.find? (fun f => f.dev == (s.boxes.getD 3 Box.reset).outDst && f.svc == leAt m 8 2 &&
        f.req.rid == leAt m 10 2) with
    | none => s
    | some f =>
      ({ s with heath := { s.heath with forwards := s.heath.forwards.erase f } }).pushResponse f.req.box f.req.dev
        (responseBody f.svc f.req.rid 5 [])

/-- Record the outcome of the message in OUT of box `b` and clear it (R340): 1 DELIVERED, 2 MBOX_FULL, 3 NOROUTE,
4 DISCARDED. -/
def State.clearOut (s : State) (b res : Nat) : State :=
  let s1 := if b = 3 ∧ res = 3 then s.forwardLost else s
  { (s1.fset (F.MBX_BOX_STAT_OUT_RES b) res) with boxes := modNth s1.boxes b (fun x => { x with outMsg := none }) }

/-- The outbox here that holds a message with the header of one that comes back (DEDUCED, log entry 42). -/
def State.outBoxOf (s : State) (m : List Byte) : Option Nat :=
  [3, 4, 5, 6, 7].find? (fun b => (((s.boxes.getD b Box.reset).outMsg).map (fun o => o.take 8)) == some (m.take 8))

/-- Payload of a MAIL cell (R297). -/
def mailPayload (rsp : Bool) (status : Nat) (msg : List Byte) : List Byte :=
  leBytes 1 (b2n rsp) ++ leBytes 1 status ++ leBytes 6 0 ++ msg

/-- Where a cell goes (R280): nowhere, here, or a port. -/
inductive Route where
  | none
  | here
  | port (n : Nat)
  deriving DecidableEq, Repr

/-- The route of a cell with ALL = 0 (R280). -/
def State.routeOf (s : State) (dst : Nat) : Route :=
  if s.numbered && dst == s.devNum then .here
  else match s.dnPortOf dst with
    | some k => if s.casUp (k + 1) then .port (k + 1) else .none
    | none => if !s.isHead && s.casUp 0 then .port 0 else .none

/-- Whether cells of a type wait until this device knows its ranges (R280). -/
def State.holdsRouting (s : State) (ty : Nat) : Bool :=
  (ty == CType.mail.code || ty == CType.event.code) && (!s.numbered || s.cas.enum.isSome)

/-- Merge an EVENT cell into the first of a queue with the same SRC and SOURCE, by adding COUNT; none where there is none (R298). -/
def mergeEvent (l : List Cell) (c : Cell) : Option (List Cell) :=
  (l.findIdx? (fun d => d.ty == CType.event.code && d.src == c.src && d.srcNone == c.srcNone &&
    leAt d.payload 0 2 == leAt c.payload 0 2)).map (fun i => modNth l i (fun d =>
      { d with payload := spliceB d.payload 2 (leBytes 1 (satAdd 255 (byteAt d.payload 2) (byteAt c.payload 2))) }))

/-- Whether a queue of cells holds the 256 EVENT cells that the upward queue has room for (R298). -/
def eventsFull (l : List Cell) : Bool := decide (256 ≤ (l.filter (fun d => d.ty == CType.event.code)).length)

/-- The cell that tells of a dropped EVENT cell (R298). -/
def State.dropCell (s : State) : Cell :=
  s.ownCell .event false 0 (leBytes 2 0xFFFF ++ leBytes 1 1 ++ leBytes 1 0 ++ leBytes 6 s.lyr.turn ++ leBytes 2 0)

/-- A full queue takes an EVENT cell: it merges, or it is dropped and one cell of SOURCE 0xFFFF is queued, which merges with those of
earlier drops (R298; log entry 42); the queue, and whether the cell was dropped. -/
def State.eventFull (s : State) (l : List Cell) (c : Cell) : List Cell × Bool :=
  match mergeEvent l c with
  | some l1 => (l1, false)
  | none => ((mergeEvent l s.dropCell).getD (l ++ [s.dropCell]), true)

/-- Hold a cell until this device knows its ranges (R280); the EVENT cells held keep to the upward queue's room (R298). -/
def State.holdCell (s : State) (c : Cell) : State :=
  if c.ty = CType.event.code ∧ eventsFull s.cas.held then
    let (l, lost) := s.eventFull s.cas.held c
    let s1 := if lost then s.fadd F.CAS_EVT_LOST_COUNT 1 else s
    { s1 with cas := { s1.cas with held := l } }
  else { s with cas := { s.cas with held := s.cas.held ++ [c] } }

/-- Place a cell on port `n`, an EVENT cell in a queue with room for 256 (R298). -/
def State.placeCell (s : State) (n : Nat) (c : Cell) : State :=
  if c.ty = CType.event.code ∧ eventsFull (s.casPort n).waiting then
    let (l, lost) := s.eventFull (s.casPort n).waiting c
    (if lost then s.fadd F.CAS_EVT_LOST_COUNT 1 else s).modCasPort n (fun q => { q with waiting := l })
  else s.putCell n c

/-- Send a MAIL response to `dst` (R297); a response that cannot be routed is discarded. -/
def State.mailRespond (s : State) (dst status : Nat) (msg : List Byte) : State :=
  let c := s.ownCell .mail false dst (mailPayload true status msg)
  if s.holdsRouting c.ty then s.holdCell c
  else match s.routeOf dst with
    | .port n => s.placeCell n c
    | .here =>
      match s.outBoxOf msg with
      | some b => s.clearOut b (status + 1)
      | none => s
    | .none => s

/-- A cell that cannot be routed (R280): a message is answered NOROUTE to its sender, which may be this device. -/
def State.discardCell (s : State) (c : Cell) : State :=
  if c.ty = CType.mail.code ∧ ¬ bitOf (byteAt c.payload 0) 0 then
    let msg := c.payload.drop 8
    if c.srcNone ∨ (s.numbered ∧ c.src = s.devNum) then
      match s.outBoxOf msg with
      | some b => s.clearOut b 3
      | none => s
    else s.mailRespond c.src 2 msg
  else s

/-- Send a cell to every downstream port with an enumerated subtree (R280). -/
def State.forwardAll (s : State) (c : Cell) : State :=
  s.dnPorts.foldl (fun s k => if s.casUp (k + 1) then s.putCell (k + 1) c else s) s

/-- Route a cell that is not for this device (R280); the caller has acted on a cell that is. -/
def State.routeCell (s : State) (c : Cell) : State :=
  if s.holdsRouting c.ty then s.holdCell c
  else if c.all then s.forwardAll c
  else match s.routeOf c.dst with
    | .port n => s.placeCell n c
    | .here => s
    | .none => s.discardCell c

/-- Length of a turn of a timing, in 2^-16 ns: rows × ROW_CYC TIME cycles (01_architecture.md). -/
def Timing.turnUnits (t : Timing) : Nat := (t.active + t.blank) * t.rowCyc * t.d * 64 * 65536 / (10 * t.n)

/-- With a mode change under way, how many of the turns that open next run the old timing before the new timing opens one: the rest of Q1
and Q2, and what comes before them (R131, R293). -/
def State.oldTurns (s : State) : Option Nat :=
  match s.lyr.mode with
  | .idle => none
  | .waiting =>
    if s.lyr.modeGo then some 2
    else (s.cas.bcHold.find? (fun b => b.kind == 2 && b.arg == s.lyr.modeTarget)).map (fun b =>
      (b.target + 2 ^ 48 - s.lyr.turn) % 2 ^ 48 + 1)
  | .q1 => some 1
  | .q2 => some 0
  | .retune => some 0
  | .ready => some 0

/-- The first turn whose latch instant lies at least BC_LEAD after now (R291): latch instants follow one another by the old timing's turns
and then by the new timing's. With TIM stopped the next one may come at any moment, and counts as now (log entry 44). -/
def State.bcTarget (s : State) : Nat :=
  let old := max 1 s.timing.turnUnits
  let new := match s.oldTurns, s.tsetOf s.lyr.modeTarget with
    | some _, some t => max 1 t.timing.turnUnits
    | _, _ => old
  let lead := max 1 (s.fget F.CAS_BC_CFG_BC_LEAD) * 1000 * 65536
  let ahead := s.time + lead - s.lyr.latchTime
  let k :=
    if !s.tim.run then 1 + ceilDiv lead new
    else match s.oldTurns with
      | none => max 1 (ceilDiv ahead old)
      | some m => if ahead ≤ (m + 1) * old then max 1 (ceilDiv ahead old) else m + 1 + ceilDiv (ahead - (m + 1) * old) new
  (s.lyr.turn + k) % 2 ^ 48

/-- Payload of a BCOMMIT cell (R290). -/
def bcPayload (b : BCommit) : List Byte :=
  leBytes 1 b.kind ++ leBytes 1 b.arg ++ leBytes 6 b.target ++ leBytes 4 b.value ++ leBytes 4 0

/-- The head issues a BCOMMIT to every device, itself included (R291). -/
def State.issueBc (s : State) (b : BCommit) : State :=
  let s1 := s.forwardAll (s.ownCell .bcommit true 0 (bcPayload b))
  { s1 with cas := { s1.cas with bcHold := s1.cas.bcHold ++ [b] } }

/-- Whether `a` is newer than `b` in serial-number order (R109). -/
def newer32 (a b : Nat) : Bool :=
  let d := (a + 2 ^ 32 - b % 2 ^ 32) % 2 ^ 32
  decide (1 ≤ d) && decide (d < 2 ^ 31)

/-- Apply an update of fence `n` under R114: only a newer value takes effect. -/
def State.fenceApply (s : State) (n v : Nat) : State :=
  if newer32 v (s.fget (F.LYR_FENCE_VAL_VALUE n)) then s.fset (F.LYR_FENCE_VAL_VALUE n) v else s

/-- The newest value of a system fence, counting the FENCE cells that the head has issued and that wait (R292). -/
def State.fenceIssued (s : State) (n : Nat) : Nat :=
  s.cas.bcHold.foldl (fun v b => if b.kind = 1 ∧ b.arg = n ∧ newer32 b.value v then b.value else v)
    (s.fget (F.LYR_FENCE_VAL_VALUE n))

/-- The head takes a REQUEST (R292): a newer value goes out as a FENCE cell to every device. -/
def State.fenceRequested (s : State) (n v : Nat) : State :=
  if newer32 v (s.fenceIssued n) then s.issueBc ⟨1, n, s.bcTarget, v⟩ else s

/-- An update of a fence by a packet, a register or Heath (R114, R292): with SYSFENCE = 1 fences 48 to 63 go to the head. -/
def State.fenceUpdate (s : State) (n v : Nat) : State :=
  if s.flag F.CAS_CTL_SYSFENCE && decide (48 ≤ n) then
    if s.isHead then s.fenceRequested n v
    else s.routeCell (s.ownCell .bcommit false 0 (bcPayload ⟨4, n, 0, v⟩))
  else s.fenceApply n v

end Sys2Proof.Machine
end

