-- ==== Sys2Proof/Machine/Blocks.lean ====
section
/-! DEFINITION. Blocks and overlay rows entering a slot (03_scene_coding.md R54 to R63, 09_ingest_link.md R224 to R228,
05_layers_commits_flips.md R100, R104). -/

namespace Sys2Proof.Machine

/-- Count a Sward read's correction or uncorrectable error (R309); true where the data is lost. -/
def State.swardRead (s : State) (e : EccResult) : Bool × State :=
  match e with
  | .clean => (false, s)
  | .corrected => (false, s.fadd F.SWD_ECC_CNT_CORR 1)
  | .uncorrectable => (true, (s.fadd F.SWD_ECC_CNT_UNCORR 1).raise 9)

/-- The TSF of a BLOCK packet (R224). -/
structure BlkTsf where
  slot : Nat
  ring : Nat
  col : Nat
  offset : Nat
  blen : Nat
  deriving DecidableEq, Repr

/-- Read a BLOCK's TSF: byte 0 of `t` is byte 16 of the packet. -/
def readBlkTsf (t : List Byte) : BlkTsf :=
  { slot := byteAt t 0 % 4, ring := leAt t 1 2 % 2 ^ 14, col := byteAt t 3 % 16, offset := leAt t 4 3, blen := leAt t 8 3 }

/-- CONTEXT of a block position (R271). -/
def BlkTsf.ctx (b : BlkTsf) : Nat := b.slot * 2 ^ 30 + b.ring * 2 ^ 16 + b.col * 2 ^ 12

/-- Whether a fragment is well formed (R225). -/
def BlkTsf.wellFormed (b : BlkTsf) (len : Nat) : Bool :=
  b.offset % 4096 == 0 && decide (b.offset < b.blen) && decide (16 ≤ b.blen) && decide (b.blen ≤ 106496) &&
  len == min 4096 (b.blen - b.offset)

/-- ceil(n / 16): the 16-byte units that n bytes occupy (R55). -/
def unitsOf (n : Nat) : Nat := ceilDiv n 16

/-- The open assembly of a position. -/
def State.asmAt (s : State) (b : BlkTsf) : Option Assembly :=
  s.asms.find? (fun a => a.slot == b.slot && a.ring == b.ring && a.col == b.col)

/-- Replace the assembly of a position. -/
def State.setAsm (s : State) (a : Assembly) : State :=
  { s with asms := s.asms.map (fun x => if x.slot = a.slot ∧ x.ring = a.ring ∧ x.col = a.col then a else x) }

/-- Close the assembly of a position. -/
def State.closeAsm (s : State) (b : BlkTsf) : State :=
  { s with asms := s.asms.filter (fun a => !(a.slot == b.slot && a.ring == b.ring && a.col == b.col)) }

/-- Units reserved by the open assemblies of a slot (R225). -/
def State.reserved (s : State) (n : Nat) : Nat :=
  ((s.asms.filter (fun a => a.slot == n && a.hasSpace)).map (fun a => unitsOf a.blen)).foldl (· + ·) 0

/-- Units of a slot that are neither counted nor reserved. -/
def State.slotFree (s : State) (n : Nat) : Nat := s.slotSize n * 65536 - (s.slot n).units - s.reserved n

/-- An assembly opened or reopened now, with its space reserved where the slot has it (R225). -/
def State.newAsm (s : State) (b : BlkTsf) : Assembly :=
  { slot := b.slot, ring := b.ring, col := b.col, blen := b.blen, hasSpace := decide (unitsOf b.blen ≤ s.slotFree b.slot),
    version := s.asmSeq, head := [], frags := [], touched := [] }

/-- The fragment's bytes join an assembly, replacing those of the same offset; without space only the first 64 bytes of
the block are kept (R225). -/
def Assembly.join (a : Assembly) (p offset : Nat) (bytes : List Byte) : Assembly :=
  let counted := a.frags.any (fun f => f.offset == offset && f.counted)
  { a with
    head := if offset = 0 then bytes.take 64 else a.head
    frags := (a.frags.filter (fun f => f.offset != offset)) ++
      [{ offset := offset, port := p, bytes := if a.hasSpace then bytes else [], counted := counted }]
    touched := if a.touched.contains p then a.touched else a.touched ++ [p] }

/-- Arrival of a BLOCK fragment: check 7 of R230. Either a refusal, or the version of the assembly it joined. -/
def State.fragArrive (s : State) (p : Nat) (tsf payload : List Byte) : (Nak ⊕ Nat) × State :=
  let b := readBlkTsf tsf
  if !b.wellFormed payload.length then (.inl ⟨0x07, b.ctx⟩, s)
  else
    match s.asmAt b with
    | some a =>
      if a.blen = b.blen then (.inr a.version, s.setAsm (a.join p b.offset payload))
      else
        let s1 := s.closeAsm b
        let a1 := (s1.newAsm b).join p b.offset payload
        (.inr a1.version, { s1 with asms := s1.asms ++ [a1], asmSeq := s1.asmSeq + 1 })
    | none =>
      if b.slot < 3 ∧ 0 < ((s.slot b.slot).ring b.ring).unused then
        let s1 := s.modSlot b.slot (fun t =>
          t.setRing b.ring { (t.ring b.ring) with used := ((t.ring b.ring).used + 1) % 256 })
        let a1 := (s1.newAsm b).join p b.offset payload
        (.inr a1.version, { s1 with asms := s1.asms ++ [a1], asmSeq := s1.asmSeq + 1 })
      else
        let owed := s.isFilling b.slot && decide (0 < (s.slot b.slot).ncol b.ring)
        let s1 := if owed then { s with owed := s.owed ++ [(b.slot, b.ring)] } else s
        (.inl ⟨0x08, b.ctx⟩, s1.grantOwed)

/-- The stored entry of a position, or the reconstruction of R54 for a block held only in ZMASK (DEDUCED, log entry 21). -/
def Slot.storedHdr (t : Slot) (ring col : Nat) : Option BlockHdr :=
  let r := t.ring ring
  if !bitOf r.rcvd col then none
  else match t.dir.find? (fun e => r.alloc && e.1 == r.dirBase + col) with
    | some e => some e.2.hdr
    | none => some { plane := ring / 256, band := ring % 256, zero := true, dyna := false, dync := false, col := col,
                     ctab := 0, atab := 0, len := 16, tag := 0 }

/-- Allocate the ring's directory entries at its first block with ZERO = 0, and set the entries of the blocks that ZMASK
holds (R54). -/
def Slot.allocRing (t : Slot) (ring : Nat) : Slot :=
  let r := t.ring ring
  if r.alloc then t
  else
    let n := t.ncol ring
    let base := t.dirUsed
    let zs := (List.range n).filter (fun c => bitOf r.zmask c)
    let entry := fun (c : Nat) => (⟨true, false, 0, ⟨ring / 256, ring % 256, true, false, false, c, 0, 0, 16, 0⟩, 0, []⟩ : DirEntry)
    { (t.setRing ring { r with alloc := true, dirBase := base }) with
      dirUsed := base + n, dir := zs.foldl (fun d c => SMap.put d (base + c) (entry c)) t.dir }

/-- Store a block that passed every check (R54 to R58). -/
def Slot.store (t : Slot) (ring col port addr : Nat) (h : BlockHdr) (bytes : List Byte) : Slot :=
  let had := bitOf (t.ring ring).rcvd col
  let t1 := if h.zero then t else t.allocRing ring
  let r := t1.ring ring
  let e : DirEntry := { zero := h.zero, derr := false, addr := if h.zero then 0 else addr, hdr := h, port := port,
                        bytes := if h.zero then [] else bytes }
  let space := if h.zero then 0 else unitsOf h.len
  let zm := if bitOf r.zmask col == h.zero then r.zmask
    else if h.zero then r.zmask + 2 ^ col else r.zmask - 2 ^ col
  let r1 := { r with
    zmask := zm, rcvd := if had then r.rcvd else r.rcvd + 2 ^ col, bytes := r.bytes + 16 * space
    repl := if had then satAdd 65535 r.repl 1 else r.repl }
  { (t1.setRing ring r1) with
    dir := if r.alloc then SMap.put t1.dir (r.dirBase + col) e else t1.dir, units := t1.units + space }

/-- Whether directory entries remain for a block of a ring (R54). -/
def Slot.entriesFit (t : Slot) (ring : Nat) (h : BlockHdr) : Bool :=
  h.zero || (t.ring ring).alloc || decide (t.dirUsed + t.ncol ring ≤ 131072)

/-- The checks of R62 with those of R225, in order: the NAK reason of the first that fails. `space` says that the assembly
had slot space; `badHead` and `badRing` that the assembly head or the ring descriptor was lost (R309). -/
def State.blockCheck (s : State) (b : BlkTsf) (head : List Byte) (space badHead badRing : Bool) : Option Nat :=
  let h := readBlockHdr head
  let t := s.slot b.slot
  if badHead || !blockFmtOk head then some 0x24
  else if h.len ≠ b.blen ∨ !blockLenOk h then some 0x24
  else if h.plane * 256 + h.band ≠ b.ring ∨ h.col ≠ b.col ∨ t.ncol b.ring ≤ b.col then some 0x25
  else if !tablesPresent s.codeTabs h then some 0x26
  else if !dynTablesOk h head then some 0x26
  else if badRing ∨ (¬ h.zero ∧ (¬ space ∨ !t.entriesFit b.ring h)) then some 0x27
  else none

/-- Count a block refused at ingest by its reason (R63). -/
def State.countRefused (s : State) (reason : Nat) : State :=
  if reason = 0x24 then s.fadd F.SWD_BLK_REFUSED_BLOCKFMT 1
  else if reason = 0x25 then s.fadd F.SWD_BLK_REFUSED_BLOCKPOS 1
  else if reason = 0x26 then s.fadd F.SWD_BLK_REFUSED_CODETAB 1
  else s.fadd F.SWD_BLK_REFUSED_SLOTFULL 1

/-- First Sward unit of slot `n`: the slots are packed in order from address 0 (R305). -/
def State.slotBase (s : State) (n : Nat) : Nat := ((List.range n).map s.slotSize).foldl (· + ·) 0 * 65536

/-- Completion of an assembled block (R60, R62, R63, R58): the reason of its refusal, if any. The place that the device
gives the block is a free value within its slot (log entry 22). -/
def State.blockComplete (s : State) (a : Assembly) (port : Nat) (head ring : EccResult) : Option Nat × State :=
  let b : BlkTsf := { slot := a.slot, ring := a.ring, col := a.col, offset := 0, blen := a.blen }
  let (badHead, s1) := s.swardRead head
  let (badRing, s2) := s1.swardRead ring
  let s3 := s2.closeAsm b
  let h := readBlockHdr a.head
  match s3.blockCheck b a.head a.hasSpace badHead badRing with
  | some r => (some r, (s3.countRefused r).grantAll)
  | none =>
    if (s3.slot b.slot).storedHdr b.ring b.col = some h then (none, (s3.fadd F.SWD_BLK_STAT_SAME 1).grantAll)
    else
      let (v, s4) := s3.fresh
      let addr := s4.slotBase b.slot + v % max 1 (s4.slotSize b.slot * 65536 + 1 - unitsOf h.len)
      let had := bitOf ((s4.slot b.slot).ring b.ring).rcvd b.col
      let body := (List.range (ceilDiv a.blen 4096)).flatMap (fun i =>
        ((a.frags.find? (fun f => f.offset == 4096 * i)).map (fun f => f.bytes)).getD [])
      let s5 := s4.modSlot b.slot (fun t => t.store b.ring b.col port addr h body)
      (none, (if had then s5.fadd F.SWD_BLK_STAT_REPLACED 1 else s5).grantAll)

/-- CONTEXT of a SLOTSTATE refusal (R271). -/
def State.slotStateCtx (s : State) (n : Nat) : Nat := s.slotCode n * 256 + n

/-- Processing of a BLOCK fragment (R225, R231): the refusal it draws, if any. -/
def State.fragProcess (s : State) (tsf : List Byte) (port : Nat) (version : Option Nat) (head ring : EccResult) :
    Option Nak × State :=
  let b := readBlkTsf tsf
  if !s.isFilling b.slot then (some ⟨0x21, s.slotStateCtx b.slot⟩, s)
  else
    match s.asmAt b with
    | none => (none, s)
    | some a =>
      if some a.version ≠ version then (none, s)
      else
        let a1 := { a with frags := a.frags.map (fun f => if f.offset = b.offset then { f with counted := true } else f) }
        if (List.range (ceilDiv a.blen 4096)).all (fun i => a1.frags.any (fun f => f.offset == 4096 * i && f.counted)) then
          match s.blockComplete a1 port head ring with
          | (some r, s1) => (some ⟨r, b.ctx⟩, s1)
          | (none, s1) => (none, s1)
        else (none, s.setAsm a1)

/-! Overlays (R228, R104, R323). -/

/-- Expand a packed pixel of OFMT 0 to the packing of OFMT 1 (R104). -/
def expandPixel (b : List Byte) : List Byte :=
  let e := fun i => let v := byteAt b i; v * 4 + v / 64
  leBytes 5 (e 0 + e 1 * 2 ^ 10 + e 2 * 2 ^ 20 + e 3 * 2 ^ 30)

/-- Expand `n` packed pixels of OFMT 0. -/
def expandPixels (b : List Byte) (n : Nat) : List Byte := (List.range n).flatMap (fun i => expandPixel (sliceB b (4 * i) 4))

/-- The TSF of an OVERLAY packet (R228). -/
structure OvlTsf where
  slot : Nat
  ovl : Nat
  row : Nat
  chunk : Nat
  nch : Nat
  deriving DecidableEq, Repr

/-- Read an OVERLAY's TSF. -/
def readOvlTsf (t : List Byte) : OvlTsf :=
  { slot := byteAt t 0 % 4, ovl := byteAt t 1 % 8, row := leAt t 2 2 % 4096, chunk := byteAt t 4 % 16, nch := byteAt t 5 % 4 }

/-- CONTEXT of an overlay position (R271). -/
def OvlTsf.ctx (o : OvlTsf) : Nat := o.slot * 2 ^ 30 + o.ovl * 2 ^ 27 + o.row * 2 ^ 15 + o.chunk * 2 ^ 11

/-- Address of a pixel of an overlay buffer (R323). -/
def State.ovlAddr (s : State) (slot ovl y x : Nat) : Nat :=
  s.regionBase 6 + slot * 1280 * 2 ^ 20 + ovl * 160 * 2 ^ 20 + 40960 * y + 5 * x

/-- The overlay layer that a slot's declaration gives an index. -/
def Slot.overlayOf (t : Slot) (i : Nat) : Option LayerRec :=
  match t.decl with
  | none => none
  | some d => d.layers.find? (fun l => l.overlay && l.index == i)

/-- Pixels that `nch` chunks from `chunk` on carry in a row of `w` pixels. -/
def chunkPixels (w chunk nch : Nat) : Nat := min (512 * nch) (w - 512 * chunk)

/-- Processing of an OVERLAY packet (R228): the refusal it draws, if any. -/
def State.overlayProcess (s : State) (tsf payload : List Byte) : Option Nak × State :=
  let o := readOvlTsf tsf
  if !s.isFilling o.slot then (some ⟨0x21, s.slotStateCtx o.slot⟩, s)
  else
    let t := s.slot o.slot
    match t.overlayOf o.ovl with
    | none => (some ⟨0x09, o.ctx⟩, s)
    | some l =>
      let wide := l.ofmt = 1
      let px := chunkPixels l.place.w o.chunk o.nch
      if (!s.isHead && (s.bovlChan o.ovl).isSome) ∨ l.place.h ≤ o.row ∨ chunksOf l.place.w < o.chunk + o.nch ∨ o.nch = 0 ∨
          (if wide then 1 else 2) < o.nch ∨ payload.length ≠ px * (if wide then 5 else 4) then (some ⟨0x09, o.ctx⟩, s)
      else
        let bytes := if wide then payload else expandPixels payload px
        let mask := t.chunkMask o.ovl o.row ||| ((2 ^ o.nch - 1) * 2 ^ o.chunk)
        let s1 := s.modSlot o.slot (fun t => { t with ovlGot :=
          (t.ovlGot.filter (fun e => !(e.1 == o.ovl && e.2.1 == o.row))) ++ [(o.ovl, o.row, mask)] })
        (none, s1.clientWrite .ovlWr (s1.ovlAddr o.slot o.ovl o.row (512 * o.chunk)) bytes)

end Sys2Proof.Machine
end

