-- ==== Sys2Proof/Machine/Commits.lean ====
section
/-! DEFINITION. Commits: validation, outcomes, supersession, Fallow space and jobs, and mode-change requests
(05_layers_commits_flips.md R99, R105 to R116, R124 to R130, R133). -/

namespace Sys2Proof.Machine

/-- Whether a fence value has reached a target (R114). -/
def reached (value target : Nat) : Bool := decide ((value + 2 ^ 32 - target % 2 ^ 32) % 2 ^ 32 < 2 ^ 31)

/-- Code of an outcome in LYR_COMMIT_STAT and in COMMIT records. -/
def CommitOutcome.code : CommitOutcome → Nat
  | .undecided => 0
  | .accepted => 1
  | .landed .. => 2
  | .refused .. => 3
  | .abandoned .. => 4
  | .superseded => 5
  | .discarded .. => 6

/-- NAK reason of an outcome. -/
def CommitOutcome.reason : CommitOutcome → Nat
  | .refused r _ => r
  | .abandoned r => r
  | .superseded => 0x32
  | .discarded r => r
  | _ => 0

/-- The EVENT record of an outcome decided in turn `turn` (R268). -/
def CommitOutcome.record (o : CommitOutcome) (slot groups id turn : Nat) : EvRec :=
  match o with
  | .landed t f => .commit 2 0 slot groups id t f
  | o => .commit o.code o.reason slot groups id turn 0

/-- The recorded entry of a commit id (R109). -/
def State.idRec (s : State) (id : Nat) : Option CommitRec := s.lyr.ids.find? (fun r => r.id == id)

/-- The newest recorded id, which is the last recorded, since each is newer than those before it (R109). -/
def State.newestId (s : State) : Option Nat := (s.lyr.ids.getLast?).map (fun r => r.id)

/-- Whether an id is newer than every recorded id (R109). -/
def State.idNewer (s : State) (id : Nat) : Bool := s.lyr.ids.all (fun r => newer32 id r.id)

/-- Record an id, keeping the 256 most recent (R109). -/
def State.recordId (s : State) (r : CommitRec) : State :=
  { s with lyr := { s.lyr with ids := (s.lyr.ids ++ [r]).drop (s.lyr.ids.length + 1 - 256) } }

/-- Answer a packet of a duplicate id with the recorded outcome (R109). -/
def State.answerWaiter (s : State) (r : CommitRec) (w : Origin) : State :=
  match r.outcome with
  | .refused n c => s.refusePkt w ⟨n, c⟩
  | .undecided => s
  | o => s.queueAll (o.record r.slot r.groups r.id r.turn)

/-- The slot field of a commit's record: 0xFF for a null commit. -/
def Commit.slotCode (c : Commit) : Nat := c.slot.getD 0xFF

/-- Whether reports of a session's commits are sent: it is the session that exists (R246). -/
def State.live (s : State) (sid : Nat) : Bool := s.ses.active && s.ses.sid == sid

/-- Decide an outcome for groups of a commit (R113, R269): the status registers, the recorded outcome, the report, and the
answers to duplicate packets that waited. An abandonment raises LYR_ABANDON. -/
def State.outcome (s : State) (sid id slot : Nat) (groups : List Nat) (o : CommitOutcome) : State :=
  let gm := groupMask groups
  let turn := match o with
    | .landed t _ => t
    | _ => s.lyr.turn
  let s1 := ((((s.fset F.LYR_COMMIT_STAT_OUTCOME o.code).fset F.LYR_COMMIT_STAT_REASON o.reason).fset
    F.LYR_COMMIT_STAT_GROUPS gm).rset R.LYR_COMMIT_ID (BitVec.ofNat 32 id)).rset R.LYR_COMMIT_TURN (BitVec.ofNat 32 turn)
  let s2 := if s.live sid then
      let r : CommitRec := { id := id, outcome := o, turn := turn, slot := slot, groups := gm, waiters := [] }
      let ws := ((s.idRec id).map (fun r => r.waiters)).getD []
      let s2 := s1.modLyr (fun l => { l with ids := l.ids.map (fun q => if q.id = id then r else q) })
      let s3 := match o with
        | .refused .. => s2
        | _ => s2.queueAll (o.record slot gm id turn)
      ws.foldl (fun s w => s.answerWaiter r w) s3
    else s1
  match o with
  | .abandoned _ => s2.raise 2
  | _ => s2

/-- Decide an outcome for groups of a commit. -/
def State.commitOutcome (s : State) (c : Commit) (groups : List Nat) (o : CommitOutcome) : State :=
  s.outcome c.sid c.id c.slotCode groups o

/-- The groups of a commit that are still pending. -/
def Commit.groupList (c : Commit) : List Nat := c.groups.map (fun g => g.1)

/-- Layers that a slot declares for a group (R96). -/
def State.contentOf (s : State) (slot g : Nat) : List LayerRec :=
  (((s.slot slot).decl.map (fun d => d.layers)).getD []).filter (fun l => l.group == g)

/-- The members of a flatten set of at least two planes (R124); a plane alone in its FSET is copied. -/
def flattenSet (ls : List LayerRec) (l : LayerRec) : List LayerRec :=
  if l.fset = 0 then [l] else ls.filter (fun k => k.fset == l.fset && !k.overlay)

/-- The layers that a content shows: of a flatten set only the highest INDEX (R126). -/
def shownLayers (ls : List LayerRec) : List LayerRec :=
  ls.filter (fun l => (flattenSet ls l).all (fun k => decide (k.index ≤ l.index)))

/-! Pool units (R87, R88, R91). -/

/-- VBOUND as the allocation takes it (R91). -/
def State.effVb (s : State) (vb : Nat) : Nat :=
  if s.flag F.SYN_POOL_CFG_DIAG_CLAMP then min vb (s.fget F.SYN_POOL_CFG_VCAP) else vb

/-- Line-pool units that layers take. -/
def State.lineSum (s : State) (ls : List LayerRec) : Nat :=
  ((ls.filter (fun l => !l.overlay)).map (fun l => lineUnits l.place.w (s.effVb l.place.vbound))).foldl (· + ·) 0

/-- Overlay-store units that layers take. -/
def State.ovlSum (s : State) (ls : List LayerRec) : Nat :=
  ((ls.filter (fun l => l.overlay)).map (fun l => ovlUnits l.place.w (s.effVb l.place.vbound))).foldl (· + ·) 0

/-- Line-pool units of a content. -/
def State.lineTotal (s : State) (ls : List LayerRec) : Nat := s.lineSum (shownLayers ls)

/-- Overlay-store units of a content. -/
def State.ovlTotal (s : State) (ls : List LayerRec) : Nat := s.ovlSum (shownLayers ls)

/-- The showing content and each accepted pending content of a group (R110). -/
def State.groupContents (s : State) (g : Nat) : List (List LayerRec) :=
  (match (s.lyr.groups.getD g none) with
    | some sh => [sh.layers]
    | none => []) ++
  (s.lyr.commits.filter (fun c => c.accepted && c.groupList.contains g)).filterMap (fun c =>
    c.slot.map (fun n => s.contentOf n g))

/-- The largest value of a list, 0 for none. -/
def maxOf (l : List Nat) : Nat := l.foldl max 0

/-- Totals of check 6 for a slot's commit: line-pool and overlay-store units (R110). -/
def State.poolTotals (s : State) (slot : Nat) : Nat × Nat :=
  let own := (s.slot slot).decl.map (fun d => (d.layers, maskGroups d.groupMask))
  let (ls, gs) := own.getD ([], [])
  let others := (List.range 16).filter (fun g => !gs.contains g)
  (s.lineTotal ls + (others.map (fun g => maxOf ((s.groupContents g).map s.lineTotal))).foldl (· + ·) 0,
   s.ovlTotal ls + (others.map (fun g => maxOf ((s.groupContents g).map s.ovlTotal))).foldl (· + ·) 0)

/-- Check 5 of R110: the first layer of the slot whose index another group's content holds. Of that content the layers it shows
count, so that the members that a flatten has absorbed do not clash (DESIGN CHOICE, log entry 25). -/
def State.clash (s : State) (slot : Nat) : Option LayerRec :=
  match (s.slot slot).decl with
  | none => none
  | some d =>
    let gs := maskGroups d.groupMask
    let others := ((List.range 16).filter (fun g => !gs.contains g)).flatMap (fun g =>
      (s.groupContents g).flatMap shownLayers)
    d.layers.find? (fun l => others.any (fun k => k.overlay == l.overlay && k.index == l.index))

/-! Fallow space and jobs (R124 to R129, R324). -/

/-- Stored bytes of a generation: the blocks in 16-byte units and one directory entry a position (R324). -/
def granulesOf (bytes nblk : Nat) : Nat := ceilDiv (bytes + 16 * nblk) 65536

/-- Block positions of a plane. -/
def planeBlocks (p : Placement) : Nat := ncolOf p.w * nbandOf p.h

/-- The directory entry of a position, with the reconstruction of R54 for a block held only in ZMASK; none where no block
is present. -/
def Slot.entryAt (t : Slot) (ring col : Nat) : Option DirEntry :=
  let r := t.ring ring
  if !bitOf r.rcvd col then none
  else match t.dir.find? (fun e => r.alloc && e.1 == r.dirBase + col) with
    | some e => some e.2
    | none => some ⟨true, false, 0, ⟨ring / 256, ring % 256, true, false, false, col, 0, 0, 16, 0⟩, 0, []⟩

/-- The blocks of a plane of a slot, by (band, column). -/
def Slot.planeEntries (t : Slot) (l : LayerRec) : List (Nat × Nat × DirEntry) :=
  (List.range (nbandOf l.place.h)).flatMap (fun b => (List.range (ncolOf l.place.w)).filterMap (fun c =>
    (t.entryAt (l.index * 256 + b) c).map (fun e => (b, c, e))))

/-- The granules that a job's new generation needs: the blocks as they are for a copy; for a flatten, whose coded size is
not known before, its largest coding (log entry 26). -/
def State.jobGranules (s : State) (slot : Nat) (members : List LayerRec) : Nat :=
  match members with
  | [l] =>
    granulesOf (((s.slot slot).planeEntries l).map (fun e =>
      if e.2.2.zero then 0 else 16 * unitsOf e.2.2.hdr.len)).sum (planeBlocks l.place)
  | l :: _ => granulesOf (planeBlocks l.place * 106496) (planeBlocks l.place)
  | [] => 0

/-- The jobs that a commit's declaration asks for: (FALLOW_ID, group, members in increasing INDEX) (R125). Two of one FALLOW_ID, by
planes with FSET 0 or by two flatten sets of a group, are two jobs for one entry, which keeps the generation of the one that ends
last (DESIGN CHOICE, log entry 26). -/
def declJobs (d : Decl) : List (Nat × Nat × List LayerRec) :=
  let st := d.layers.filter (fun l => l.isStatic)
  let tops := (shownLayers st)
  tops.map (fun l =>
    let ms := flattenSet st l
    (l.fallowId, l.group, ((List.range 64).filterMap (fun i => ms.find? (fun k => k.index == i)))))

/-- FALLOW_IDs that showing content, the groups still pending of commits, or FILLING declarations name (R129). -/
def State.fallowNamed (s : State) : List Nat :=
  (s.lyr.groups.flatMap (fun g => (g.map (fun sh => sh.layers.map (fun l => l.fallowId))).getD [])) ++
  ([0, 1, 2].flatMap (fun n =>
    if s.isFilling n then ((s.slot n).decl.map (fun d => d.layers.map (fun l => l.fallowId))).getD [] else [])) ++
  (s.lyr.commits.flatMap (fun c =>
    ((c.slot.bind (fun n => (s.slot n).decl)).map (fun d =>
      (d.layers.filter (fun l => c.groupList.contains l.group)).map (fun l => l.fallowId))).getD []))

/-- The granules that an entry's generations occupy. -/
def FallowEntry.tables (e : FallowEntry) : List Nat :=
  ((e.cur.map (fun g => g.table)).getD []) ++ ((e.new.map (fun g => g.table)).getD [])

/-- Granules an entry holds. -/
def FallowEntry.granules (e : FallowEntry) : Nat := e.tables.length

/-- Granules in use: those of every entry and those set aside for jobs that have not ended. -/
def State.granulesUsed (s : State) : Nat :=
  (s.lyr.entries.map FallowEntry.granules).sum + ((s.lyr.jobs.filter (fun j => !j.ended)).map (fun j => j.granules)).sum

/-- Granules of the Fallow region, at most 131,072 (R324). -/
def State.granulesTotal (s : State) : Nat := min 131072 (s.regionSize 8 / 65536)

/-- Evict unreferenced entries, least recently shown first, while fewer than `need` granules are free or fewer than `room`
entries are (R129). -/
def State.evict (s : State) (need room : Nat) : Nat → State
  | 0 => s
  | k + 1 =>
    if s.granulesUsed + need ≤ s.granulesTotal ∧ s.lyr.entries.length + room ≤ 64 then s
    else
      let named := s.fallowNamed
      let cand := s.lyr.entries.filter (fun e => !named.contains e.fid)
      match cand with
      | [] => s
      | c :: cs =>
        let v := cs.foldl (fun a e => if e.lastShown < a.lastShown then e else a) c
        State.evict (s.modLyr (fun l => { l with entries := l.entries.filter (fun e => e.fid != v.fid) })) need room k

/-- Check 7 of R110: granules missing after every possible eviction, or entries missing. -/
def State.fallowShort (s : State) (slot : Nat) : Option Nat :=
  match (s.slot slot).decl with
  | none => none
  | some d =>
    let jobs := declJobs d
    if jobs.isEmpty then none
    else
      let needs := jobs.map (fun j => s.jobGranules slot j.2.2)
      let fresh := (jobs.filter (fun j => (s.entry j.1).isNone)).length
      let s1 := s.evict needs.sum fresh s.lyr.entries.length
      let short := s1.granulesUsed + needs.sum - s1.granulesTotal
      if 0 < short then some short
      else if needs.any (fun n => decide (8192 < n)) then some ((maxOf needs) - 8192)
      else if 64 < s1.lyr.entries.length + fresh then some 0
      else none

/-- Discard what a commit's jobs for some groups were building (R128), and forget those jobs. -/
def State.dropJobs (s : State) (key : Nat) (groups : List Nat) : State :=
  let mine := fun (j : FallowJob) => j.commit == key && j.members.any (fun l => groups.contains l.group)
  { s with lyr := { s.lyr with
      entries := (s.lyr.entries.map (fun e =>
        if e.new.isSome && e.newFor == key && groups.contains e.group then { e with new := none } else e)).filter
        (fun e => e.cur.isSome || e.new.isSome ||
          s.lyr.jobs.any (fun j => j.fid == e.fid && !(mine j)))
      jobs := s.lyr.jobs.filter (fun j => !(mine j)) } }

/-! Pending commits. -/

/-- A mode-change request lapses with its commit before the change starts (R130). -/
def State.lapseMode (s : State) (key : Nat) : State :=
  if s.lyr.modeCommit = some key ∧ s.lyr.mode = .waiting then
    { (s.fset F.TIM_MODE_STAT_TARGET s.activeSet) with lyr := { s.lyr with
      mode := .idle, modeCommit := none, modeSent := false, modeGo := false } }
  else s

/-- Take groups of a commit out of the pending ones; a commit with none left is gone. While some are left, a mode change that the
commit requested goes on with those (DESIGN CHOICE, log entry 27). -/
def State.dropGroups (s : State) (key : Nat) (groups : List Nat) : State :=
  let s1 := s.dropJobs key groups
  let s2 := s1.modLyr (fun l => { l with
    commits := (l.commits.map (fun c =>
      if c.key = key then { c with groups := c.groups.filter (fun g => !groups.contains g.1) } else c)).filter
      (fun c => c.key != key || !c.groups.isEmpty) })
  if s2.lyr.commits.any (fun c => c.key == key) then s2 else s2.lapseMode key

/-- End a commit, whatever is pending of it. -/
def State.dropCommit (s : State) (c : Commit) : State :=
  let s1 := s.dropJobs c.key c.groupList
  (s1.modLyr (fun l => { l with commits := l.commits.filter (fun d => d.key != c.key) })).lapseMode c.key

/-- Abandon every group of a commit (R116, R107). -/
def State.abandonCommit (s : State) (c : Commit) (reason : Nat) : State :=
  (s.dropCommit c).commitOutcome c c.groupList (.abandoned reason)

/-- Release a FILLING slot as a DECLARE with RELEASE does: its waiting commits are abandoned with INCOMPLETE and everything
it holds is discarded (R107). -/
def State.releaseFilling (s : State) (n : Nat) : State :=
  if s.isFilling n then
    let ws := s.lyr.commits.filter (fun c => c.slot == some n && !c.accepted)
    ((ws.foldl (fun s c => s.abandonCommit c 0x30) s).freeSlot n).grantAll
  else s

/-- Release every FILLING slot (R246, R261, R264). -/
def State.releaseAllFilling (s : State) : State := [0, 1, 2].foldl (fun s n => s.releaseFilling n) s

/-- Refuse a commit (R110): the outcome is recorded, shown in LYR_COMMIT_STAT and answered with a REFUSE entry that names
the COMMIT packet, while its session lasts. -/
def State.refuseCommit (s : State) (c : Commit) (n : Nak) : State :=
  let s1 := s.commitOutcome c c.groupList (.refused n.reason n.ctx)
  if s.live c.sid then s1.refusePkt c.origin n else s1

/-- Supersede what an accepted commit replaces (R111): its groups' accepted pending commits whose Fallow job has not
started. -/
def State.supersede (s : State) (key : Nat) (groups : List Nat) : State :=
  let olds := s.lyr.commits.filter (fun c => c.accepted && c.key != key)
  olds.foldl (fun s c =>
    let gs := c.groupList.filter (fun g => groups.contains g)
    if gs.isEmpty || c.begun then s
    else (s.dropGroups c.key gs).commitOutcome c gs .superseded) s

/-- Queue the Fallow jobs of an accepted commit, evicting as far as space is needed (R125, R129). DESIGN CHOICE: in the order of
eviction an entry that has never been shown counts as shown last in turn 0, and those that stand alike go in the order of their creation
(log entry 26). -/
def State.queueJobs (s : State) (key slot : Nat) : State :=
  match (s.slot slot).decl with
  | none => s
  | some d =>
    (declJobs d).foldl (fun s j =>
      let need := s.jobGranules slot j.2.2
      let isNew := (s.entry j.1).isNone
      let s1 := s.evict need (if isNew then 1 else 0) s.lyr.entries.length
      let ent : FallowEntry := { fid := j.1, group := j.2.1, cur := none, new := none, newFor := 0, lastShown := 0 }
      { s1 with lyr := { s1.lyr with
        entries := if isNew then s1.lyr.entries ++ [ent] else s1.lyr.entries
        jobs := s1.lyr.jobs ++ [{ fid := j.1, commit := key, slot := slot, members := j.2.2, granules := need,
                                  started := false, ended := false }] } }) s

/-- Whether every fence that a commit's declaration gives a group has reached its target (R102, R114). -/
def State.fencesReached (s : State) (c : Commit) (g : Nat) : Bool :=
  match c.slot.bind (fun n => (s.slot n).decl) with
  | none => true
  | some d => ((d.groups.find? (fun r => r.group == g)).map (fun r =>
      r.fences.all (fun f => reached (s.fget (F.LYR_FENCE_VAL_VALUE f.1)) f.2))).getD true

/-- Whether every Fallow job of a commit has ended (R125). -/
def State.jobsEnded (s : State) (key : Nat) : Bool := s.lyr.jobs.all (fun j => j.commit != key || j.ended)

/-- Whether a commit is the first accepted one pending for a group (R115, R127). -/
def State.firstPending (s : State) (c : Commit) (g : Nat) : Bool :=
  ((s.lyr.commits.find? (fun d => d.accepted && d.groupList.contains g)).map (fun d => d.key == c.key)).getD false

/-- Whether a group of a commit is ready under R115. -/
def State.groupReady (s : State) (c : Commit) (g : Nat) : Bool :=
  c.accepted && s.firstPending c g && s.jobsEnded c.key && s.fencesReached c g

/-- The commit that is pending for a group: the first accepted one, or the first that waits to complete. -/
def State.pendingFor (s : State) (g : Nat) : Option Commit :=
  (s.lyr.commits.find? (fun c => c.accepted && c.groupList.contains g)).orElse
    (fun _ => s.lyr.commits.find? (fun c => c.groupList.contains g))

/-- What a pending group waits for, by the codes of LYR_GROUP_STAT.WAIT. -/
def State.waitCode (s : State) (c : Commit) (g : Nat) : Nat :=
  if !c.accepted then 1
  else if !(s.firstPending c g && s.jobsEnded c.key) then 3
  else if !s.fencesReached c g then 2 else 0

/-- LYR_GROUP_STAT at each latch row and each acceptance. -/
def State.showGroups (s : State) : State :=
  forBelow 16 (fun g s =>
    let sh := s.lyr.groups.getD g none
    let s2 := (s.fput (F.LYR_GROUP_STAT_SHOWN g) sh.isSome).fset (F.LYR_GROUP_STAT_SLOT g) ((sh.map (fun x => min 3 x.slot)).getD 3)
    let c := s.pendingFor g
    let wait := (c.map (fun c => s.waitCode c g)).getD 0
    let cnt := (c.map (fun c => ((c.groups.find? (fun e => e.1 == g)).map (·.2)).getD 0)).getD 0
    (((s2.fput (F.LYR_GROUP_STAT_PEND g) c.isSome).fset (F.LYR_GROUP_STAT_WAIT g) wait).fset (F.LYR_GROUP_STAT_PSLOT g)
      (((c.bind Commit.slot).map (fun n => min 3 n)).getD 3)).fset (F.LYR_GROUP_STAT_COUNT g) (min 255 cnt)) s

/-- Accept a commit (R110, R111, R125): its slot becomes HELD, it supersedes, its Fallow jobs are queued. -/
def State.acceptCommit (s : State) (c : Commit) : State :=
  let s1 := s.modLyr (fun l => { l with
    commits := l.commits.filter (fun d => d.key != c.key) ++ [{ c with accepted := true }] })
  let s2 := s1.commitOutcome c c.groupList .accepted
  match c.slot with
  | none => s2.showGroups
  | some n =>
    let s3 := ((s2.modSlot n (fun t => { t with phase := .held })).voidCredit n).grantAll
    ((s3.supersede c.key c.groupList).queueJobs c.key n).showGroups

/-- The commit that completes next: the first waiting one whose slot holds everything or is no longer FILLING (R110). -/
def State.completing (s : State) : Option Commit :=
  s.lyr.commits.find? (fun c => !c.accepted && (match c.slot with
    | none => false
    | some n => !s.isFilling n || s.slotComplete n))

/-- COMMIT completion: check 3 again, then checks 5 to 7 (R110). -/
def State.completeCommit (s : State) (c : Commit) : State :=
  let n := c.slot.getD 0
  let refuse := fun (s : State) (k : Nak) =>
    (s.dropCommit c).refuseCommit c k
  if !s.isFilling n then refuse s ⟨0x21, s.slotStateCtx n⟩
  else match s.clash n with
    | some l => refuse s ⟨0x2C, b2n l.overlay * 128 + l.index⟩
    | none =>
      let (line, ovl) := s.poolTotals n
      if 819 < line ∨ 102 < ovl then
        refuse ((s.fset F.SYN_POOL_REFUSED_LINE_REQ line).fset F.SYN_POOL_REFUSED_OVL_REQ ovl) ⟨0x2D, line * 65536 + ovl⟩
      else match s.fallowShort n with
        | some g => refuse s ⟨0x2E, ceilDiv g 16⟩
        | none => s.acceptCommit c

/-! Mode-change requests (R130, R293). -/

/-- Whether a mode change is in progress (R130). -/
def State.modeBusy (s : State) : Bool := s.lyr.mode != .idle

/-- Whether a quiet turn of a mode change is open, or the retune runs (R131, R133). -/
def State.modeQuiet (s : State) : Bool :=
  match s.lyr.mode with
  | .idle => false
  | .waiting => false
  | _ => true

/-- Whether this head drives other devices (R293). -/
def State.headsTree (s : State) : Bool := s.isHead && !s.dnPorts.isEmpty

/-- Begin a mode change towards a set: a register request is due at the next latch row, or at the target of the MODE cell
that a head with followers issues; a commit request waits for its groups (R130, R293). DESIGN CHOICE: while an accepted register
request is in progress TIM_MODE_STAT.RESULT keeps the code of the request before (log entry 27). -/
def State.beginMode (s : State) (tset : Nat) (commit : Option Nat) : State :=
  let s1 := { (s.fset F.TIM_MODE_STAT_TARGET tset) with lyr := { s.lyr with
    mode := .waiting, modeTarget := tset, modeCommit := commit, modeSent := false,
    modeGo := commit.isNone && !s.headsTree } }
  if commit.isNone && s.headsTree then
    (s1.issueBc ⟨2, tset, s1.bcTarget, 0⟩).modLyr (fun l => { l with modeSent := true })
  else s1

/-- Check 4 of R110, with the follower's rule of R293. -/
def State.commitCheck4 (s : State) (tset : Nat) (declTset : Option Nat) : Option Nak :=
  let modeOk := s.isHead || tset == s.activeSet || (s.modeBusy && s.lyr.modeTarget == tset)
  if !s.tsetValid tset || (declTset.isSome && declTset != some tset) || !modeOk then some ⟨0x2A, tset⟩
  else if s.modeBusy && tset != s.lyr.modeTarget && (tset != s.activeSet || s.modeQuiet) then
    some ⟨0x2B, s.lyr.modeTarget⟩
  else none

/-- Processing of a COMMIT (R108 to R112). One refused with COMMITFMT or COMMITID is no commit of the session: it is neither recorded
nor shown in LYR_COMMIT_STAT; and of the outcomes of one id, decided group by group, the latest is the recorded one (DESIGN CHOICE, log
entry 25). -/
def State.commitProcess (s : State) (o : Origin) (payload : List Byte) : State :=
  let id := leAt payload 0 4
  let slotB := byteAt payload 4
  let tsetB := byteAt payload 5
  let isNull := slotB = 0xFF
  if payload.length ≠ 8 ∨ leAt payload 6 2 ≠ 0 ∨ ¬ (isNull ∨ (slotB < 3 ∧ s.slotSize slotB ≠ 0)) ∨
      ¬ (tsetB ≤ 7 ∨ tsetB = 0xFF) then s.refusePkt o ⟨0x28, id⟩
  else match s.idRec id with
    | some r =>
      if r.outcome = .undecided then
        s.modLyr (fun l => { l with
          ids := l.ids.map (fun q => if q.id = id then { q with waiters := q.waiters ++ [o] } else q) })
      else s.answerWaiter r o
    | none =>
      if !s.idNewer id then s.refusePkt o ⟨0x29, s.newestId.getD 0⟩
      else
        let tset := if tsetB = 0xFF then s.activeSet else tsetB
        let d := if isNull then none else (s.slot slotB).decl
        let groups := if !isNull && s.isFilling slotB then (d.map (fun d => maskGroups d.groupMask)).getD [] else []
        let c : Commit := { key := s.lyr.count, sid := s.ses.sid, id := id, slot := if isNull then none else some slotB,
                            tset := tset, groups := groups.map (fun g => (g, 0)), accepted := false, origin := o }
        let s0 := s.recordId { id := id, outcome := .undecided, turn := 0, slot := slotB, groups := 0, waiters := [] }
        let s1 := s0.modLyr (fun l => { l with count := l.count + 1 })
        if !isNull && !s.isFilling slotB then s1.refuseCommit c ⟨0x21, s.slotStateCtx slotB⟩
        else match s.commitCheck4 tset (d.map (fun d => d.tset)) with
          | some n => s1.refuseCommit c n
          | none =>
            let s2 := s1.modLyr (fun l => { l with commits := l.commits ++ [c] })
            let s3 := if tset ≠ s.activeSet ∧ ¬ s.modeBusy then s2.beginMode tset (some c.key) else s2
            if isNull then s3.acceptCommit c else s3

/-! DECLARE (R105 to R107). -/

/-- A released DECLARE: a FILLING slot returns to FREE, a FREE one stays, a HELD one refuses (R107). -/
def State.declRelease (s : State) (n : Nat) : Option Nak × State :=
  if s.isFilling n then (none, s.releaseFilling n)
  else if s.slotCode n = 1 then (none, s)
  else (some ⟨0x21, s.slotStateCtx n⟩, s)

/-- Processing of a DECLARE: the refusal it draws, if any (R105, R107, R452). -/
def State.declProcess (s : State) (b : List Byte) : Option Nak × State :=
  match declFmt s b with
  | some n => (some n, s)
  | none =>
    let n := byteAt b 0
    if bitOf (byteAt b 6) 0 then s.declRelease n
    else if s.isFilling n && ((s.slot n).decl.map (fun d => d.raw == b)).getD false then (none, s)
    else if s.slotCode n ≠ 1 then (some ⟨0x21, s.slotStateCtx n⟩, s)
    else
      let d := readDecl b
      let lay := 16 + 24 * popcount 16 d.groupMask
      let g := s.geomFor d.tset
      match (List.range d.layers.length).findSome? (fun i => (declGeomCause g b (lay + 48 * i)).map (fun c => (c, i))) with
      | some (c, i) => (some ⟨0x22, c * 2 ^ 24 + i⟩, s)
      | none =>
        match (List.range d.layers.length).find? (fun i =>
            !((d.layers[i]?).map (fun l => declFallowOk s l (d.layers.take i))).getD true) with
        | some i => (some ⟨0x23, i⟩, s)
        | none =>
          let s1 := s.modSlot n (fun _ => { Slot.empty with
            phase := .filling, sid := s.ses.sid, decl := some d, order := s.lyr.count })
          (none, (s1.modLyr (fun l => { l with count := l.count + 1 })).grantAll)

end Sys2Proof.Machine
end

