-- ==== Sys2Proof/Machine/Session.lean ====
section
/-! DEFINITION. The session's own operations (10_scene_sessions.md): records, degradation, closing, failover, the end of the
session; and what a port loses when it goes DOWN (09_ingest_link.md R234). -/

namespace Sys2Proof.Machine

/-- Reasons of a CLOSE (R266). -/
inductive CloseReason where
  | normal | handover | timeout | auth | keylimit | host | shutdown
  deriving DecidableEq, Repr

/-- The code of a CLOSE reason. -/
def CloseReason.code : CloseReason → Nat
  | .normal => 0
  | .handover => 1
  | .timeout => 2
  | .auth => 3
  | .keylimit => 4
  | .host => 5
  | .shutdown => 6

/-- Whether an attachment has the primary's rights: PRIMARY or newly PROMOTED (R264). -/
def Att.isPrimary (a : Att) : Bool := a.role == .primary || a.role == .promoted

/-- Whether an attachment is open: not CLOSED. -/
def Att.isOpen (a : Att) : Bool := a.state != .closed

/-- The place of the first attachment that `f` accepts. -/
def State.attWhere (s : State) (f : Att → Bool) : Option Nat :=
  findBelow s.ses.atts.length (fun i => ((s.ses.atts[i]?).map f).getD false)

/-- The open primary. -/
def State.primary (s : State) : Option Nat := s.attWhere (fun a => a.isPrimary && a.isOpen)

/-- The KEYED standby. -/
def State.standby (s : State) : Option Nat := s.attWhere (fun a => a.role == .standby && a.state == .keyed)

/-- The open standby, KEYED or not. -/
def State.anyStandby (s : State) : Option Nat := s.attWhere (fun a => a.role == .standby && a.isOpen)

/-- A SESSION record of the present turn that carries only a cause and a port (R268). -/
def State.sesRec (s : State) (code cause port : Nat) : EvRec := .session code cause port 0 0 0 0 s.lyr.turn

/-- Causes now present (R263, R268). -/
def Att.causes (a : Att) : Nat := b2n a.silent + 2 * b2n a.bond + 4 * b2n a.retx

/-- The lowest port of an attachment. -/
def Att.port (a : Att) : Nat := (a.ports.head?).getD 0

/-- A cause of R263 that concerns port `p` arises on a primary: the move to DEGRADED with its record. -/
def State.degrade (s : State) (i p : Nat) (f : Att → Att) : State :=
  match s.att i with
  | none => s
  | some a =>
    let s1 := s.modAtt i f
    if a.isPrimary ∧ (a.state = .keyed ∨ a.state = .declared ∨ a.state = .streaming) then
      let s2 := s1.modAtt i (fun a => { a with resume := a.state, state := .degraded })
      s2.queueAll (s2.sesRec 4 (((s2.att i).map Att.causes).getD 0) p)
    else s1

/-- A cause that concerns port `p` clears: with none left a DEGRADED attachment returns to the state it left (R261). -/
def State.undegrade (s : State) (i p : Nat) (f : Att → Att) : State :=
  let s1 := s.modAtt i f
  match s1.att i with
  | none => s1
  | some a =>
    if a.state = .degraded ∧ a.causes = 0 then
      (s1.modAtt i (fun a => { a with state := a.resume })).queueAll (s1.sesRec 5 0 p)
    else s1

/-- A DECLARE was accepted from attachment `i` (R261): a DEGRADED one still returns to the state it left. -/
def State.declared (s : State) (i : Nat) : State :=
  s.modAtt i (fun a => if a.state = .keyed then { a with state := .declared } else a)

/-- A commit of the session landed (R261, R264): a DEGRADED primary still returns to the state it left. -/
def State.commitLanded (s : State) : State :=
  s.modSes (fun e => { e with landed := true, atts := e.atts.map (fun a =>
    if a.isPrimary ∧ (a.state = .keyed ∨ a.state = .declared) then { a with state := .streaming } else a) })

/-- Discard a port's packets that are received and not processed (R234). -/
def State.discardHeld (s : State) (p : Nat) : State :=
  s.modPort p (fun q => { q with held := [], procNext := q.rxNext })

/-- Close the assemblies that a port's fragments opened or joined and no processed fragment has reached, and return their
credit (R234; log entry 30). -/
def State.closeUnreached (s : State) (p : Nat) : State :=
  let gone := s.asms.filter (fun a => a.touched.contains p && !(a.frags.any (fun f => f.counted)))
  let s1 := { s with asms := s.asms.filter (fun a => !(gone.contains a)) }
  (gone.foldl (fun s a => if s.isFilling a.slot then s.grant a.slot a.ring 1 else s) s1).grantAll

/-- What R234 does to a port's packets: discard, close, and acknowledge without SACK ranges. -/
def State.portLost (s : State) (p : Nat) : State := ((s.discardHeld p).closeUnreached p).sendAck p

/-- The box of an attachment (R344). -/
def Att.box (a : Att) : Nat := if a.role = .standby then 2 else 1

/-- Discard the message in the OUT of an attachment's box (R342): box 1 for the primary, box 2 for the standby. -/
def State.discardBox (s : State) (a : Att) : State :=
  if ((s.boxes.getD a.box Box.reset).outMsg).isSome && a.keyed then s.clearOut a.box 4 else s

/-- TSF of a MAIL message: KIND 0 and the box (R344). -/
def messageTsf (b : Nat) : List Byte := leBytes 4 0 ++ leBytes 1 b

/-- A message that a reset left in the OUT of an attachment's box goes out once the attachment is KEYED (R342; DEDUCED, log entry
43). -/
def State.mailLeft (s : State) (i : Nat) (a : Att) : State :=
  match (s.boxes.getD a.box Box.reset).outMsg with
  | none => s
  | some m => s.sendAtt i .mail (messageTsf a.box) m

/-- The end of the session (R246): FILLING slots are released, the commit-id record and the queues go. -/
def State.endSession (s : State) : State :=
  let s1 := s.modSes (fun e => { e with active := false })
  let s2 := s1.releaseAllFilling
  (s2.modSes (fun e => { e with
    sid := 0, recent := (e.sid :: e.recent).take 16, landed := false, grants := [] })).modLyr
    (fun l => { l with ids := [] })

/-- Failover to the KEYED standby (R264, R265). -/
def State.failover (s : State) : State :=
  match s.standby with
  | none => s
  | some j =>
    let held := [0, 1, 2].any (fun n => s.slotCode n == 3 && (s.slot n).sid == s.ses.sid)
    let st : AttState := if s.ses.landed then .streaming else if held then .declared else .keyed
    let s1 := s.modAtt j (fun a => { a with role := .promoted, state := st })
    let s2 := s1.modSes (fun e => { e with failovers := satAdd 255 e.failovers 1, failAt := some s.clock })
    let s3 := s2.releaseAllFilling
    let shown := groupMask ((List.range 16).filter (fun g => (s3.lyr.groups.getD g none).isSome))
    let slots := s3.slotCode 0 + 4 * s3.slotCode 1 + 16 * s3.slotCode 2
    let port := ((s3.att j).map Att.port).getD 0
    (s3.queueOn j (.session 1 0 port (s3.newestId.getD 0) slots (b2n s3.newestId.isSome) shown
      ((s3.lyr.turn + 1) % 2 ^ 48))).raise 13

/-- Attachment `i` reaches CLOSED (R261, R264, R267): its CLOSE is sent, its unprocessed packets and records are discarded,
and then the failover, at which R234 applies to the former primary's ports (R272), or the end of the session that follows. -/
def State.closeAtt (s : State) (i : Nat) (r : CloseReason) (detail : Nat) : State :=
  match s.att i with
  | none => s
  | some a =>
    if a.state = .closed then s
    else
      let p := s.sendPort a
      let seq := ((s.port p).txNext + (s.port p).waiting.length) % 2 ^ 32
      let s1 := s.sendSeq i p .close (leBytes 1 r.code ++ leBytes 3 0 ++ leBytes 1 detail) []
      let s2 := s1.modSes (fun e => { e with
        closeInfo := (e.closeInfo.zipIdx).map (fun q => if a.ports.contains q.2 then (r.code, detail) else q.1) })
      let s3 := s2.modAtt i (fun a => { a with
        state := .closed, closing := some (p, seq), queue := [], silent := false, bond := false, retx := false })
      let fails := a.isPrimary && s3.standby.isSome
      let s4 := a.ports.foldl (fun s q =>
        (if fails then s.portLost q else (s.discardHeld q).closeUnreached q).fput (F.ING_STAT_BONDED q) false) s3
      let s5 := (s4.discardBox a).raise 13
      let s6 := if fails then s5.failover else s5
      if s6.ses.active && !(s6.ses.atts.any Att.isOpen) then s6.endSession else s6

/-- Close a standby and tell the primary (R261). -/
def State.closeStandby (s : State) (i : Nat) (r : CloseReason) : State :=
  let port := ((s.att i).map Att.port).getD 0
  let s1 := s.closeAtt i r 0
  match s1.primary with
  | none => s1
  | some j => s1.queueOn j (s1.sesRec 3 r.code port)

/-- Close every open attachment with one reason, the standby first so that no failover comes between. -/
def State.closeAll (s : State) (r : CloseReason) : State :=
  let s1 := match s.anyStandby with
    | some i => s.closeAtt i r 0
    | none => s
  forBelow s1.ses.atts.length (fun i s => s.closeAtt i r 0) s1

/-- When a CLOSE is acknowledged, or CLOSE_TO passes (R267): the sequence spaces of the attachment's ports restart, its keys
are erased, and the ports are free. -/
def State.finishClose (s : State) (i : Nat) : State :=
  match s.att i with
  | none => s
  | some a =>
    let s1 := a.ports.foldl (fun s p => s.modPort p (fun q => { q with
      rxNext := 0, procNext := 0, held := [], uncovered := 0, txNext := 0, unacked := [], waiting := [] })) s
    s1.modSes (fun e => { e with atts := e.atts.eraseIdx i })

/-- Discard the session's accepted pending commits with reason CLOSED (R261). -/
def State.discardPending (s : State) : State :=
  (s.lyr.commits.filter (fun c => c.accepted && s.live c.sid)).foldl (fun s c =>
    (s.dropCommit c).commitOutcome c c.groupList (.discarded 0x34)) s

/-- A CLOSE with reason NORMAL from a primary (R261, R262): FILLING slots are released, but not those of commits that are
completing, and the attachment drains (log entry 31). -/
def State.drain (s : State) (i : Nat) : State :=
  let s1 := [0, 1, 2].foldl (fun s n =>
    if s.lyr.commits.any (fun c => c.slot == some n && !c.accepted) then s else s.releaseFilling n) s
  s1.modAtt i (fun a => { a with state := .draining, silent := false, bond := false, retx := false })

/-- Processing of a server CLOSE on attachment `i` (R261). DESIGN CHOICE: a primary's CLOSE with TIMEOUT, and a CLOSE in HELLO or
AUTH, close at once with the same reason, and a second CLOSE in DRAINING does nothing beyond its DISCARD (log entry 31). -/
def State.closeProcess (s : State) (i : Nat) (reason : Nat) (discard : Bool) : State :=
  match s.att i with
  | none => s
  | some a =>
    let s1 := if discard && a.isOpen then s.discardPending else s
    let r : CloseReason := if reason = 1 then .handover else if reason = 2 then .timeout else .normal
    if a.state = .closed then s
    else if !a.keyedUp then s1.closeAtt i r 0
    else if a.role = .standby then s1.closeStandby i r
    else if a.state = .draining then s1
    else if r = .timeout then s1.closeAtt i r 0
    else if r = .handover ∧ s1.standby.isSome then s1.closeAtt i .handover 0
    else s1.drain i

/-- Whether a DRAINING attachment may close (R261): no commit of the session is pending or completing and none of its Fallow
jobs runs. -/
def State.drained (s : State) : Bool :=
  !(s.lyr.commits.any (fun c => c.sid == s.ses.sid)) &&
  !(s.lyr.jobs.any (fun j => !j.ended && s.lyr.commits.any (fun c => c.key == j.commit && c.sid == s.ses.sid)))

/-- SES_KILL (R261). -/
def sesKill (s : State) : State := s.closeAll .host

/-- A CLOSE packet that gives another reason: in its TSF, and in its seal, if it has one. -/
def Pkt.withReason (a : Att) (port : Nat) (r : CloseReason) (k : Pkt) : Pkt :=
  let h := { k.hdr with tsf := padTo 12 (leBytes 1 r.code) }
  if k.hdr.auth then sealPkt a port h k.payload else { k with hdr := h }

/-- The host's FAILOVER in the cycle of a failover that a keepalive expiry or a HANDOVER has brought (R272): there is the one
failover, and the former primary's CLOSE of this cycle gives HOST. -/
def State.hostFirst (s : State) : State :=
  forBelow s.ses.atts.length (fun i s =>
    match s.att i with
    | none => s
    | some a =>
      match a.closing with
      | none => s
      | some (p, seq) =>
        let r := (s.ses.closeInfo.getD p (0, 0)).1
        let late := (s.port p).unacked.any (fun u => u.pkt.hdr.seq == seq && u.firstAt != s.ageNs)
        if a.isPrimary && !late && (r == CloseReason.timeout.code || r == CloseReason.handover.code) then
          let is := fun (k : Pkt) => k.hdr.ty == PType.close.code && k.hdr.seq == seq
          let redo := fun (k : Pkt) => if is k then k.withReason a p .host else k
          (s.modPort p (fun q => { q with
            wire := (changeLast is redo q.wire).getD q.wire
            unacked := q.unacked.map (fun u => { u with pkt := redo u.pkt })
            waiting := q.waiting.map (fun w =>
              if w.ty == PType.close.code then { w with tsf := padTo 12 (leBytes 1 CloseReason.host.code) } else w) })).modSes
            (fun e => { e with closeInfo := (e.closeInfo.zipIdx).map (fun q =>
              if a.ports.contains q.2 then (CloseReason.host.code, 0) else q.1) })
        else s) s

/-- SES_FAILOVER (R264): without a KEYED standby there is no effect, but for the reason of a CLOSE of the same cycle (R272). -/
def sesFailover (s : State) : State :=
  match s.standby with
  | none => if s.ses.failAt = some s.clock then s.hostFirst else s
  | some _ =>
    match s.primary with
    | some i => s.closeAtt i .host 0
    | none => s.failover

/-- HANDSHAKE_TIMEOUT (R261): HS_TO has passed since the server HELLO. -/
def handshakeTimeout (p : Fin 2) (s : State) : State :=
  match s.attOf p with
  | none => s
  | some i =>
    match s.att i with
    | some a =>
      if a.state = .hello ∨ a.state = .auth then (s.fadd F.SES_ERR_CNT_HSTO 1).closeAtt i .timeout 0 else s
    | none => s

/-- PRIMARY_SILENCE (R261, R263): the primary has been silent for KA_MISS × KA_INT. In the cycle of a failover the silence is
the former primary's, and it has no further effect, nor has it in a cycle in which a packet of the primary counted (R272). -/
def primarySilence (s : State) : State :=
  match s.primary with
  | none => s
  | some i =>
    match s.att i with
    | some a =>
      if !a.keyedUp || a.state == .draining || s.ses.failAt == some s.clock || a.ports.any s.cyc.heard.contains then s
      else if s.standby.isSome then s.closeAtt i .timeout 0
      else if a.silent then s
      else s.degrade i a.port (fun a => { a with silent := true })
    | none => s

/-- STANDBY_SILENCE (R261): the standby has been silent for LOST_TO. -/
def standbySilence (s : State) : State :=
  match s.standby with
  | none => s
  | some i => s.closeStandby i .timeout

/-- DEGRADED_TIMEOUT (R261): SILENT or RETX has lasted LOST_TO. -/
def degradedTimeout (s : State) : State :=
  match s.primary with
  | none => s
  | some i =>
    match s.att i with
    | some a => if a.state = .degraded ∧ (a.silent ∨ a.retx) then s.closeAtt i .timeout 0 else s
    | none => s

/-- DRAIN_COMPLETE (R261). -/
def drainComplete (s : State) : State :=
  match s.attWhere (fun a => a.state == .draining) with
  | none => s
  | some i => if s.drained then s.closeAtt i .normal 0 else s

/-- CLOSE_TIMEOUT (R267): CLOSE_TO has passed since the device's CLOSE. -/
def closeTimeout (p : Fin 2) (s : State) : State :=
  match s.attOf p with
  | none => s
  | some i =>
    match s.att i with
    | some a => if a.closing.isSome then s.finishClose i else s
    | none => s

/-- DEVICE_REKEY (R257): the device's key has reached a limit. It moves to the next phase unless a packet of the phase before
is unacknowledged. -/
def deviceRekey (p : Fin 2) (s : State) : State :=
  match s.attOf p with
  | none => s
  | some i =>
    match s.att i with
    | some a =>
      let before := (a.tx.phase + 3) % 4
      let busy := 0 < a.tx.phase ∧ a.ports.any (fun q => (s.port q).unacked.any (fun u => u.pkt.hdr.auth && u.pkt.hdr.keyph == before))
      if a.keyed ∧ a.isOpen ∧ ¬ busy then
        s.modAtt i (fun a => { a with
          tx := { a.tx with phase := a.tx.phase + 1, sec := nextSec a.tx.sec, count := 0, since := none } })
      else s
    | none => s

/-- SERVER_KEY_EXPIRY (R257): a server packet came 60 s past REKEY_S, or beyond the packet limit, of its key. -/
def serverKeyExpiry (p : Fin 2) (s : State) : State :=
  match s.attOf p with
  | none => s
  | some i =>
    match s.att i with
    | some a => if a.keyed then s.closeAtt i .keylimit 0 else s
    | none => s

/-- SERVER_REKEY_DUE (R257): a server key has reached a limit; the device says so once for the key. -/
def serverRekeyDue (p : Fin 2) (s : State) : State :=
  match s.attOf p with
  | none => s
  | some i =>
    match s.att i with
    | some a =>
      if a.keyed ∧ a.isOpen ∧ ¬ a.rx.dueSent then
        (s.modAtt i (fun a => { a with rx := { a.rx with dueSent := true } })).queueAll (s.sesRec 6 0 p)
      else s
    | none => s

/-- SES_KILL. -/
def execSesKill (s : State) : Host.Outcome State Fault Refusal :=
  .next (s.onReg R.SES_CTL sesKill)
/-- SES_FAILOVER. -/
def execSesFailover (s : State) : Host.Outcome State Fault Refusal :=
  .next (s.onReg R.SES_CTL sesFailover)
/-- HANDSHAKE_TIMEOUT. -/
def execHandshakeTimeout (p : Fin 2) (s : State) : Host.Outcome State Fault Refusal := .next (handshakeTimeout p s)
/-- PRIMARY_SILENCE. -/
def execPrimarySilence (s : State) : Host.Outcome State Fault Refusal := .next (primarySilence s)
/-- STANDBY_SILENCE. -/
def execStandbySilence (s : State) : Host.Outcome State Fault Refusal := .next (standbySilence s)
/-- DEGRADED_TIMEOUT. -/
def execDegradedTimeout (s : State) : Host.Outcome State Fault Refusal := .next (degradedTimeout s)
/-- DRAIN_COMPLETE. -/
def execDrainComplete (s : State) : Host.Outcome State Fault Refusal := .next (drainComplete s)
/-- CLOSE_TIMEOUT. -/
def execCloseTimeout (p : Fin 2) (s : State) : Host.Outcome State Fault Refusal := .next (closeTimeout p s)
/-- DEVICE_REKEY. -/
def execDeviceRekey (p : Fin 2) (s : State) : Host.Outcome State Fault Refusal := .next (deviceRekey p s)
/-- SERVER_KEY_EXPIRY. -/
def execServerKeyExpiry (p : Fin 2) (s : State) : Host.Outcome State Fault Refusal := .next (serverKeyExpiry p s)
/-- SERVER_REKEY_DUE. -/
def execServerRekeyDue (p : Fin 2) (s : State) : Host.Outcome State Fault Refusal := .next (serverRekeyDue p s)

end Sys2Proof.Machine
end

