-- ==== Sys2Proof/Machine/Landing.lean ====
section
/-! DEFINITION. What a latch row decides of commits: landing, wait counts and abandonment (05_layers_commits_flips.md
R115, R116, R120, R121, R127), and the broadcast commits that are due (11_cascade.md R291, R293, R295). -/

namespace Sys2Proof.Machine

/-- Whether every group of a commit is ready; a commit of no group is ready once accepted (R112, R130). -/
def State.commitReady (s : State) (c : Commit) : Bool := c.accepted && c.groupList.all (fun g => s.groupReady c g)

/-- The commit that requested the mode change. -/
def State.modeCommitOf (s : State) : Option Commit :=
  s.lyr.modeCommit.bind (fun k => s.lyr.commits.find? (fun c => c.key == k))

/-- The groups of a commit that land at a latch row (R115); none of them where the commit does not land. -/
def State.landing (s : State) (c : Commit) : Option (List Nat) :=
  if !c.accepted || c.tset != s.activeSet then none
  else if s.lyr.modeCommit = some c.key ∨ c.groups.isEmpty then some c.groupList
  else
    let gs := c.groupList.filter (fun g => s.groupReady c g)
    if gs.isEmpty then none else some gs

/-- Whether a pending group that does not land adds 1 to its wait count: it waits only because its commit is incomplete or a
fence is not reached (R115). -/
def State.counts (s : State) (c : Commit) (g : Nat) : Bool :=
  (c.tset == s.activeSet || s.lyr.modeCommit == some c.key) &&
  (!c.accepted || (s.firstPending c g && s.jobsEnded c.key && !s.fencesReached c g))

/-- fence_timeout as LYR_FENCE_CFG holds it; 0 acts as 1. -/
def State.fenceLimit (s : State) : Nat := max 1 (s.fget F.LYR_FENCE_CFG_TIMEOUT)

/-- Abandon groups of a commit whose wait count ran out (R115, R116): the whole commit where it had not completed or asked
for the mode change. -/
def State.abandonGroups (s : State) (c : Commit) (gs : List Nat) : State :=
  if gs.isEmpty then s
  else if !c.accepted then s.abandonCommit c 0x30
  else if s.lyr.modeCommit = some c.key then s.abandonCommit c 0x31
  else (s.dropGroups c.key gs).commitOutcome c gs (.abandoned 0x31)

/-- A group's content is replaced whole (R96). -/
def State.landGroup (s : State) (c : Commit) (turn g : Nat) : State :=
  match c.slot with
  | none => s
  | some n =>
    let ls := s.contentOf n g
    let sh : Option GroupShow := if ls.isEmpty then none
      else some { slot := n, sid := c.sid, id := c.id, turn := turn, layers := ls }
    ((s.fset (F.LYR_GROUP_TURN_TURN g) turn).fset (F.LYR_GROUP_ID_ID g) c.id).modLyr (fun l => { l with
      groups := setNth l.groups g sh
      entries := l.entries.map (fun e =>
        if e.new.isSome ∧ e.newFor = c.key ∧ e.group = g then { e with cur := e.new, new := none } else e)
      jobs := l.jobs.filter (fun j => !(j.commit == c.key && j.members.any (fun m => m.group == g))) })

/-- On the head, a landing queues a copy of each mapped overlay of its content; a later one replaces it (R295). -/
def State.queueCopies (s : State) (c : Commit) (gs : List Nat) : State :=
  match c.slot with
  | none => s
  | some n =>
    if !s.isHead then s
    else ((gs.flatMap (s.contentOf n)).filter (fun l => l.overlay)).foldl (fun s l =>
      match s.bovlChan l.index with
      | none => s
      | some ch => s.modCas (fun k => { k with chans := modNth k.chans ch (fun b =>
          { b with queued := some { ovl := l.index, slot := n, w := l.place.w, h := l.place.h } }) })) s

/-- A commit lands for some groups, in the turn that the latch row opens (R113, R115). -/
def State.landCommit (s : State) (turn flip : Nat) (c : Commit) (gs : List Nat) : State :=
  let s1 := gs.foldl (fun s g => s.landGroup c turn g) s
  let s2 := s1.modLyr (fun l => { l with
    commits := (l.commits.map (fun d =>
      if d.key = c.key then { d with groups := d.groups.filter (fun g => !gs.contains g.1) } else d)).filter
      (fun d => d.key != c.key || !d.groups.isEmpty) })
  let s3 := s2.commitOutcome c gs (.landed turn flip)
  (if s3.live c.sid then s3.commitLanded else s3).queueCopies c gs

/-- Advance the wait counts of one commit's groups that count, given those groups. -/
def State.advanceWait (s : State) (key : Nat) (gs : List Nat) : State :=
  s.modLyr (fun l => { l with commits := l.commits.map (fun d =>
    if d.key = key then { d with groups := d.groups.map (fun g => if gs.contains g.1 then (g.1, g.2 + 1) else g) } else d) })

/-- Landing, wait counts and abandonment of all groups together, from the state before the latch row, for the turn that it
opens (R115, R119); whether any commit landed. Of the outcomes of one latch row, landings come first, in the order of the commits, and then
abandonments: the last of them is the most recent one of R113 (DESIGN CHOICE, log entry 27). -/
def State.landAll (s : State) (turn flip : Nat) : Bool × State :=
  let cs := s.lyr.commits
  let lands := cs.filterMap (fun c => (s.landing c).map (fun gs => (c, gs)))
  let waits := cs.map (fun c => (c, c.groupList.filter (fun g => s.counts c g)))
  let lim := s.fenceLimit
  let s1 := lands.foldl (fun s e => s.landCommit turn flip e.1 e.2) s
  let s2 := waits.foldl (fun s e => s.advanceWait e.1.key e.2) s1
  let s3 := waits.foldl (fun s e =>
    let late := (e.1.groups.filter (fun g => e.2.contains g.1 && decide (lim ≤ g.2 + 1))).map (fun g => g.1)
    s.abandonGroups e.1 late) s2
  (!lands.isEmpty, s3.modLyr (fun l => { l with waited := waits.flatMap (fun e => e.2.map (fun g => (e.1.key, g))) }))

/-- A field of a register's value. -/
def fieldOf (v : W32) (f : Fld) : Nat := bitsOf v.toNat f.hi f.lo

/-- The values of LYR_REPEAT_CFG and LYR_FENCE_CFG in force at a latch row are taken for it. -/
def State.latchLimits (s : State) : State :=
  s.modLyr (fun l => { l with
    repeatCfg := s.rget R.LYR_REPEAT_CFG
    fenceLim := s.fenceLimit })

/-- The fade factor of the repeat count, u1.18, by the repeat policy in force at the latch row that opened the turn (R121). -/
def State.fadeFactor (s : State) : Nat :=
  let cfg := s.lyr.repeatCfg
  let maxR := fieldOf cfg F.LYR_REPEAT_CFG_REPEAT_MAX
  let n := s.fget F.LYR_REPEAT_STAT_COUNT
  let f := max 1 (fieldOf cfg F.LYR_REPEAT_CFG_FADE_TURNS)
  if fieldOf cfg F.LYR_REPEAT_CFG_ACTION ≠ 0 ∧ maxR ≠ 0 ∧ maxR < n then
    if f ≤ n - maxR then 0 else (f - (n - maxR)) * 2 ^ 18 / f
  else 2 ^ 18

/-- The fade factor of the turn, decided from the repeat count (R121). -/
def State.setFade (s : State) : State :=
  let fq := s.fadeFactor
  ((s.fput F.LYR_REPEAT_STAT_FADING (decide (0 < fq) && decide (fq < 2 ^ 18))).fput F.LYR_REPEAT_STAT_BLACK
    (fq == 0)).modLyr (fun l => { l with fade := fq })

/-- The repeat count of R120. -/
def State.setRepeat (s : State) (landed : Bool) : State :=
  if landed then s.fset F.LYR_REPEAT_STAT_COUNT 0 else s.fadd F.LYR_REPEAT_STAT_COUNT 1

/-! The turn number and the broadcast commits that are due at the next latch row. -/

/-- Whether a turn number has come by the turn `next`, in serial order over 48 bits. -/
def due48 (target next : Nat) : Bool := decide ((next + 2 ^ 48 - target % 2 ^ 48) % 2 ^ 48 < 2 ^ 47)

/-- The parent's turn number now, from its last TURN cell and the length of its turns. -/
def State.parentTurn (s : State) (p : Parent) (units : Nat) : Nat :=
  let k := roundDiv ((s.time : Int) - (p.latch : Int)) ((max 1 units : Nat) : Int)
  (((p.turn : Int) + k) % ((2 ^ 48 : Nat) : Int)).toNat

/-- The number after this device's own turn; the head's first after a power-up is 0 (R122). -/
def State.ownNext (s : State) : Nat := if s.isHead && !s.lyr.opened then 0 else (s.lyr.turn + 1) % 2 ^ 48

/-- The number of the turn that the next latch row opens: on a follower that is LOCKED or in SLEW, the number that the
parent's latch opens at the same instant (R122, R287, R303). -/
def State.nextTurn (s : State) : Nat :=
  if s.isHead then s.ownNext
  else match s.cas.parent with
    | none => s.ownNext
    | some p => if s.casState = 3 ∨ s.casState = 5 then s.parentTurn p s.timing.turnUnits else s.ownNext

/-- The number of the turn that the new timing opens: the parent's, where the parent runs that timing already (R287, R293). -/
def State.nextTurnIn (s : State) (t : TSet) : Nat :=
  match s.cas.parent with
  | none => s.ownNext
  | some p =>
    if !s.isHead ∧ (s.casState = 3 ∨ s.casState = 5) ∧ p.tset = t.tset ∧ p.mphase = 0 then s.parentTurn p t.timing.turnUnits
    else s.ownNext

/-- Note the target of a broadcast commit that is applied. -/
def State.bcNote (s : State) (b : BCommit) : State := s.fset F.CAS_BC_STAT_LAST_TARGET (b.target % 65536)

/-- Take the held cells of a kind that `p` selects out of the queue. -/
def State.bcTake (s : State) (p : BCommit → Bool) : List BCommit × State :=
  (s.cas.bcHold.filter p, s.modCas (fun k => { k with bcHold := k.bcHold.filter (fun b => !p b) }))

/-- A FENCE cell is applied as an update under R114 (R292). -/
def State.bcFence (s : State) (b : BCommit) : State := (s.bcNote b).fenceApply b.arg b.value

/-- A MODE cell is applied: the change starts at the next latch row (R293). A follower takes the change from the cell. -/
def State.bcMode (s : State) (b : BCommit) : State :=
  let s1 := s.bcNote b
  if s1.isHead then
    if s1.lyr.mode = .waiting ∧ s1.lyr.modeTarget = b.arg then s1.modLyr (fun l => { l with modeGo := true }) else s1
  else if s1.modeBusy || b.arg == s1.activeSet || !s1.tsetValid b.arg then s1
  else (s1.beginMode b.arg none).modLyr (fun l => { l with modeGo := true })

/-- Whether a channel's inactive buffer has received rows of a copy in order from 0, each from its first pixel to the width of the first,
with nothing missed (R295; DEDUCED, log entry 40). -/
def Bcast.complete (b : Bcast) : Bool := b.whole && decide (0 < b.x) && b.x == b.width.getD b.x

/-- Whether the inactive buffer of channel `c` has received every row of its copy. The head sends the rows itself. A follower has them all
with the last of the channel's H rows; with fewer no cell tells it whether the copy ended there or an ancestor lost the rest, and
that is a free value (R295; DESIGN CHOICE, log entry 40). -/
def State.copyWhole (s : State) (c : Nat) : Bool × State :=
  let b := s.cas.chans.getD c Bcast.reset
  if !b.complete then (false, s)
  else if s.isHead || b.rows + 1 == s.fget (F.CAS_BOVL_CFG_H c) then (true, s)
  else
    let (v, s1) := s.fresh
    (v % 2 == 1, s1)

/-- A SWAP cell exchanges the channel's buffers, or counts STALE where rows are missing (R295). -/
def State.bcSwap (s : State) (b : BCommit) : State :=
  let (whole, s0) := s.copyWhole b.arg
  let s1 := s0.bcNote b
  let clear := fun (q : Bcast) => { q with rows := 0, x := 0, width := none, whole := false }
  if whole then
    s1.modCas (fun k => { k with chans := modNth k.chans b.arg (fun q =>
      { (clear q) with active := 1 - q.active, lastTurn := b.target }) })
  else
    (s1.fadd F.CAS_BC_STAT_STALE 1).modCas (fun k => { k with chans := modNth k.chans b.arg clear })

/-- Apply one broadcast commit. -/
def State.bcApply (s : State) (b : BCommit) : State :=
  if b.kind = 1 then s.bcFence b else if b.kind = 2 then s.bcMode b else if b.kind = 3 then s.bcSwap b else s

/-- Apply the held cells of a kind whose target is the turn `next`, or one before it (R291). -/
def State.bcDueAt (s : State) (kind next : Nat) : State :=
  let (bs, s1) := s.bcTake (fun b => b.kind == kind && due48 b.target next)
  bs.foldl (fun s b => s.bcApply b) s1

/-- Apply the held cells of a kind whose target the next latch row opens (R291). -/
def State.bcDue (s : State) (kind : Nat) : State := s.bcDueAt kind s.nextTurn

end Sys2Proof.Machine
end

