-- ==== Sys2Proof/Machine/Receive.lean ====
section
/-! DEFINITION. Packets arriving on an ingest port (09_ingest_link.md R219 to R241, R455; 10_scene_sessions.md R255 to R260,
R263, R267): the checks in order, what a server's ACK and NAK do, and the device's own acknowledgements. -/

namespace Sys2Proof.Machine

/-- What framing makes of the bytes of a packet (R219, R220). -/
inductive Framed where
  | badFrame
  | badCrc
  | ok (p : Pkt)
  deriving DecidableEq, Repr

/-- The header of a packet's first 32 bytes (R221). -/
def readHdr (b : List Byte) : Hdr :=
  let f := byteAt b 1
  { ty := byteAt b 0, auth := bitOf f 7, enc := bitOf f 6, retx := bitOf f 5, xd := bitOf f 4, keyph := f % 4,
    len := leAt b 2 2 % 2 ^ 13, seq := leAt b 4 4, xdep := leAt b 8 4, sid := leAt b 12 4, tsf := sliceB b 16 12,
    stamp := leAt b 28 4 }

/-- Framing and CRC: check 1 of R230. -/
def framePkt (b : List Byte) : Framed :=
  let h := readHdr b
  let n := 32 + h.len + (if h.auth then 16 else 0)
  if b.length < 36 ∨ b.length ≠ (n + 4 + 7) / 8 * 8 then .badFrame
  else if crc32c (b.take n) ≠ leAt b n 4 then .badCrc
  else .ok { hdr := h, payload := sliceB b 32 h.len, tag := if h.auth then sliceB b (32 + h.len) 16 else [] }

/-- Whether the reserved bits of a type's TSF are 0 and its fields are of a form that some processing takes (R221, R222; HELLO
R248, CONTROL R335). `t` holds bytes 16 to 27. -/
def tsfOk (ty : PType) (t : List Byte) (len : Nat) : Bool :=
  match ty with
  | .hello => decide (byteAt t 2 < 2) && zeroAt t 3 9
  | .control => decide (byteAt t 1 < 2) && zeroAt t 2 2 && zeroAt t 8 4
  | .cert => zeroAt t 2 2 && zeroAt t 8 4
  | .block => decide (byteAt t 0 < 4) && decide (leAt t 1 2 < 2 ^ 14) && decide (byteAt t 3 < 16) && zeroAt t 7 1 && zeroAt t 11 1
  | .overlay => decide (byteAt t 0 < 4) && decide (byteAt t 1 < 8) && decide (leAt t 2 2 < 4096) && decide (byteAt t 4 < 16) &&
      decide (byteAt t 5 < 4) && zeroAt t 6 6
  | .fence => zeroAt t 1 3 && zeroAt t 8 4
  | .mail => zeroAt t 5 3 && zeroAt t 10 2 &&
      (if byteAt t 0 = 0 then zeroAt t 1 3 && zeroAt t 8 2 else byteAt t 0 == 1 && len == 0)
  | .ack => zeroAt t 5 3
  | .nak => zeroAt t 5 7
  | .close => decide (byteAt t 1 < 2) && zeroAt t 2 2 && zeroAt t 5 7
  | .keyshare | .finish | .declare | .commit | .event | .credit | .keepalive => zeroAt t 0 12

/-- Check 4 of R230. `raw` holds the header's first four bytes as received. -/
def check4 (bonded : Bool) (raw : Nat) (h : Hdr) : Bool :=
  match ptypeOf h.ty with
  | none => false
  | some ty => !ty.deviceOnly && bitsOf raw 11 10 == 0 && bitsOf raw 31 29 == 0 && decide (h.len ≤ 4096) &&
      (!h.xd || bonded) && tsfOk ty h.tsf h.len

/-- Whether a header's type is unsequenced; an unlisted type takes a sequence number (R222). -/
def Hdr.unseq (h : Hdr) : Bool := ((ptypeOf h.ty).map PType.unseq).getD false

/-! Receiving into the window. -/

/-- Distance of a sequence number above NEXT, modulo 2^32. -/
def IngPort.above (q : IngPort) (seq : Nat) : Nat := (seq + 2 ^ 32 - q.rxNext % 2 ^ 32) % 2 ^ 32

/-- Whether `a` is at or after `b` in sequence order. -/
def atOrAfter (a b : Nat) : Bool := decide ((a + 2 ^ 32 - b % 2 ^ 32) % 2 ^ 32 < 2 ^ 31)

/-- Whether a sequence number is already received (R230). -/
def IngPort.already (q : IngPort) (seq : Nat) : Bool :=
  let d := (q.rxNext + 2 ^ 32 - seq % 2 ^ 32) % 2 ^ 32
  q.held.any (fun e => e.1 == seq) || (decide (1 ≤ d) && decide (d ≤ 2 ^ 31))

/-- Put a packet into the list of those held, in rising order from the next to process. -/
def insertHeld (base seq : Nat) (h : HeldPkt) : List (Nat × HeldPkt) → List (Nat × HeldPkt)
  | [] => [(seq, h)]
  | e :: es =>
    if (seq + 2 ^ 32 - base) % 2 ^ 32 < (e.1 + 2 ^ 32 - base) % 2 ^ 32 then (seq, h) :: e :: es
    else e :: insertHeld base seq h es

/-- Move NEXT past the packets received in a row. -/
def IngPort.nextUp (q : IngPort) : Nat → IngPort
  | 0 => q
  | n + 1 =>
    if q.held.any (fun e => e.1 == q.rxNext) then IngPort.nextUp { q with rxNext := (q.rxNext + 1) % 2 ^ 32 } n else q

/-- Pass over the refused packets that are next to process (R231). -/
def IngPort.skipRefused (q : IngPort) : Nat → IngPort
  | 0 => q
  | n + 1 =>
    match q.held with
    | [] => q
    | e :: es =>
      if e.1 = q.procNext ∧ e.2.refused then IngPort.skipRefused { q with held := es, procNext := (q.procNext + 1) % 2 ^ 32 } n
      else q

/-- Pages of the port buffer in use (R241). -/
def IngPort.pages (q : IngPort) : Nat :=
  (q.held.filter (fun e => !e.2.refused && ((ptypeOf e.2.pkt.hdr.ty).map PType.buffered).getD false)).length

/-- Offsets above NEXT of the packets held beyond a gap, rising. -/
def IngPort.beyond (q : IngPort) : List Nat := (q.held.map (fun e => q.above e.1)).filter (fun o => o < 4096)

/-- The gap directly below an offset: its first offset and its length. -/
def gapBelow (offs : List Nat) (o : Nat) : Nat × Nat :=
  let lo := ((offs.filter (fun x => x < o)).map (· + 1)).foldl max 0
  (lo, o - lo)

/-- Every gap below the packets held, as (first offset, length). -/
def gapsOf (offs : List Nat) : List (Nat × Nat) := (offs.map (gapBelow offs)).filter (fun g => 0 < g.2)

/-- Send a RESEND entry with reason GAP for a gap of port `p`. -/
def State.gapNak (s : State) (p : Nat) (g : Nat × Nat) : State :=
  s.sendNak p (((s.port p).rxNext + g.1) % 2 ^ 32) g.2 .resend ⟨0x01, 0⟩

/-- A packet counts as received (R230): it is held, NEXT moves, a gap below it draws a NAK entry, and the sixty-fourth packet
that no ACK covers draws an ACK (R237). -/
def State.takePkt (s : State) (p : Nat) (h : HeldPkt) : State :=
  let seq := h.pkt.hdr.seq
  let off := (s.port p).above seq
  let gap := gapBelow (s.port p).beyond off
  let s1 := s.modPort p (fun q =>
    let q1 := { q with held := insertHeld q.procNext seq h q.held, uncovered := q.uncovered + 1, echo := h.pkt.hdr.stamp }
    (q1.nextUp q1.held.length).skipRefused q1.held.length)
  let s2 := if h.pkt.hdr.retx then s1.fadd (F.ING_RETX_CNT_SERVER p) 1 else s1
  let s3 := if 0 < gap.2 then s2.sendNak p ((seq + 2 ^ 32 - gap.2) % 2 ^ 32) gap.2 .resend ⟨0x01, 0⟩ else s2
  if 64 ≤ (s3.port p).uncovered then s3.sendAck p else s3

/-- Refuse a packet on arrival: it counts as received and its refusal is reported (R230). -/
def State.takeRefused (s : State) (p : Nat) (pkt : Pkt) (n : Nak) : State :=
  (s.takePkt p ⟨pkt, true, none⟩).refusePkt ⟨p, pkt.hdr.seq⟩ n

/-! Tags and key phases (R255, R257, R258 step 5.1). -/

/-- Which of the receiver's keys a KEYPH names: the present phase, the next, or the one before. -/
inductive KeyUse where
  | current | next | previous
  deriving DecidableEq, Repr

/-- The key that a KEYPH names and its secret, where the receiver holds it or it is the next. -/
def KeyDir.find (k : KeyDir) (ph : Nat) : Option (KeyUse × List Byte) :=
  if ph = k.phase % 4 then some (.current, k.sec)
  else if ph = (k.phase + 1) % 4 then some (.next, nextSec k.sec)
  else match k.prev with
    | some o => if ph = (k.phase + 3) % 4 then some (.previous, o.sec) else none
    | none => none

/-- Open a packet under a secret: its plain payload where the tag verifies (R255). -/
def openPkt (sec : List Byte) (port : Nat) (pkt : Pkt) : Option (List Byte) :=
  let key := phaseKey sec
  let nonce := phaseNonce sec port pkt.hdr.seq
  if !pkt.hdr.auth then none
  else if pkt.hdr.enc then
    (Config.gcmOpen key nonce pkt.hdr.aad (pkt.payload ++ pkt.tag)).map (padTo pkt.payload.length)
  else (Config.gcmOpen key nonce (pkt.hdr.aad ++ pkt.payload) pkt.tag).map (fun _ => pkt.payload)

/-- The receiver's keys after a packet on `port` with sequence number `seq` was authenticated at time `now` (R257). -/
def KeyDir.used (k : KeyDir) (u : KeyUse) (port seq now : Nat) : KeyDir :=
  match u with
  | .current =>
    { k with
      count := k.count + 1
      since := some (k.since.getD now)
      prev := k.prev.map (fun o => { o with
        firsts := if o.firsts.any (fun f => f.1 == port) then o.firsts else o.firsts ++ [(port, seq)] }) }
  | .next =>
    { phase := k.phase + 1, sec := nextSec k.sec, prev := some ⟨k.sec, k.count, [(port, seq)]⟩, count := 1, since := some now,
      dueSent := false }
  | .previous => { k with prev := k.prev.map (fun o => { o with count := o.count + 1 }) }

/-- Packets authenticated so far under the key that `u` names. -/
def KeyDir.counted (k : KeyDir) : KeyUse → Nat
  | .current => k.count
  | .next => 0
  | .previous => (k.prev.map (fun o => o.count)).getD 0

/-- Whether one more packet under that key would pass the limit of R257. -/
def KeyDir.spent (k : KeyDir) (u : KeyUse) : Bool := decide (2 ^ 32 - 2 ^ 20 ≤ k.counted u)

/-- Erase the previous phase's key once every sequence number below the first of the new phase has been received (R257). -/
def State.dropOldKey (s : State) (i : Nat) : State :=
  s.modAtt i (fun a =>
    match a.rx.prev with
    | none => a
    | some o =>
      if a.ports.all (fun p => o.firsts.any (fun f => f.1 == p && atOrAfter (s.port p).rxNext f.2)) then
        { a with rx := { a.rx with prev := none } }
      else a)

/-- The code of an attachment's state in SES_ATT_STAT. -/
def AttState.code : AttState → Nat
  | .closed => 0
  | .hello => 1
  | .auth => 2
  | .keyed => 3
  | .declared => 4
  | .streaming => 5
  | .draining => 6
  | .degraded => 7

/-- The code of an attachment's role in SES_ATT_STAT. -/
def Role.code : Role → Nat
  | .none => 0
  | .primary => 1
  | .standby => 2
  | .promoted => 3

/-- Step 5.4: the refusal that a type draws in an attachment's state and role (R259). -/
def typeRefused (a : Att) (ty : PType) : Option Nak :=
  let state : Option Nak := some ⟨0x10, ty.code * 256 + a.state.code⟩
  let role : Option Nak := if a.role = .standby then some ⟨0x11, a.role.code⟩ else none
  match a.state with
  | .closed => if ty = .close then none else state
  | .hello => if ty = .cert ∨ ty = .keyshare ∨ ty = .close then none else state
  | .auth => if ty = .finish ∨ ty = .close then none else state
  | .draining => if ty = .block ∨ ty = .overlay ∨ ty = .fence ∨ ty = .control ∨ ty = .mail ∨ ty = .close then none else state
  | .keyed | .declared | .streaming | .degraded =>
    match ty with
    | .declare | .commit | .block | .overlay | .fence => role
    | .control | .mail | .close => none
    | _ => state

/-! What a server's ACK and NAK do (R235, R236, R239). -/

/-- Resend a packet (R238, R239); the sixteenth resending of one packet raises ING_RETX and is a cause of R263. -/
def State.resend (s : State) (p seq : Nat) : State :=
  match (s.port p).unacked.find? (fun u => u.pkt.hdr.seq == seq) with
  | none => s
  | some u =>
    let pkt := { u.pkt with hdr := { u.pkt.hdr with retx := true, stamp := s.stamp } }
    let s1 := (s.modPort p (fun q => { q with unacked := q.unacked.map (fun v =>
      if v.pkt.hdr.seq = seq then { v with tries := v.tries + 1 } else v) })).emit p pkt
    let s2 := s1.fadd (F.ING_RETX_CNT_DEVICE p) 1
    if u.tries + 1 = 16 then
      let s3 := s2.raise 8
      match s3.attOf p with
      | none => s3
      | some i =>
        if ((s3.att i).map Att.isPrimary).getD false then s3.degrade i p (fun a => { a with retx := true }) else s3
    else s2

/-- Clear the cause RETX when no packet resent 16 times is left unacknowledged (R263); port `p` brought the ACK. -/
def State.retxClear (s : State) (i p : Nat) : State :=
  match s.att i with
  | none => s
  | some a =>
    if a.retx ∧ ¬ a.ports.any (fun p => (s.port p).unacked.any (fun u => decide (16 ≤ u.tries))) then
      s.undegrade i p (fun a => { a with retx := false })
    else s

/-- Release what CUM and the SACK ranges cover, and finish a close whose CLOSE is covered (R235, R239, R267). -/
def State.ackRelease (s : State) (i p cum : Nat) (runs : List (Nat × Nat)) : State :=
  let covered := fun (seq : Nat) =>
    (seq != cum && atOrAfter cum seq) ||
    runs.any (fun r => decide ((seq + 2 ^ 32 - r.1 % 2 ^ 32) % 2 ^ 32 ≤ (r.2 + 2 ^ 32 - r.1 % 2 ^ 32) % 2 ^ 32))
  let hit := ((s.att i).bind (fun a => a.closing)).map (fun c => c.1 == p && covered c.2 &&
    (s.port p).unacked.any (fun u => u.pkt.hdr.seq == c.2))
  let s1 := s.modPort p (fun q => { q with unacked := q.unacked.filter (fun u => !covered u.pkt.hdr.seq) })
  if hit = some true then s1.finishClose i
  else (s1.retxClear i p).sendWaiting i p 256

/-- A server ACK (R235): it releases what it covers, and packets that a SACK range overtook are sent again (R238). DESIGN CHOICE:
of an NSACK above 32, or at odds with the payload length, the ranges taken are the fewer of NSACK and the payload's whole ranges
(log entry 23). -/
def State.ackArrive (s : State) (i p : Nat) (pkt : Pkt) : State :=
  let t := pkt.hdr.tsf
  let runs := (List.range (min (byteAt t 4) (pkt.payload.length / 8))).map (fun k =>
    (leAt pkt.payload (8 * k) 4, leAt pkt.payload (8 * k + 4) 4))
  let s1 := s.ackRelease i p (leAt t 0 4) runs
  let again := ((s1.port p).unacked.map (fun u => u.pkt.hdr.seq)).filter (fun q =>
    runs.any (fun r => q != r.1 && atOrAfter r.1 q))
  again.foldl (fun s q => s.resend p q) s1

/-- A server NAK (R236): its CUM releases, and the packets that its RESEND and WINDOW entries name are sent again. DESIGN CHOICE:
of an NENT of 0 or above 64, or at odds with the payload length, the entries taken are the fewer of NENT and the payload's whole
entries (log entry 23). -/
def State.nakArrive (s : State) (i p : Nat) (pkt : Pkt) : State :=
  let t := pkt.hdr.tsf
  let s1 := s.ackRelease i p (leAt t 0 4) []
  forBelow (min (byteAt t 4) (pkt.payload.length / 12)) (fun k s =>
    let o := 12 * k
    let kind := byteAt pkt.payload (o + 6)
    if kind = 1 ∨ kind = 3 then
      let named := ((s.port p).unacked.map (fun u => u.pkt.hdr.seq)).filter (fun q =>
        decide ((q + 2 ^ 32 - leAt pkt.payload o 4) % 2 ^ 32 < leAt pkt.payload (o + 4) 2))
      named.foldl (fun s q => s.resend p q) s
    else s) s1

/-- The cause SILENT clears on a packet that counts and came on port `p` (R261, R263), which is known of to the end of the cycle
(R272). -/
def State.heard (s : State) (i p : Nat) : State :=
  (s.undegrade i p (fun a => { a with silent := false })).modCyc (fun c => { c with heard := p :: c.heard })

/-! The checks of R230. -/

/-- An unsequenced packet on a port with an attachment (R455). -/
def State.receiveUnseq (s : State) (p i : Nat) (a : Att) (raw : Nat) (pkt : Pkt) : State :=
  let h := pkt.hdr
  if check4 (a.ports.length == 2) raw h && h.seq == 0 && !h.auth && !h.enc &&
      (h.sid == a.sid || (h.sid == 0 && a.state == .hello)) then
    let s1 := s.heard i p
    match ptypeOf h.ty with
    | some .ack => s1.ackArrive i p pkt
    | some .nak => s1.nakArrive i p pkt
    | _ => s1
  else s.fadd (F.ING_NAK_CNT_PKTFMT p) 1

/-- The primary that a bond join on port `p` names: KEYED on the other port alone, with no standby (R248, R253). -/
def State.bondable (s : State) (p : Nat) : Option Nat :=
  match s.primary with
  | none => none
  | some i =>
    if ((s.att i).map (fun a => a.keyedUp && a.ports == [1 - p])).getD false && s.anyStandby.isNone then some i else none

/-- The checks on a HELLO: R407, by which every HELLO outside RUN is refused with SESSION, and then those of R248 in order.
The refusal it draws, if any. -/
def State.helloCheck (s : State) (p : Nat) (raw : Nat) (pkt : Pkt) : Option Nak :=
  let h := pkt.hdr
  let t := h.tsf
  let role := byteAt t 1
  let formOk := decide (1 ≤ role) && decide (role ≤ 3) && decide (byteAt t 2 < 2) && zeroAt t 3 9 && !h.enc &&
    (if role = 3 then h.len == 0 && h.auth else h.len == 32 && !h.auth)
  let sidOk := s.ses.active && h.sid == s.ses.sid
  if s.pstate ≠ 0 then some ⟨0x05, 0⟩
  else if byteAt t 0 ≠ 1 then some ⟨0x13, 1⟩
  else if !formOk then some ⟨0x06, raw⟩
  else if !s.flag F.SES_CTL_OPEN then some ⟨0x05, 0⟩
  else if role = 1 then
    if h.sid ≠ 0 then some ⟨0x05, 0⟩ else if s.ses.active then some ⟨0x11, 0⟩ else none
  else if !sidOk then some ⟨0x05, 0⟩
  else if role = 2 then
    let bonded := ((s.primary.bind s.att).map (fun a => a.ports.length == 2)).getD false
    if s.anyStandby.isSome || bonded || !s.flag F.SES_CTL_STANDBY_EN then some ⟨0x11, 0⟩ else none
  else if (s.bondable p).isNone then some ⟨0x11, 0⟩
  else none

/-- Receive a HELLO of SEQ 0 on a port that is free: its sequence space begins at 0 whatever an earlier HELLO left (R260). -/
def State.takeHello (s : State) (p : Nat) (pkt : Pkt) (verified : Option Nat) : State :=
  (s.modPort p (fun q => { q with rxNext := 0, procNext := 0, held := [], uncovered := 0 })).takePkt p ⟨pkt, false, verified⟩

/-- A HELLO of SEQ 0 arrives on a port without an attachment. One that R253 covers is received only if its tag verifies under
the primary's keys and this port's nonce, and it then counts to their limit (R257). -/
def State.receiveHello (s : State) (p raw : Nat) (pkt : Pkt) : State :=
  if byteAt pkt.hdr.tsf 1 ≠ 3 ∨ (s.helloCheck p raw pkt).isSome then s.takeHello p pkt none
  else match s.primary with
    | none => s.takeHello p pkt none
    | some i =>
      match (s.att i).bind (fun a => (a.rx.find pkt.hdr.keyph).bind (fun k => (openPkt k.2 p pkt).map (fun _ => (k.1, a.rx.spent k.1)))) with
      | none => (s.sendNak p pkt.hdr.seq 1 .resend ⟨0x03, 0⟩).fadd (F.ING_NAK_CNT_AUTHTAG p) 1
      | some (u, spent) =>
        if spent then s.closeAtt i .keylimit 0
        else (s.modAtt i (fun a => { a with rx := a.rx.used u p pkt.hdr.seq s.ageNs })).takeHello p pkt (some 0)

/-- A sequenced packet on a port without an attachment, or with one that takes only CLOSE any more (R260, R267). -/
def State.receiveStray (s : State) (p : Nat) (helloOk : Bool) (raw : Nat) (pkt : Pkt) : State :=
  let h := pkt.hdr
  if !check4 false raw h then s.refusePkt ⟨p, h.seq⟩ ⟨0x06, raw⟩
  else if helloOk && h.ty == PType.hello.code && h.seq == 0 then
    if (s.port p).held.isEmpty then s.receiveHello p raw pkt else s
  else s.sendNak p h.seq 1 .window ⟨0x05, 0⟩

/-- Steps 5.2 to 5.4 of R258, and checks 6 and 7 of R230, on a packet that passed step 5.1. -/
def State.receiveOpened (s : State) (p i : Nat) (a : Att) (pkt : Pkt) : State :=
  let h := pkt.hdr
  let needEnc := a.keyed && a.enc && decide (0 < h.len)
  if h.sid ≠ a.sid then s.takeRefused p pkt ⟨0x05, a.sid⟩
  else
    let s1 := s.heard i p
    if h.auth ≠ a.keyed ∨ h.enc ≠ needEnc then s1.takeRefused p pkt ⟨0x12, 2 * b2n a.keyed + b2n needEnc⟩
    else match ptypeOf h.ty with
      | none => s1
      | some ty =>
        match typeRefused a ty with
        | some n => s1.takeRefused p pkt n
        | none =>
          if ty.buffered && decide (256 ≤ (s1.port p).pages) then
            (s1.sendNak p h.seq 1 .resend ⟨0x02, 0⟩).fadd (F.ING_NAK_CNT_NOBUF p) 1
          else if ty = .block then
            match s1.fragArrive p h.tsf pkt.payload with
            | (.inl n, s2) => s2.takeRefused p pkt n
            | (.inr v, s2) => s2.takePkt p ⟨pkt, false, some v⟩
          else s1.takePkt p ⟨pkt, false, none⟩

/-- A sequenced packet on a port with an attachment: checks 2 to 7. -/
def State.receiveSeq (s : State) (p i : Nat) (a : Att) (raw : Nat) (pkt : Pkt) : State :=
  let h := pkt.hdr
  if (s.port p).already h.seq then (s.fadd (F.ING_DROP_CNT_DUP p) 1).sendAck p
  else if 4096 ≤ (s.port p).above h.seq then
    (s.fadd (F.ING_DROP_CNT_WINDOW p) 1).sendNak p h.seq 1 .window ⟨0x04, (s.port p).rxNext⟩
  else if !check4 (a.ports.length == 2) raw h then s.takeRefused p pkt ⟨0x06, raw⟩
  else if a.keyed then
    match a.rx.find h.keyph with
    | none => (s.sendNak p h.seq 1 .resend ⟨0x03, 0⟩).fadd (F.ING_NAK_CNT_AUTHTAG p) 1
    | some (u, sec) =>
      match openPkt sec p pkt with
      | none => (s.sendNak p h.seq 1 .resend ⟨0x03, 0⟩).fadd (F.ING_NAK_CNT_AUTHTAG p) 1
      | some plain =>
        if a.rx.spent u then s.closeAtt i .keylimit 0
        else
          let s1 := s.modAtt i (fun a => { a with rx := a.rx.used u p h.seq s.ageNs })
          (s1.receiveOpened p i a { pkt with payload := plain }).dropOldKey i
  else s.receiveOpened p i a pkt

/-- PACKET_RECEIVE: the bytes framed as one packet on an UP port. -/
def packetReceive (p : Fin 2) (bytes : List Byte) (s : State) : State :=
  if !s.portUp p then s
  else match framePkt bytes with
    | .badFrame => s.fadd (F.ING_DROP_CNT_FRAME p) 1
    | .badCrc => s.fadd (F.ING_DROP_CNT_CRC p) 1
    | .ok pkt =>
      let raw := leAt bytes 0 4
      match s.attOf p with
      | none => if pkt.hdr.unseq then s else s.receiveStray p true raw pkt
      | some i =>
        match s.att i with
        | none => s
        | some a =>
          if pkt.hdr.unseq then s.receiveUnseq p i a raw pkt
          else if a.state = .closed ∧ pkt.hdr.ty ≠ PType.close.code then s.receiveStray p false raw pkt
          else s.receiveSeq p i a raw pkt

/-! The device's own packets. -/

/-- ACK_SEND (R237). -/
def ackSend (p : Fin 2) (s : State) : State :=
  if s.portUp p ∧ 0 < (s.port p).uncovered then s.sendAck p else s

/-- NAK_REPEAT (R237): the gaps that remain are named again. -/
def nakRepeat (p : Fin 2) (s : State) : State :=
  if s.portUp p then (gapsOf (s.port p).beyond).foldl (fun s g => s.gapNak p g) s else s

/-- DEVICE_RETRANSMIT (R239): RTO has passed without an acknowledgement of the packet. -/
def deviceRetransmit (p : Fin 2) (seq : W32) (s : State) : State :=
  if s.portUp p then s.resend p seq.toNat else s

/-- RETX_LIMIT (R239, R263): the sixteenth resending of a packet that has been resent 15 times. -/
def retxLimit (p : Fin 2) (seq : W32) (s : State) : State :=
  match (s.port p).unacked.find? (fun u => u.pkt.hdr.seq == seq.toNat) with
  | none => s
  | some u => if u.tries = 15 ∧ s.portUp p then s.resend p seq.toNat else s

/-- An entry of a CREDIT packet (R240). -/
def State.creditEntry (s : State) (g : Nat × Nat) : List Byte :=
  leBytes 4 (g.1 * 2 ^ 30 + g.2 * 2 ^ 16 + ((s.slot g.1).ring g.2).limit * 2 ^ 8)

/-- CREDIT_SEND (R240): up to 1,024 pending grants go to the primary on a port it holds. -/
def creditSend (p : Fin 2) (s : State) : State :=
  match s.primary with
  | none => s
  | some i =>
    let g := s.ses.grants.take 1024
    if ((s.att i).map (fun a => a.keyed && a.ports.contains p.val)).getD false ∧ g ≠ [] then
      (s.modSes (fun e => { e with grants := e.grants.drop 1024 })).sendSeq i p .credit (leBytes 2 g.length)
        (g.flatMap s.creditEntry)
    else s

/-- The 32 bytes of an EVENT record (R268). -/
def EvRec.encode : EvRec → List Byte
  | .commit o r slot gs id turn flip =>
    padTo 32 (leBytes 1 1 ++ leBytes 1 o ++ leBytes 1 r ++ leBytes 1 slot ++ leBytes 2 gs ++ leBytes 2 0 ++ leBytes 4 id ++
      leBytes 6 turn ++ leBytes 2 0 ++ leBytes 8 flip)
  | .session code cause port last slots idv shown turn =>
    padTo 32 (leBytes 1 2 ++ leBytes 1 code ++ leBytes 1 cause ++ leBytes 1 port ++ leBytes 4 last ++ leBytes 1 slots ++
      leBytes 1 idv ++ leBytes 2 shown ++ leBytes 6 turn)
  | .blockerr kind slot col ring tag turn =>
    padTo 32 (leBytes 1 3 ++ leBytes 1 kind ++ leBytes 1 slot ++ leBytes 1 col ++ leBytes 2 ring ++ leBytes 2 0 ++
      leBytes 4 tag ++ leBytes 6 turn)
  | .device src turn => padTo 32 (leBytes 1 4 ++ leBytes 2 src ++ leBytes 9 0 ++ leBytes 6 turn)

/-- EVENT_SEND (R269): up to 64 records, in queue order. -/
def eventSend (p : Fin 2) (s : State) : State :=
  match s.attOf p with
  | none => s
  | some i =>
    match s.att i with
    | none => s
    | some a =>
      let rs := a.queue.take 64
      if a.keyed ∧ a.isOpen ∧ rs ≠ [] then
        (s.modAtt i (fun a => { a with queue := a.queue.drop 64 })).sendSeq i p .event (leBytes 1 rs.length)
          (rs.flatMap EvRec.encode)
      else s

/-- KEEPALIVE_SEND (R263). -/
def keepaliveSend (p : Fin 2) (s : State) : State :=
  match (s.attOf p).bind s.att with
  | some a => if a.isOpen ∧ s.portUp p then s.sendUnseq p .keepalive [] [] else s
  | none => s

/-- PACKET_RECEIVE. -/
def execPacketReceive (p : Fin 2) (bytes : List Byte) (s : State) : Host.Outcome State Fault Refusal :=
  .next (packetReceive p bytes s)
/-- ACK_SEND. -/
def execAckSend (p : Fin 2) (s : State) : Host.Outcome State Fault Refusal := .next (ackSend p s)
/-- NAK_REPEAT. -/
def execNakRepeat (p : Fin 2) (s : State) : Host.Outcome State Fault Refusal := .next (nakRepeat p s)
/-- DEVICE_RETRANSMIT. -/
def execDeviceRetransmit (p : Fin 2) (seq : W32) (s : State) : Host.Outcome State Fault Refusal :=
  .next (deviceRetransmit p seq s)
/-- RETX_LIMIT. -/
def execRetxLimit (p : Fin 2) (seq : W32) (s : State) : Host.Outcome State Fault Refusal := .next (retxLimit p seq s)
/-- CREDIT_SEND. -/
def execCreditSend (p : Fin 2) (s : State) : Host.Outcome State Fault Refusal := .next (creditSend p s)
/-- EVENT_SEND. -/
def execEventSend (p : Fin 2) (s : State) : Host.Outcome State Fault Refusal := .next (eventSend p s)
/-- KEEPALIVE_SEND. -/
def execKeepaliveSend (p : Fin 2) (s : State) : Host.Outcome State Fault Refusal := .next (keepaliveSend p s)

end Sys2Proof.Machine
end

