-- ==== Sys2Proof/Machine/Process.lean ====
section
/-! DEFINITION. Processing the packets of a port in order (09_ingest_link.md R231, R233): the handshake (10_scene_sessions.md
R246 to R254), declarations, blocks, overlays, fences and commits, and CLOSE. -/

namespace Sys2Proof.Machine

/-- Whether a packet's dependency on the other port is satisfied (R233). -/
def State.xdepOk (s : State) (p : Nat) (h : Hdr) : Bool :=
  !h.xd || !s.portUp (1 - p) || atOrAfter (s.port (1 - p)).procNext h.xdep

/-- The packet of a port that is next to process, if it is of type `ty` and may be processed. -/
def State.headOf (s : State) (p : Nat) (ty : PType) : Option HeldPkt :=
  match (s.port p).held with
  | [] => none
  | e :: _ =>
    if e.1 = (s.port p).procNext ∧ e.2.pkt.hdr.ty = ty.code ∧ !e.2.refused ∧ s.xdepOk p e.2.pkt.hdr then some e.2 else none

/-- Take the packet next to process off the port, and pass over the refused ones behind it. -/
def State.passHead (s : State) (p : Nat) : State :=
  s.modPort p (fun q =>
    ({ q with held := q.held.tail, procNext := (q.procNext + 1) % 2 ^ 32 }).skipRefused q.held.length)

/-- Process the next packet of a port with `f`, given its attachment; a buffer page that was lost refuses the packet with
PKTFMT (R309). -/
def State.processWith (s : State) (p : Nat) (ty : PType) (page : EccResult) (f : Nat → Att → HeldPkt → State → State) : State :=
  match s.headOf p ty, s.attOf p with
  | some h, some i =>
    match s.att i with
    | none => s
    | some a =>
      let (lost, s1) := (s.passHead p).swardRead page
      if lost then s1.refusePkt ⟨p, h.pkt.hdr.seq⟩ ⟨0x06, leAt h.pkt.hdr.encode 0 4⟩ else f i a h s1
  | _, _ => s

/-! HELLO (R246 to R248, R253). -/

/-- CHIP_STEPPING: B0 with the grade of the fuses (R3). -/
def State.chipStepping (s : State) : Nat := 0x20 + 256 * b2n s.fuses.gradeX

/-- The session id after a free value: not 0, and none of those before it (R246). -/
def pickSid (recent : List Nat) (v : Nat) : Nat :=
  ((List.range 18).map (fun k => (v + k) % 2 ^ 32)).find? (fun n => n != 0 && !(recent.contains n)) |>.getD 1

/-- The device's certificate chain, leaf first (R384). -/
def State.deviceChain (s : State) : List (List Byte) :=
  unitCert s.fuses.gradeX :: [1, 2, 3].filterMap (fun i =>
    (s.img.bind (fun m => m.certs.find? (fun c => c.1 == 1 && c.2.1 == i))).map (fun c => c.2.2))

/-- The fragments of a chain: TSF and payload of each CERT (R249). -/
def certFrags (chain : List (List Byte)) : List (List Byte × List Byte) :=
  (chain.zipIdx).flatMap (fun (c, k) => (List.range (ceilDiv c.length 4096)).map (fun j =>
    (leBytes 1 k ++ leBytes 1 chain.length ++ leBytes 2 0 ++ leBytes 2 c.length ++ leBytes 2 (4096 * j) ++ leBytes 4 0,
     sliceB c (4096 * j) 4096)))

/-- The payload of the device's HELLO (R248). -/
def State.helloPayload (s : State) (nonceD : List Byte) : List Byte :=
  nonceD ++ leBytes 4 0x82007EF0 ++ leBytes 4 s.chipStepping ++
    leBytes 4 (if s.numbered then s.devNum else 0xFFFFFFFF) ++ leBytes 4 ((s.img.map (fun m => m.version)).getD 0)

/-- A new attachment of a port. -/
def Att.fresh (p sid : Nat) (role : Role) : Att :=
  { ports := [p], sid := sid, role := role, state := .hello, resume := .keyed, enc := false, nonceS := [], nonceD := [],
    priv := 0, items := [], certs := [], certBad := none, keyshare := none, ksSeq := 0, rx := ⟨0, [], none, 0, none, false⟩,
    tx := ⟨0, [], none, 0, none, false⟩, finS := [], peerId := 0, silent := false, bond := false, retx := false,
    keyed := false, closing := none, queue := [] }

/-- Open an attachment for an accepted HELLO: steps 1 and 2 of R247. -/
def State.openAtt (s : State) (p sid : Nat) (role : Role) (pkt : Pkt) : State :=
  let (v, s1) := s.fresh
  let nonceD := beBytes 32 v
  let enc := bitOf (byteAt pkt.hdr.tsf 2) 0 || s1.flag F.SES_CTL_REQ_ENC
  let tsf := leBytes 1 1 ++ leBytes 1 role.code ++ leBytes 1 (b2n enc) ++ leBytes 9 0
  let pay := s1.helloPayload nonceD
  let frags := certFrags s1.deviceChain
  let a : Att := { Att.fresh p sid role with
    enc := enc, nonceS := pkt.payload, nonceD := nonceD, priv := s1.free
    items := [(1, pkt.hdr.tsf ++ pkt.payload), (2, tsf ++ pay), (3, frags.flatMap (fun f => f.1 ++ f.2))] }
  let i := s1.ses.atts.length
  let s2 := { (s1.modSes (fun e => { e with atts := e.atts ++ [a] })) with free := s1.free + 1 }
  let s3 := s2.sendSeq i p .hello tsf pay
  frags.foldl (fun s f => s.sendSeq i p .cert f.1 f.2) s3

/-- Refuse a HELLO: REFUSE entry, and CLOSE with reason AUTH (R260, R261). -/
def State.refuseHello (s : State) (p seq : Nat) (n : Nak) : State :=
  let s1 := s.refusePkt ⟨p, seq⟩ n
  let i := s1.ses.atts.length
  (s1.modSes (fun e => { e with atts := e.atts ++ [Att.fresh p 0 .none] })).closeAtt i .auth n.reason

/-- Bond join of port `p` to attachment `i`, whose HELLO was verified on arrival (R253). -/
def State.bondJoin (s : State) (p i : Nat) : State :=
  match s.att i with
  | none => s
  | some a =>
    let s1 := s.modAtt i (fun a => { a with ports := [0, 1] })
    let s2 := (s1.fput (F.ING_STAT_BONDED 0) true).fput (F.ING_STAT_BONDED 1) true
    s2.sendSeq i p .hello (leBytes 1 1 ++ leBytes 1 3 ++ leBytes 1 (b2n a.enc) ++ leBytes 9 0) []

/-- HELLO processed on a port without an attachment. A bond HELLO that R253 did not cover when it came is refused with ROLE
(log entry 24). -/
def State.helloProcess (s : State) (p : Nat) (verified : Bool) (pkt : Pkt) : State :=
  let h := pkt.hdr
  match s.helloCheck p (leAt h.encode 0 4) pkt with
  | some n =>
    let s1 := s.refuseHello p h.seq n
    if n.reason = 0x05 ∧ s.pstate = 1 then s1.pwrWake .hello F.PWR_WAKE_CFG_HELLO else s1
  | none =>
    if byteAt h.tsf 1 = 1 then
      let (v, s1) := s.fresh
      let sid := pickSid s1.ses.recent v
      (s1.modSes (fun e => { e with active := true, sid := sid, landed := false, grants := [] })).openAtt p sid .primary pkt
    else if byteAt h.tsf 1 = 2 then s.openAtt p s.ses.sid .standby pkt
    else match s.bondable p with
      | some i => if verified then s.bondJoin p i else s.refuseHello p h.seq ⟨0x11, 0⟩
      | none => s

/-- HELLO. -/
def hello (p : Fin 2) (page : EccResult) (s : State) : State :=
  match s.headOf p .hello, s.attOf p with
  | some h, none =>
    let (lost, s1) := (s.passHead p).swardRead page
    if lost then s1.refuseHello p h.pkt.hdr.seq ⟨0x06, leAt h.pkt.hdr.encode 0 4⟩ else s1.helloProcess p h.joined.isSome h.pkt
  | _, _ => s

/-! Certificates and key shares (R249 to R254). -/

/-- The transcript up to item `n`. -/
def Att.transcript (a : Att) (n : Nat) : List Byte :=
  ((List.range 9).filter (fun k => k ≤ n)).flatMap (fun k => ((a.items.find? (fun e => e.1 == k)).map (·.2)).getD [])

/-- A transcript item. -/
def Att.item (a : Att) (k : Nat) : List Byte := ((a.items.find? (fun e => e.1 == k)).map (·.2)).getD []

/-- The bytes of certificate `k` of the server's chain, where every fragment of it has come. -/
def Att.certBytes (a : Att) (k : Nat) : Option (List Byte) :=
  match a.certs.find? (fun c => c.index == k) with
  | none => none
  | some c =>
    let parts := (List.range (ceilDiv c.clen 4096)).map (fun j => a.certs.find? (fun d => d.index == k && d.offset == 4096 * j))
    if parts.all Option.isSome then some (parts.flatMap (fun d => (d.map (fun d => d.bytes)).getD [])) else none

/-- The server's chain, once complete. -/
def Att.chain (a : Att) : Option (List (List Byte)) :=
  match a.certs.head? with
  | none => none
  | some c =>
    let cs := (List.range c.count).map a.certBytes
    if cs.all Option.isSome then some (cs.filterMap id) else none

/-- Item 4: the server's CERT fragments in order of INDEX and OFFSET. -/
def Att.certItem (a : Att) : List Byte :=
  (List.range 4).flatMap (fun k => (List.range 2).flatMap (fun j =>
    match a.certs.find? (fun d => d.index == k && d.offset == 4096 * j) with
    | none => []
    | some c => leBytes 1 c.index ++ leBytes 1 c.count ++ leBytes 2 0 ++ leBytes 2 c.clen ++ leBytes 2 c.offset ++
        leBytes 4 0 ++ c.bytes))

/-- Whether the POLICY record permits a server's leaf key (cause 6 of R250; R372). -/
def State.keyPermitted (s : State) (leaf : List Byte) : Bool :=
  match s.img with
  | none => true
  | some m =>
    let n := byteAt m.policy 68
    n == 0 || (List.range (min n 16)).any (fun k => sliceB m.policy (72 + 48 * k) 48 == sha384Bytes (Config.leafKey leaf))

/-- The image's server trust anchors (CERTS records of KIND 2). -/
def State.anchors (s : State) : List (Nat × List Byte) :=
  ((s.img.map (fun m => m.certs)).getD []).filterMap (fun c => if c.1 = 2 then some (c.2.1, c.2.2) else none)

/-- The index of the first certificate of a chain that `ok` refuses. -/
def firstRefused (ok : List Byte → Bool) (chain : List (List Byte)) : Option Nat :=
  findBelow chain.length (fun k => !(ok (chain.getD k [])))

/-- Whether a certificate is a server trust anchor of the image, or verifies under one (cause 3 of R250). -/
def State.anchored (s : State) (c : List Byte) : Bool := s.anchors.any (fun a => a.2 == c || Config.certSignedBy c a.2)

/-- The checks of R250 on a complete chain, in the order of their causes and of the certificates: (cause, index), cause 0
where all hold. `bad` is the index of a fragment that disagreed. -/
def State.chainCheck (s : State) (bad : Option Nat) (chain : List (List Byte)) : Nat × Nat :=
  let links := (chain.zip (chain.drop 1)).zipIdx
  let fails : List (Nat × Option Nat) :=
    [(1, bad), (1, firstRefused Config.certParses chain),
     (2, (links.find? (fun l => !(Config.certSignedBy l.1.1 l.1.2))).map (·.2)),
     (3, if s.anchored (chain.getLastD []) then none else some (chain.length - 1)),
     (4, firstRefused Config.certKeyP384 chain),
     (5, if Config.certSigns (chain.headD []) then (firstRefused Config.certIsCa (chain.drop 1)).map (· + 1) else some 0),
     (6, if s.keyPermitted (chain.headD []) then none else some 0)]
  ((fails.filterMap (fun f => f.2.map (fun k => (f.1, k)))).head?).getD (0, 0)

/-- A handshake failure: it is counted, the packet concerned is refused, and the attachment closes with reason AUTH. -/
def State.handshakeFail (s : State) (i : Nat) (o : Origin) (f : Fld) (n : Nak) : State :=
  ((s.fadd f 1).refusePkt o n).closeAtt i .auth n.reason

/-- Step 4 of R247: the device's KEYSHARE and FINISH, and the keys (R251, R252, R254). -/
def State.step4 (s : State) (i p : Nat) (a : Att) (peer : List Byte) : State :=
  let pub := padTo 97 (Config.ecPublic a.priv)
  let h2 := sha384Bytes (a.transcript 4 ++ a.item 5 ++ (padTo 12 [] ++ pub).take 97)
  let sig := padTo 96 (Config.ecdsaSign s.fuses.unitKey (ascii "CHN8200 sign d" ++ h2) s.free)
  let pay6 := pub ++ sig
  let prk := hmacSha384 (a.nonceS ++ a.nonceD) (Config.ecShared a.priv peer)
  let a1 := { a with items := a.items ++ [(6, leBytes 12 0 ++ pay6)] }
  let finD := hkdfExpand prk (ascii "CHN8200 fin d" ++ h2) 48
  let finS := hkdfExpand prk (ascii "CHN8200 fin s" ++ h2) 48
  let pay7 := hmacSha384 finD (sha384Bytes (a1.transcript 6))
  let a2 := { a1 with items := a1.items ++ [(7, leBytes 12 0 ++ pay7)] }
  let a3 := { a2 with
    state := .auth
    priv := 0
    finS := hmacSha384 finS (sha384Bytes (a2.transcript 7))
    rx := { a2.rx with sec := hkdfExpand prk (ascii "CHN8200 s2d" ++ h2) 48 }
    tx := { a2.tx with sec := hkdfExpand prk (ascii "CHN8200 d2s" ++ h2) 48 } }
  let s1 := { (s.modAtt i (fun _ => a3)) with free := s.free + 1 }
  (s1.sendSeq i p .keyshare [] pay6).sendSeq i p .finish [] pay7

/-- Step 3 of R247 once complete: the chain and the signature are verified. `last` is the packet that completed it. -/
def State.step3 (s : State) (i p : Nat) (last : Origin) : State :=
  match s.att i with
  | none => s
  | some a =>
    match a.chain, a.keyshare with
    | some chain, some ks =>
      let bad := s.chainCheck a.certBad chain
      if bad.1 ≠ 0 then s.handshakeFail i last F.SES_ERR_CNT_CERTFAIL ⟨0x14, bad.2 * 256 + bad.1⟩
      else
        let a1 := { a with items := (a.items ++ [(4, a.certItem), (5, leBytes 12 0 ++ ks)]) }
        let h1 := sha384Bytes (a1.transcript 4 ++ (a1.item 5).take 97)
        let leaf := Config.leafKey (chain.headD [])
        if Config.ecdsaVerify leaf (ascii "CHN8200 sign s" ++ h1) (ks.drop 97) then
          s.step4 i p { a1 with peerId := beNat ((sha384Bytes leaf).take 4) } (ks.take 97)
        else s.handshakeFail i ⟨p, a.ksSeq⟩ F.SES_ERR_CNT_KEYFAIL ⟨0x15, 2⟩
    | _, _ => s

/-- Whether a fragment has the form of R249. -/
def CertFrag.fits (f : CertFrag) : Bool :=
  decide (1 ≤ f.count) && decide (f.count ≤ 4) && decide (f.index < f.count) && decide (1 ≤ f.clen) && decide (f.clen ≤ 8192) &&
    f.offset % 4096 == 0 && decide (f.offset < f.clen) && f.bytes.length == min 4096 (f.clen - f.offset)

/-- A CERT fragment, which only the HELLO state takes (R249, R261). One that does not fit, or that disagrees with COUNT or CLEN
of an earlier one, is a failure of cause 1 that step 3 finds when it is complete (R250; log entry 24). -/
def State.certProcess (s : State) (i : Nat) (a : Att) (o : Origin) (pkt : Pkt) : State :=
  let t := pkt.hdr.tsf
  let f : CertFrag := { index := byteAt t 0, count := byteAt t 1, clen := leAt t 4 2, offset := leAt t 6 2, bytes := pkt.payload }
  let agrees := a.certs.all (fun c => c.count == f.count && (c.index != f.index || c.clen == f.clen))
  if a.state ≠ .hello then s
  else
    let rest := a.certs.filter (fun c => !(c.index == f.index && c.offset == f.offset))
    (s.modAtt i (fun a => { a with
      certs := rest ++ [f]
      certBad := if f.fits && agrees then a.certBad else some (a.certBad.getD f.index) })).step3 i o.port o

/-- The server's KEYSHARE, which only the HELLO state takes (R251, R261). DESIGN CHOICE: its point is judged as it is processed,
KEYFAIL of cause 1, so before the checks of the chain (log entry 24). -/
def State.keyshareProcess (s : State) (i : Nat) (a : Att) (o : Origin) (pkt : Pkt) : State :=
  if a.state ≠ .hello then s
  else if pkt.payload.length ≠ 193 ∨ !Config.ecPointValid (pkt.payload.take 97) then
    s.handshakeFail i o F.SES_ERR_CNT_KEYFAIL ⟨0x15, 1⟩
  else (s.modAtt i (fun a => { a with keyshare := some pkt.payload, ksSeq := o.seq })).step3 i o.port o

/-- The server's FINISH, which only the AUTH state takes (R252, R261, R264). -/
def State.finishProcess (s : State) (i : Nat) (a : Att) (o : Origin) (pkt : Pkt) : State :=
  if a.state ≠ .auth then s
  else if pkt.payload ≠ a.finS then s.handshakeFail i o F.SES_ERR_CNT_FINFAIL ⟨0x16, 0⟩
  else
    let s1 := (s.modAtt i (fun a => { a with state := .keyed, keyed := true })).mailLeft i a
    if a.role = .standby then
      match s1.primary with
      | none => s1
      | some j =>
        let s2 := s1.queueOn j (s1.sesRec 2 0 a.port)
        if ((s2.att j).map (fun b => b.state == .degraded && b.silent)).getD false then s2.closeAtt j .timeout 0 else s2
    else s1

/-- CERT. -/
def cert (p : Fin 2) (page : EccResult) (s : State) : State :=
  s.processWith p .cert page (fun i a h s => s.certProcess i a ⟨p, h.pkt.hdr.seq⟩ h.pkt)

/-- KEYSHARE. -/
def keyshare (p : Fin 2) (page : EccResult) (s : State) : State :=
  s.processWith p .keyshare page (fun i a h s => s.keyshareProcess i a ⟨p, h.pkt.hdr.seq⟩ h.pkt)

/-- FINISH. -/
def finish (p : Fin 2) (page : EccResult) (s : State) : State :=
  s.processWith p .finish page (fun i a h s => s.finishProcess i a ⟨p, h.pkt.hdr.seq⟩ h.pkt)

/-! The picture (R105, R225, R228, R229, R108, R110). -/

/-- The refusal that processing drew, if any, reported. -/
def State.answer (o : Origin) (r : Option Nak × State) : State :=
  match r with
  | (some n, s) => s.refusePkt o n
  | (none, s) => s

/-- DECLARE. -/
def declare (p : Fin 2) (page : EccResult) (s : State) : State :=
  s.processWith p .declare page (fun i _ h s =>
    match s.declProcess h.pkt.payload with
    | (some n, s1) => s1.refusePkt ⟨p, h.pkt.hdr.seq⟩ n
    | (none, s1) => s1.declared i)

/-- BLOCK: a fragment counts towards its assembly; its bytes went to the slot and not to a page. -/
def block (p : Fin 2) (head ring : EccResult) (s : State) : State :=
  s.processWith p .block .clean (fun _ _ h s =>
    State.answer ⟨p, h.pkt.hdr.seq⟩ (s.fragProcess h.pkt.hdr.tsf p h.joined head ring))

/-- OVERLAY. -/
def overlay (p : Fin 2) (page : EccResult) (s : State) : State :=
  s.processWith p .overlay page (fun _ _ h s =>
    State.answer ⟨p, h.pkt.hdr.seq⟩ (s.overlayProcess h.pkt.hdr.tsf h.pkt.payload))

/-- FENCE (R229). -/
def fence (p : Fin 2) (page : EccResult) (s : State) : State :=
  s.processWith p .fence page (fun _ _ h s =>
    let id := byteAt h.pkt.hdr.tsf 0
    if 63 < id ∨ h.pkt.hdr.len ≠ 0 then s.refusePkt ⟨p, h.pkt.hdr.seq⟩ ⟨0x0A, id⟩
    else s.fenceUpdate id (leAt h.pkt.hdr.tsf 4 4))

/-- COMMIT; a newly promoted primary's is refused until the first latch (R264). -/
def commit (p : Fin 2) (page : EccResult) (s : State) : State :=
  s.processWith p .commit page (fun _ a h s =>
    if a.role = .promoted then s.refusePkt ⟨p, h.pkt.hdr.seq⟩ ⟨0x11, a.role.code⟩
    else s.commitProcess ⟨p, h.pkt.hdr.seq⟩ h.pkt.payload)

/-- COMMIT_COMPLETION. -/
def commitCompletion (s : State) : State :=
  match s.completing with
  | none => s
  | some c => s.completeCommit c

/-- CLOSE of a server; it may send REASON 0, 1 or 2 only (R266). -/
def close (p : Fin 2) (page : EccResult) (s : State) : State :=
  s.processWith p .close page (fun i _ h s =>
    let t := h.pkt.hdr.tsf
    if 2 < byteAt t 0 then s.refusePkt ⟨p, h.pkt.hdr.seq⟩ ⟨0x06, leAt h.pkt.hdr.encode 0 4⟩
    else s.closeProcess i (byteAt t 0) (bitOf (byteAt t 1) 0))

/-! Ports (R218, R234). -/

/-- The cause BOND of port `p`, while a port of a bonded attachment is not UP (R263). -/
def State.bondCause (s : State) (p : Nat) (down : Bool) : State :=
  match s.attOf p with
  | none => s
  | some i =>
    if ((s.att i).map (fun a => a.ports.length == 2)).getD false then
      if down then s.degrade i p (fun a => { a with bond := true })
      else if s.portUp 0 ∧ s.portUp 1 then s.undegrade i p (fun a => { a with bond := false })
      else s
    else s

/-- An UP port goes DOWN (R218, R234). -/
def State.portDown (s : State) (p : Nat) : State :=
  if s.portUp p then
    let s1 := (((s.fset (F.ING_STAT_STATE p) 3).fset (F.ING_STAT_LOCKED p) 0).fset (F.ING_STAT_SKEW p) 0).fadd
      (F.ING_STAT_DOWNS p) 1
    let s2 := forBelow 8 (fun n s => s.fput (F.ING_LANE_STAT_LOCKED p n) false) s1
    ((s2.portLost p).raise 7).bondCause p true
  else s

/-- A write of ING_CTL.EN (R218): a port that is enabled starts from CDR lock; one that is not is OFF. In HALTED and RECOVERY the ports
stay disabled (R377). -/
def ingEnable (p : Fin 2) (en : Bool) (s : State) : State :=
  let s1 := s.fput (F.ING_CTL_EN p) en
  if en && (s.boot.state == 7 || s.boot.state == 8) then s
  else if en then
    if s1.fget (F.ING_STAT_STATE p) = 0 then s1.fset (F.ING_STAT_STATE p) 1 else s1
  else (s1.portDown p).fset (F.ING_STAT_STATE p) 0

/-- ING_RETRAIN (R218). -/
def ingRetrain (p : Fin 2) (s : State) : State := if s.flag (F.ING_CTL_EN p) then s.portDown p else s

/-- Whether the ALIGN blocks of a port's lanes are consistent (R217): eight of them, each lane named once, all naming this port
and one count, no further apart than R214 allows. -/
def lanesConsistent (p : Nat) (lanes : List LaneAlign) : Bool :=
  lanes.length == 8 && (lanes.map (fun l => l.logical)).eraseDups.length == 8 && lanes.all (fun l => l.port.val == p) &&
    lanes.all (fun l => some l.count == (lanes.head?).map (fun h => h.count)) && lanes.all (fun l => decide (l.skew.toNat ≤ 64))

/-- ING_PORT_UP: the lanes have locked, each with its polarity and what its ALIGN block says; lanes that are not consistent
leave the port as it was (R217, R218). DESIGN CHOICE: the change from TRAINING to UP raises ING_PORT too, with no DOWN before it
(log entry 23). -/
def ingPortUp (p : Fin 2) (lanes : List LaneAlign) (s : State) : State :=
  let st := s.fget (F.ING_STAT_STATE p)
  let skew := (lanes.map (fun l => l.skew.toNat)).foldl max 0
  if s.flag (F.ING_CTL_EN p) ∧ (st = 1 ∨ st = 3) ∧ lanesConsistent p lanes then
    let s1 := ((s.fset (F.ING_STAT_STATE p) 2).fset (F.ING_STAT_LOCKED p) 0xFF).fset (F.ING_STAT_SKEW p) skew
    let s2 := (lanes.zipIdx).foldl (fun s l =>
      (((s.fput (F.ING_LANE_STAT_LOCKED p l.2) true).fput (F.ING_LANE_STAT_INVERTED p l.2) l.1.inverted).fset
        (F.ING_LANE_STAT_LOGICAL p l.2) l.1.logical.val).fset (F.ING_LANE_STAT_SKEW p l.2) l.1.skew.toNat) s1
    (s2.raise 7).bondCause p false
  else s

/-- ING_PORT_DOWN: invalid sync headers, counted on each lane, or missing alignment (R218, R234). -/
def ingPortDown (p : Fin 2) (bad : List Nat) (s : State) : State :=
  if s.portUp p then
    (((bad.take 8).zipIdx).foldl (fun s b => s.fadd (F.ING_LANE_STAT_BADSYNC p b.2) b.1) s).portDown p
  else s

/-- FENCE_VALUE_WRITE (R114). -/
def fenceValueWrite (n : Fin 64) (v : W32) (s : State) : State := s.fenceUpdate n v.toNat

/-- HELLO. -/
def execHello (p : Fin 2) (page : EccResult) (s : State) : Host.Outcome State Fault Refusal := .next (hello p page s)
/-- CERT. -/
def execCert (p : Fin 2) (page : EccResult) (s : State) : Host.Outcome State Fault Refusal := .next (cert p page s)
/-- KEYSHARE. -/
def execKeyshare (p : Fin 2) (page : EccResult) (s : State) : Host.Outcome State Fault Refusal := .next (keyshare p page s)
/-- FINISH. -/
def execFinish (p : Fin 2) (page : EccResult) (s : State) : Host.Outcome State Fault Refusal := .next (finish p page s)
/-- DECLARE. -/
def execDeclare (p : Fin 2) (page : EccResult) (s : State) : Host.Outcome State Fault Refusal := .next (declare p page s)
/-- BLOCK. -/
def execBlock (p : Fin 2) (head ring : EccResult) (s : State) : Host.Outcome State Fault Refusal :=
  .next (block p head ring s)
/-- OVERLAY. -/
def execOverlay (p : Fin 2) (page : EccResult) (s : State) : Host.Outcome State Fault Refusal := .next (overlay p page s)
/-- FENCE. -/
def execFence (p : Fin 2) (page : EccResult) (s : State) : Host.Outcome State Fault Refusal := .next (fence p page s)
/-- COMMIT. -/
def execCommit (p : Fin 2) (page : EccResult) (s : State) : Host.Outcome State Fault Refusal := .next (commit p page s)
/-- COMMIT_COMPLETION. -/
def execCommitCompletion (s : State) : Host.Outcome State Fault Refusal := .next (commitCompletion s)
/-- CLOSE. -/
def execClose (p : Fin 2) (page : EccResult) (s : State) : Host.Outcome State Fault Refusal := .next (close p page s)
/-- ING_ENABLE. -/
def execIngEnable (p : Fin 2) (en : Bool) (s : State) : Host.Outcome State Fault Refusal :=
  .next (s.onReg (R.ING_CTL p) (ingEnable p en))
/-- ING_RETRAIN. -/
def execIngRetrain (p : Fin 2) (s : State) : Host.Outcome State Fault Refusal :=
  .next (s.onReg (R.ING_CTL p) (ingRetrain p))
/-- ING_PORT_UP. -/
def execIngPortUp (p : Fin 2) (lanes : List LaneAlign) (s : State) : Host.Outcome State Fault Refusal :=
  .next (ingPortUp p lanes s)
/-- ING_PORT_DOWN. -/
def execIngPortDown (p : Fin 2) (bad : List Nat) (s : State) : Host.Outcome State Fault Refusal := .next (ingPortDown p bad s)
/-- FENCE_VALUE_WRITE. -/
def execFenceValueWrite (n : Fin 64) (v : W32) (s : State) : Host.Outcome State Fault Refusal :=
  .next (s.onReg (R.LYR_FENCE_VAL n) (fenceValueWrite n v))

end Sys2Proof.Machine
end

