-- ==== Sys2Proof/Machine/Latch.lean ====
section
/-! DEFINITION. The latch row (05_layers_commits_flips.md R117 to R133; 01_architecture.md R15): closing a turn, opening the
next, the per-turn tables, the mode change, and the requests that wait for a latch row. -/

namespace Sys2Proof.Machine

/-! Closing a turn. -/

/-- Statistics at the end of the last active row of a turn (R95, R172). -/
def State.turnStats (s : State) : State :=
  if s.tim.statsDone then s
  else
    let run := s.tab.synRun
    let s1 := (List.range 10).foldl (fun s n =>
      s.fset (F.SYN_PASS_HIST_SEGMENTS n) (if run then s.syn.hist.getD n 0 else 0)) s
    let s2 := s1.fset F.SYN_PEFF_MAX_PROW (if run then s1.syn.peff else 0)
    let hi := min 0xFFFF s2.drv.satHi
    let lo := min 0xFFFF s2.drv.satLo
    let s3 := (s2.fset F.DRV_LEDGER_SAT_HI hi).fset F.DRV_LEDGER_SAT_LO lo
    let th := s3.fget F.DRV_LEDGER_SAT_CFG_THRESH
    let s4 := if th ≠ 0 ∧ th ≤ hi + lo then s3.raise 4 else s3
    { s4 with tim := { s4.tim with statsDone := true } }

/-- The head places an event record in its FIFO of 512 (R298). -/
def State.pushTree (s : State) (e : TreeEvt) : State :=
  if 512 ≤ s.cas.fifo.length then s.fadd F.CAS_EVT_LOST_COUNT 1
  else
    let s1 := s.modCas (fun k => { k with fifo := k.fifo ++ [e] })
    if s.cas.fifo.isEmpty then s1.raise 11 else s1

/-- Payload of an EVENT cell (R298). -/
def eventPayload (source count turn : Nat) : List Byte :=
  leBytes 2 source ++ leBytes 1 count ++ leBytes 1 0 ++ leBytes 6 turn ++ leBytes 2 0

/-- At the latch instant, the masked sources raised during the closing turn go up the tree (R352). -/
def State.sendEvents (s : State) : State :=
  let counts := s.evtTurn
  (List.range 25).foldl (fun s n =>
    let c := min 255 (counts.getD n 0)
    if 0 < c ∧ bitOf (s.rget (R.EVT_MASK_CAS (n / 32))).toNat (n % 32) then
      if s.isHead then s.pushTree { src := 0, source := n, count := c, turn := s.lyr.turn }
      else s.routeCell (s.ownCell .event false 0 (eventPayload n c s.lyr.turn))
    else s) { s with evtTurn := List.replicate 64 0 }

/-- The closing turn ends: its statistics and its events. -/
def State.closeTurn (s : State) : State := s.turnStats.sendEvents

/-! Opening a turn. -/

/-- SEQST of a TURN cell: the sequencer's STATE, SAFE and FAULT (R287). -/
def State.seqst (s : State) : Nat :=
  s.fget F.PWD_SEQ_STAT_STATE + 4 * s.fget F.PWD_SEQ_STAT_SAFE + 8 * s.fget F.PWD_SEQ_STAT_FAULT

/-- Payload of a TURN cell with a given SEQST (R287). -/
def State.turnWith (s : State) (kind seqst : Nat) : List Byte :=
  leBytes 8 (s.time / 65536) ++ leBytes 2 (s.time % 65536) ++ leBytes 6 s.lyr.turn ++ leBytes 8 (s.lyr.latchTime / 65536) ++
  leBytes 1 s.activeSet ++
  leBytes 1 (s.fget F.TIM_MODE_STAT_PHASE * 8 + s.fget F.TIM_MODE_STAT_TARGET) ++
  leBytes 1 seqst ++ leBytes 1 kind ++ leBytes 4 0

/-- Payload of a TURN cell (R287). -/
def State.turnPayload (s : State) (kind : Nat) : List Byte := s.turnWith kind s.seqst

/-- Send a TURN cell on each downstream port that is UP (R287). -/
def State.sendTurn (s : State) (kind : Nat) : State :=
  (List.range 4).foldl (fun s k =>
    if s.casUp (k + 1) then s.putCell (k + 1) (s.ownCell .turn false 0 (s.turnPayload kind)) else s) s

/-- Send port `p`'s child every system fence whose value is not 0, with the next turn as target (R303). -/
def State.fencesTo (s : State) (p : Nat) : State :=
  ((List.range 16).map (· + 48)).foldl (fun s n =>
    let v := s.fget (F.LYR_FENCE_VAL_VALUE n)
    if v ≠ 0 ∧ s.flag F.CAS_CTL_SYSFENCE then
      s.putCell p (s.ownCell .bcommit true 0 (bcPayload ⟨1, n, (s.lyr.turn + 1) % 2 ^ 48, v⟩))
    else s) s

/-- The system fences go to each child that is due them once it is LOCKED (R303). No cell tells its parent of that: it may be so from the
sixteenth ECHO reply on, which its delay estimate needs (R286), and at which latch row it is so is a free value (DESIGN CHOICE, log
entry 44). -/
def State.resendFences (s : State) : State :=
  s.cas.fencesDue.foldl (fun s d =>
    if d.2 < 16 || !s.casUp d.1 then s
    else
      let (v, s1) := s.fresh
      if v % 2 = 1 then (s1.modCas (fun k => { k with fencesDue := k.fencesDue.filter (fun e => e.1 != d.1) })).fencesTo d.1 else s1) s

/-- Panel-link ports follow TIM: IDLE to RUNNING as it starts, and back as it stops (R199). -/
def State.plFollow (s : State) (run : Bool) : State :=
  (List.range 8).foldl (fun s p =>
    if s.fget (F.PL_STAT_STATE p) = (if run then 2 else 3) then s.fset (F.PL_STAT_STATE p) (if run then 3 else 2) else s) s

/-- Running CAPTURE jobs without a turn take the one that opens (R362). -/
def Jobs.captureTurn (j : Jobs) (n : Nat) : Jobs :=
  { j with
    rings := j.rings.map (fun r => { r with
      running := r.running.map (fun x => if x.desc.opcode = 5 ∧ x.capTurn.isNone then { x with capTurn := some n } else x) }) }

/-- The latch instant of turn `n`: the time base set by the host, the turn number, the latch time and the flip time (R122,
R285). -/
def State.beginTurnAs (s : State) (n : Nat) : State :=
  let sp := s.plFollow true
  let s0 := match sp.cas.setReq with
    | some v => if sp.isHead then { sp with time := v * 65536, cas := { sp.cas with setReq := none } } else sp
    | none => sp
  let t := s0.timing
  let lead := (t.blank - t.offset) * t.rowUnits * 65536 / (10 * t.n)
  { s0 with
    jobs := s0.jobs.captureTurn n
    lyr := { s0.lyr with turn := n, opened := true, latchTime := s0.time, flipTime := (s0.time + lead) / 65536 % 2 ^ 64 }
    tim := { s0.tim with run := true, slot := t.active + t.offset, slotAt := s0.time, statsDone := false, adjust := 0, restart := false } }

/-- The latch instant of the next turn. -/
def State.beginTurn (s : State) : State := s.beginTurnAs s.nextTurn

/-- A page exchange that is requested takes effect; one requested in the cycle of the latch row waits for the next (R85, R137, R146). -/
def State.swapPage (s : State) (pend active last : Fld) : State :=
  if s.flag pend && !s.askedNow pend.addr then ((s.fput pend false).fput active (!s.flag active)).fset last (s.lyr.turn % 65536) else s

/-- The generation that is not active. -/
def State.spareGen (s : State) : Nat := if s.flag F.EMC_MAP_CTL_ACTIVE then 0 else 1

/-- A map load writes only the inactive generation: where a latch row has made the one it fills active, it goes on into the other, from
the start (R15, R147, log entry 28). -/
def State.mapRetarget (s : State) : State :=
  match s.heath.mapLoad with
  | none => s
  | some l =>
    if l.gen = s.spareGen then s
    else { (s.fput (F.EMC_MAP_CFG_VALID s.spareGen) false) with heath := { s.heath with mapLoad := some { l with gen := s.spareGen } } }

/-- SYN starts, or refuses to (R27, R92). -/
def State.synGo (s : State) : State :=
  let lead := s.fget F.SYN_LEAD_CFG_LEAD
  if s.geom.valid && decide (8 ≤ lead) && decide (lead ≤ 32) then
    let s1 := (s.fput F.SYN_CTL_RUN true).fput F.SYN_CTL_BADCFG false
    { s1 with tab := { s1.tab with lead := lead } }
  else if s.geom.valid then s.fput F.SYN_CTL_BADCFG true
  else (s.fput F.SYN_CTL_BADCFG true).raise 0

/-- A pending start or stop of SYN takes effect, but for one written in the cycle of the latch row (R92). -/
def State.synRequest (s : State) : State :=
  match s.lyr.heldSyn with
  | none => s
  | some start =>
    if s.askedNow R.SYN_CTL then s
    else
    let s1 := (s.fput F.SYN_CTL_PEND false).modLyr (fun l => { l with heldSyn := none })
    if start then s1.synGo else s1.fput F.SYN_CTL_RUN false

/-- A pending start or stop of DRV takes effect, but for one written in the cycle of the latch row (R171). -/
def State.drvRequest (s : State) : State :=
  match s.lyr.heldDrv with
  | none => s
  | some start =>
    if s.askedNow R.DRV_CTL then s
    else
    let s1 := (s.fput F.DRV_CTL_PEND false).modLyr (fun l => { l with heldDrv := none })
    if !start then s1.fput F.DRV_CTL_RUN false
    else if s1.flag F.DRV_LEDGER_CFG_READY && decide (s1.fget F.DRV_LEDGER_CFG_ROW0 + s1.geom.hp ≤ 17280) then
      (s1.fput F.DRV_CTL_RUN true).fput F.DRV_CTL_BADCFG false
    else s1.fput F.DRV_CTL_BADCFG true

/-- The active LUT page. -/
def State.lutPage (s : State) : LutPage := if s.flag F.COL_LUT_CTL_ACTIVE then s.lut1 else s.lut0

/-- The active coefficient page. -/
def State.coefPage (s : State) : CoefPage := if s.flag F.SYN_COEF_CTL_ACTIVE then s.coef1 else s.coef0

/-- Where a layer of a group's content takes its rows from in the turn that opens (R96, R126, R128, R294). -/
def State.turnLayer (s : State) (sh : GroupShow) (l : LayerRec) : Option TurnLayer :=
  if l.overlay then
    match s.bovlChan l.index with
    | some c => some ⟨l, .bcast c (s.cas.chans.getD c Bcast.reset).active⟩
    | none => some ⟨l, .slot sh.slot⟩
  else if l.isRef || decide (1 < (flattenSet (sh.layers.filter (fun k => k.isStatic)) l).length) then
    ((s.entry l.fallowId).bind (fun e => e.cur)).map (fun g => ⟨l, .fallow g⟩)
  else some ⟨l, .slot sh.slot⟩

/-- The layers of the turn: the contents of all groups, in the order of R71. -/
def State.turnLayers (s : State) : List TurnLayer :=
  let all := s.lyr.groups.flatMap (fun g => match g with
    | none => []
    | some sh => (shownLayers sh.layers).filterMap (fun l => s.turnLayer sh l))
  ((List.range 8).reverse.filterMap (fun i => all.find? (fun t => t.layer.overlay && t.layer.index == i))) ++
  ((List.range 64).reverse.filterMap (fun i => all.find? (fun t => !t.layer.overlay && t.layer.index == i)))

/-- Insertion into a list that rises by a key; equal keys keep their order. -/
def insertBy (key : α → Nat) (x : α) : List α → List α
  | [] => [x]
  | y :: ys => if key x < key y then x :: y :: ys else y :: insertBy key x ys

/-- A stable sort by a key. -/
def sortBy (key : α → Nat) (l : List α) : List α := l.foldl (fun acc x => insertBy key x acc) []

/-- The diagnostic clamp's cap, where it is on (R91). -/
def State.vcapOf (s : State) : Option Nat :=
  if s.flag F.SYN_POOL_CFG_DIAG_CLAMP then some (s.fget F.SYN_POOL_CFG_VCAP) else none

/-- A layer's cap Vc under the diagnostic clamp (R91). -/
def layerCap (vcap : Option Nat) (p : Placement) : Option Nat := vcap.map (fun v => min p.vbound v)

/-- The decode order of a turn: (layer position, band, block column) (R453). -/
def decodeOrder (g : Geom) (vcap : Option Nat) (ls : List TurnLayer) : List (Nat × Nat × Nat) :=
  let bands := (ls.zipIdx).flatMap (fun (t, p) =>
    if t.layer.overlay then []
    else (List.range (nbandOf t.layer.place.h)).filterMap (fun b =>
      (needRow g t.layer.place false (layerCap vcap t.layer.place) b).map (fun n => (n * 128 + p, p, b, ncolOf t.layer.place.w))))
  (sortBy (fun e => e.1) bands).flatMap (fun e => (List.range e.2.2.2).map (fun c => (e.2.1, e.2.2.1, c)))

/-- The zones' temperature sets, latched with the page that the latch row makes active (R142, R143). -/
def State.latchZones (s : State) : List ZoneSet × State :=
  let zs := (List.range 128).map (fun z =>
    if z < s.geom.ng then zoneSet s.lutPage (sInt 16 (s.fget (F.CAL_ZONE_TEMP_TEMP z))) else ⟨0, 0, 0⟩)
  (zs, (zs.zipIdx).foldl (fun s z =>
    ((s.fset (F.COL_ZONE_STAT_TEMP z.2) (uInt 16 z.1.temp)).fset (F.COL_ZONE_STAT_SET z.2) z.1.s).fset
      (F.COL_ZONE_STAT_WEIGHT z.2) z.1.w) s)

/-- The tables of the turn that opens (R15): zones, stress, full scales, dither, timing, geometry, termination, background,
lead and what runs. -/
def State.latchTables (s : State) : State :=
  let (zs, s1) := s.latchZones
  { s1 with tab :=
    { zones := zs
      stress := ⟨(List.range 40).map (fun n => s1.rget (R.DRV_STRESS n)), (List.range 2).map (fun n => s1.rget (R.DRV_UNIT n))⟩
      fs := ((List.range 3).map (fun r => s1.fget (F.DRV_RANGE_FS_FS r))) ++ [2 ^ 18]
      dither := s1.fget F.DRV_DITHER_CFG_MODE
      timing := s1.timing
      geom := s1.geom
      tMin := min (s1.fget F.SYN_TERM_CFG_T_MIN) 0x100000
      bg := ⟨s1.fget F.SYN_BG_COLOUR_R, s1.fget F.SYN_BG_COLOUR_G, s1.fget F.SYN_BG_COLOUR_B⟩
      lead := s1.tab.lead
      synRun := s1.flag F.SYN_CTL_RUN
      drvRun := s1.flag F.DRV_CTL_RUN
      mapGen := s1.fget F.EMC_MAP_CTL_ACTIVE
      vcap := s1.vcapOf } }

/-- The layer set of the turn: the Fallow entries it shows, the pool units it takes, and the decode order (R87, R90, R128,
R129, R453). -/
def State.latchLayers (s : State) : State :=
  let ls := s.turnLayers
  let recs := ls.map (fun t => t.layer)
  let s1 := (s.fset F.SYN_POOL_STAT_LINE_USED (s.lineSum recs)).fset F.SYN_POOL_STAT_OVL_USED (s.ovlSum recs)
  let fids := recs.map (fun l => l.fallowId)
  { s1 with
    lyr := { s1.lyr with
      layerSet := ls
      entries := s1.lyr.entries.map (fun e => if fids.contains e.fid then { e with lastShown := s1.lyr.turn } else e) }
    syn := { Syn.reset with order := decodeOrder s1.geom s1.vcapOf ls }
    drv := ⟨0, 0, []⟩ }

/-- Whether a HELD slot may be released (R99, R295): no group pending or shown, no Fallow job, no copy of it. -/
def State.releasable (s : State) (n : Nat) : Bool :=
  s.slotCode n == 3 && s.lyr.commits.all (fun c => c.slot != some n) &&
  s.lyr.groups.all (fun g => (g.map (fun sh => sh.slot != n)).getD true) &&
  s.lyr.jobs.all (fun j => j.slot != n || j.ended) &&
  s.cas.chans.all (fun b => (b.copy.map (fun c => c.slot != n)).getD true && (b.queued.map (fun c => c.slot != n)).getD true)

/-- Release the HELD slots that nothing needs (R99). -/
def State.releaseSlots (s : State) : State :=
  let ns := [0, 1, 2].filter s.releasable
  if ns.isEmpty then s else (ns.foldl (fun s n => s.freeSlot n) s).grantAll

/-- The entries that FALLOW_DROP named are evicted where unreferenced (R129). -/
def State.dropEntries (s : State) : State :=
  let named := s.fallowNamed
  s.modLyr (fun l => { l with
    drops := [], entries := l.entries.filter (fun e => !(l.drops.contains e.fid) || named.contains e.fid) })

/-- Sessions open at the latch row that opens the first turn after bring-up (R375 step 12). -/
def State.openSessions (s : State) : State :=
  match s.img with
  | none => s
  | some im =>
    if s.boot.opened then s
    else
      let ing := byteAt im.policy 9
      let s1 := (s.fset ⟨R.SES_CTL, 2, 0⟩ (byteAt im.policy 8 % 8))
      let s2 := if im.policy.isEmpty then s else ingEnable 1 (bitOf ing 1) (ingEnable 0 (bitOf ing 0) s1)
      { s2 with boot := { s2.boot with opened := true } }

/-- The newly promoted primary may commit from the latch row on (R264). -/
def State.settleRoles (s : State) : State :=
  s.modSes (fun e => { e with atts := e.atts.map (fun a => if a.role = .promoted then { a with role := .primary } else a) })

/-- What every opening latch row does once the landings are decided (R119). -/
def State.settleTurn (s : State) : State :=
  let s1 := (s.swapPage F.SYN_COEF_CTL_PEND F.SYN_COEF_CTL_ACTIVE F.SYN_COEF_CTL_LAST_TURN).swapPage
    F.COL_LUT_CTL_PEND F.COL_LUT_CTL_ACTIVE F.COL_LUT_CTL_LAST_TURN
  let s2 := ((s1.swapPage F.EMC_MAP_CTL_PEND F.EMC_MAP_CTL_ACTIVE F.EMC_MAP_CTL_LAST_TURN).mapRetarget).drvRequest
  let s3 := (s2.dropEntries.latchLayers.latchTables).releaseSlots
  let s4 := if s3.casState = 3 then s3.modCas (fun k => { k with pairLost := false }) else s3
  ((s4.showGroups.settleRoles.openSessions).sendTurn 0).resendFences

/-- What a latch row does once its turn is numbered: commits land, and the panel shows its layers (R115, R119). -/
def State.showTurn (s : State) : State :=
  let (landed, s1) := s.latchLimits.landAll s.lyr.turn s.lyr.flipTime
  (((s1.setRepeat landed).setFade.modLyr (fun l => { l with quiet := false })).synRequest).settleTurn

/-- A latch row that opens a turn in which the panel shows its layers. -/
def State.openTurn (s : State) : State := s.beginTurn.showTurn

/-- A latch row that opens a quiet turn: no commit lands, no wait count or repeat count advances, and SYN is stopped
(R120, R131, R133, R303). -/
def State.openQuiet (s : State) : State :=
  ((s.beginTurn.fput F.SYN_CTL_RUN false).modLyr (fun l => { l with
    quiet := true
    waited := [] })).settleTurn

/-! The mode change (R130 to R133, R293). -/

/-- A commit's request is due at the first latch row at which all its groups are ready; a head with followers issues a MODE
cell then (R130, R293). -/
def State.modeReady (s : State) : State :=
  if s.lyr.mode = .waiting ∧ ¬ s.lyr.modeGo ∧ ¬ s.lyr.modeSent then
    match s.modeCommitOf with
    | none => s
    | some c =>
      if !s.commitReady c then s
      else if s.headsTree then
        (s.issueBc ⟨2, s.lyr.modeTarget, s.bcTarget, 0⟩).modLyr (fun l => { l with modeSent := true })
      else s.modLyr (fun l => { l with modeGo := true })
  else s

/-- The loads of Q2: SYN's registers at once, those of TIM, DRV and CLK_TIME_CFG into pending copies (R132). -/
def State.modeLoads (s : State) : State :=
  match s.tsetOf s.lyr.modeTarget with
  | none => s
  | some t => (s.loads t.synLoads).modLyr (fun l => { l with pendLoads := t.timLoads ++ t.drvLoads })

/-- Set the phase of a mode change, as TIM_MODE_STAT shows it. -/
def State.modePhase (s : State) (m : ModePhase) (code : Nat) : State :=
  (s.fset F.TIM_MODE_STAT_PHASE code).modLyr (fun l => { l with mode := m })

/-- TIM stops: gate outputs inactive, every lane idle, one that retrains too (R165, R195, R210). -/
def State.timStop (s : State) : State :=
  let s := s.plFollow false
  { s with tim := { s.tim with run := false }
           pl := s.pl.map (fun p => { p with retry := [], lanes := List.replicate 17 [] }) }

/-- A rejoining follower stops TIM until the parent's next latch instant (R303). -/
def State.rejoinStop (s : State) : State :=
  let s1 := s.timStop
  { s1 with tim := { s1.tim with rejoin := 0, restart := true } }

/-- The old timing ends; TIME retunes where the target's ratio differs (R131), and TIM stops in a rejoin whatever the ratio
(R303). -/
def State.modeEndOld (s : State) : State :=
  match s.tsetOf s.lyr.modeTarget with
  | none => s.modePhase .idle 0
  | some t =>
    let s1 := if t.timing.n = s.timing.n ∧ t.timing.d = s.timing.d then s.modePhase .ready 2 else (s.modePhase .retune 3).timStop
    if s.casState = 6 then s1.rejoinStop else s1

/-- Whether a layer's bounds hold under a geometry (R35, R36). -/
def layerFits (g : Geom) (l : LayerRec) : Bool :=
  decide (ceilHmax g l.place ≤ l.place.hbound) && decide (ceilVmax g l.place ≤ l.place.vbound)

/-- Whether every layer of a slot's declaration fits the geometry; a slot with one that does not is not shown (R36). -/
def State.slotFits (s : State) (n : Nat) : Bool :=
  ((s.slot n).decl.map (fun d => d.layers.all (layerFits s.geom))).getD true

/-- A group that shows content of a slot that does not fit the new geometry loses it (R36, R133). -/
def State.recheckGroup (s : State) (g : Nat) : State :=
  match s.lyr.groups.getD g none with
  | none => s
  | some sh =>
    if s.slotFits sh.slot && sh.layers.all (layerFits s.geom) then s
    else (s.modLyr (fun l => { l with groups := setNth l.groups g none })).outcome sh.sid sh.id sh.slot [g] (.discarded 0x33)

/-- Whether a commit may go on under the new timing: it is a commit of the new set, and its slot, once committed, fits (R36,
R133). -/
def State.staysIn (s : State) (c : Commit) : Bool :=
  c.tset == s.activeSet && (!c.accepted || (c.slot.map s.slotFits).getD true)

/-- A commit that may not go on is discarded with MODE; the slot of one still waiting to complete returns to FREE (R36, R133). -/
def State.discardOld (s : State) (c : Commit) : State :=
  if s.staysIn c then s
  else
    let s1 := (s.dropCommit c).commitOutcome c c.groupList (.discarded 0x33)
    match c.slot with
    | none => s1
    | some n => if !c.accepted && s1.isFilling n then (s1.freeSlot n).grantAll else s1

/-- The registers of the new timing become live, with the generation that CALSET assigns (R132, R148). That assignment is no SWAP, and
LAST_TURN keeps the turn of the last exchange (DESIGN CHOICE, log entry 27). -/
def State.modeLive (s : State) (t : TSet) : State :=
  let s1 := (s.loads s.lyr.pendLoads).fset F.DRV_LEDGER_CFG_ROW0 t.row0
  let s2 := (((s1.fset F.TIM_MODE_STAT_ACTIVE t.tset).fset F.TIM_MODE_STAT_TARGET t.tset).fset F.TIM_MODE_STAT_PHASE 0)
  let s3 := if s.lyr.modeCommit.isNone && s.isHead then s2.fset F.TIM_MODE_STAT_RESULT 1 else s2
  let s4 := s3.modLyr (fun l => { l with pendLoads := [] })
  match t.calGen with
  | none => s4
  | some g => (s4.fset F.EMC_MAP_CTL_ACTIVE g).fput F.EMC_MAP_CTL_PEND false

/-- SYN starts with the new timing unless the latest held request is a STOP (R131, R454); one written in the cycle of that latch row is held
for the next (R92). -/
def State.modeSyn (s : State) : State :=
  if s.askedNow R.SYN_CTL then s.synGo
  else
  let stop := s.lyr.heldSyn == some false
  let s1 := (s.fput F.SYN_CTL_PEND false).modLyr (fun l => { l with heldSyn := none })
  if stop then s1 else s1.synGo

/-- The new timing `t` starts at its latch row (R131 to R133). The recheck of R36 comes before the landings of that latch row, so that
content which a landing replaces there is still reported DISCARDED (DESIGN CHOICE, log entry 27). -/
def State.newTiming (s : State) (t : TSet) : State :=
  let n := s.nextTurnIn t
  let s1 := ((((s.closeTurn.bcDueAt 1 n).bcDueAt 3 n).modeLive t).modeSyn).beginTurnAs n
  let s2 := (List.range 16).foldl (fun s g => s.recheckGroup g) s1
  let s3 := s2.lyr.commits.foldl (fun s c => s.discardOld c) s2
  s3.showTurn.modLyr (fun l => { l with mode := .idle, modeCommit := none, modeSent := false, modeGo := false })

/-- Whether a follower's TIM that a rejoin has stopped waits for LOCKED (R289, R303). -/
def State.rejoinWaits (s : State) : Bool := s.tim.restart && s.casState != 3

/-- NEW_TIMING_START: the new timing starts at its latch row; not while TIM waits for the sequencer's next power-up, nor after a rejoin's
quiet turns before the follower is LOCKED (R131, R177, R303). -/
def newTimingStart (s : State) : State :=
  if s.lyr.mode ≠ .ready || s.tim.parked || s.rejoinWaits then s
  else match s.tsetOf s.lyr.modeTarget with
    | none => s
    | some t => s.newTiming t

/-- TIME_RETUNE_DONE (R131). -/
def timeRetuneDone (s : State) : State :=
  if s.lyr.mode = .retune then s.modLyr (fun l => { l with mode := .ready }) else s

/-! LATCH. -/

/-- Whether a mode change starts at this latch row; one requested in the cycle of the latch row does not yet (R130). -/
def State.modeStarts (s : State) : Bool := s.lyr.mode == .waiting && s.lyr.modeGo && !s.askedNow R.TIM_MODE_REQ

/-- SWAP cells due at the next latch row are applied; one due with a mode change that starts there waits for the first turn of
the new mode (R304). -/
def State.swapDue (s : State) : State :=
  if s.modeStarts then
    let next := s.nextTurn
    s.modCas (fun k => { k with bcHold := k.bcHold.map (fun b =>
      if b.kind = 3 ∧ due48 b.target next then { b with target := (next + 2) % 2 ^ 48 } else b) })
  else s.bcDue 3

/-- The FENCE and MODE cells that this latch row is the target of are applied. -/
def State.latchCells (s : State) : State := (s.bcDue 1).bcDue 2

/-- A rejoin's latch rows: two quiet turns, and then TIM stops until the parent's next latch instant (R303). -/
def State.rejoinLatch (s : State) : State :=
  if s.tim.rejoin < 2 then
    let s1 := s.openQuiet
    { s1 with tim := { s1.tim with rejoin := s.tim.rejoin + 1 } }
  else s.rejoinStop

/-- A latch row: the turn closes, the broadcast commits that it is the target of apply, and the turn that the mode change or the
rejoin asks for opens (R118, R119, R131, R303). -/
def State.latchRow (s : State) : State :=
  let s1 := s.closeTurn.latchCells.modeReady.swapDue
  match s1.lyr.mode with
  | .q2 => s1.modeEndOld
  | .q1 => (s1.modePhase .q2 2).openQuiet.modeLoads
  | .waiting =>
    if s1.modeStarts then (s1.modePhase .q1 1).openQuiet
    else if s1.casState = 6 then s1.rejoinLatch else s1.openTurn
  | _ => if s1.casState = 6 then s1.rejoinLatch else s1.openTurn

/-- LATCH (R118, R119). With TIM stopped there is no latch row, but for a follower's restart at its parent's (R303). -/
def latch (s : State) : State :=
  if s.lyr.mode = .ready then newTimingStart s
  else if !s.tim.run then
    if s.tim.restart && s.casState == 3 && !s.tim.parked then
      s.closeTurn.latchCells.swapDue.modeSyn.openTurn
    else s
  else s.latchRow

/-- FENCE_TIMEOUT: group `g` is abandoned in every commit whose wait count for it, advanced at the latch row, has reached the
fence_timeout in force there (R115). -/
def fenceTimeout (g : Fin 16) (s : State) : State :=
  s.lyr.commits.foldl (fun s c =>
    if s.lyr.waited.contains (c.key, g.val) && c.groups.any (fun e => e.1 == g.val && decide (s.lyr.fenceLim ≤ e.2)) then
      s.abandonGroups c [g.val]
    else s) s

/-- FADE_START: the fade of the turn follows the repeat count and the repeat policy in force at the latch row that opened it (R121). -/
def fadeStart (s : State) : State := s.setFade

/-- A SWAP: none while one is pending (R85, R137). -/
def State.askSwap (s : State) (pend : Fld) : State := if s.flag pend then s else (s.fput pend true).ask pend.addr

/-- COEF_SWAP (R85). -/
def coefSwap (s : State) : State := s.askSwap F.SYN_COEF_CTL_PEND

/-- LUT_SWAP (R137). -/
def lutSwap (s : State) : State := s.askSwap F.COL_LUT_CTL_PEND

/-- MAP_SWAP (R146). -/
def mapSwap (s : State) : State := s.askSwap F.EMC_MAP_CTL_PEND

/-- A request to start or stop SYN; both together have no effect, the latest wins (R92). -/
def State.synAsk (s : State) (start stop : Bool) : State :=
  if start == stop then s else (s.fput F.SYN_CTL_PEND true).modLyr (fun l => { l with heldSyn := some start })

/-- A request to start or stop DRV (R171). -/
def State.drvAsk (s : State) (start stop : Bool) : State :=
  if start == stop then s else (s.fput F.DRV_CTL_PEND true).modLyr (fun l => { l with heldDrv := some start })

/-- A write of START and STOP to SYN_CTL: the request waits for a latch row of a later cycle (R92). -/
def State.synWrite (s : State) (start stop : Bool) : State := if start == stop then s else (s.synAsk start stop).ask R.SYN_CTL

/-- A write of START and STOP to DRV_CTL (R171). -/
def State.drvWrite (s : State) (start stop : Bool) : State := if start == stop then s else (s.drvAsk start stop).ask R.DRV_CTL

/-- SYN_START: a write of START, with STOP as given. -/
def synStart (stop : Bool) (s : State) : State := s.synWrite true stop
/-- SYN_STOP: a write of STOP, with START as given. -/
def synStop (start : Bool) (s : State) : State := s.synWrite start true
/-- DRV_START. -/
def drvStart (stop : Bool) (s : State) : State := s.drvWrite true stop
/-- DRV_STOP. -/
def drvStop (start : Bool) (s : State) : State := s.drvWrite start true

/-- MODE_REQUEST: a write of GO to TIM_MODE_REQ (R130, R293). -/
def modeRequest (tset : BitVec 3) (s : State) : State :=
  let s1 := s.fset F.TIM_MODE_REQ_TSET tset.toNat
  if !s1.isHead then s1.fset F.TIM_MODE_STAT_RESULT 2
  else if tset.toNat = s1.activeSet then s1.fset F.TIM_MODE_STAT_RESULT 1
  else if !s1.tsetValid tset.toNat then s1.fset F.TIM_MODE_STAT_RESULT 2
  else if s1.modeBusy then s1.fset F.TIM_MODE_STAT_RESULT 3
  else (s1.beginMode tset.toNat none).ask R.TIM_MODE_REQ

/-- LATCH. -/
def execLatch (s : State) : Host.Outcome State Fault Refusal := .next (latch s)
/-- FENCE_TIMEOUT. -/
def execFenceTimeout (g : Fin 16) (s : State) : Host.Outcome State Fault Refusal := .next (fenceTimeout g s)
/-- FADE_START. -/
def execFadeStart (s : State) : Host.Outcome State Fault Refusal := .next (fadeStart s)
/-- TIME_RETUNE_DONE. -/
def execTimeRetuneDone (s : State) : Host.Outcome State Fault Refusal := .next (timeRetuneDone s)
/-- NEW_TIMING_START. -/
def execNewTimingStart (s : State) : Host.Outcome State Fault Refusal := .next (newTimingStart s)
/-- COEF_SWAP. -/
def execCoefSwap (s : State) : Host.Outcome State Fault Refusal :=
  .next (s.onReg R.SYN_COEF_CTL coefSwap)
/-- LUT_SWAP. -/
def execLutSwap (s : State) : Host.Outcome State Fault Refusal :=
  .next (s.onReg R.COL_LUT_CTL lutSwap)
/-- MAP_SWAP. -/
def execMapSwap (s : State) : Host.Outcome State Fault Refusal :=
  .next (s.onReg R.EMC_MAP_CTL mapSwap)
/-- SYN_START. -/
def execSynStart (stop : Bool) (s : State) : Host.Outcome State Fault Refusal :=
  .next (s.onReg R.SYN_CTL (synStart stop))
/-- SYN_STOP. -/
def execSynStop (start : Bool) (s : State) : Host.Outcome State Fault Refusal :=
  .next (s.onReg R.SYN_CTL (synStop start))
/-- DRV_START. -/
def execDrvStart (stop : Bool) (s : State) : Host.Outcome State Fault Refusal :=
  .next (s.onReg R.DRV_CTL (drvStart stop))
/-- DRV_STOP. -/
def execDrvStop (start : Bool) (s : State) : Host.Outcome State Fault Refusal :=
  .next (s.onReg R.DRV_CTL (drvStop start))
/-- MODE_REQUEST. -/
def execModeRequest (tset : BitVec 3) (s : State) : Host.Outcome State Fault Refusal :=
  .next (s.onReg R.TIM_MODE_REQ (modeRequest tset))

end Sys2Proof.Machine
end

