-- ==== Sys2Proof/Machine/Synth.lean ====
section
/-! DEFINITION. Decoding, ray synthesis, colour, calibration and encoding of row segments (03_scene_coding.md R64 to R68,
04_ray_synthesis.md R69 to R95, R453, 06_colour_and_calibration.md R134 to R158, 07_panel_drive_and_ledger.md R166 to R173,
12_memory.md R307 to R309, R316, R323), and the geometry probe (R37). -/

namespace Sys2Proof.Machine

/-! Blocks and bands of the turn's layers. -/

/-- The layer of the turn at a position. -/
def State.layerAt (s : State) (p : Nat) : Option TurnLayer := s.lyr.layerSet[p]?

/-- The cap Vc of a layer in this turn (R91). -/
def State.capOf (s : State) (l : LayerRec) : Option Nat := layerCap s.tab.vcap l.place

/-- The vertical bound that the allocation of this turn uses (R87, R91). -/
def State.turnVb (s : State) (l : LayerRec) : Nat := (s.capOf l).getD l.place.vbound

/-- The least row that some active cluster has still to start. -/
def State.minNext (s : State) : Nat :=
  ((List.range s.tab.geom.ng).map (fun g => (s.syn.clusters.getD g ⟨0, 0⟩).next)).foldl min 32768

/-- Whether every row that remains lies below a band (R90). -/
def State.bandDone (s : State) (l : LayerRec) (band : Nat) : Bool :=
  match lastNeedRow s.tab.geom l.place l.overlay (s.capOf l) band with
  | none => true
  | some y => decide (y < s.minNext)

/-- Whether a band of a layer holds its units now: fewer bands before it are still in use than the layer holds (R87, R90). -/
def State.bandHeld (s : State) (l : LayerRec) (band : Nat) : Bool :=
  let held := if l.overlay then ovlBands (s.turnVb l) else lineBands (s.turnVb l)
  decide (((List.range band).filter (fun b => !s.bandDone l b)).length < held)

/-- The block of a layer at a position: its directory entry, and for a Fallow layer the generation that holds it and the pixels that the
device coded there, where it is a flattened plane. -/
structure BlockSrc where
  entry : DirEntry
  gen : Option FallowGen
  flat : Option (List (List Px))
  deriving DecidableEq, Repr

/-- Where the block of a position of the turn comes from. -/
def State.blockSrc (s : State) (t : TurnLayer) (band col : Nat) : Option BlockSrc :=
  match t.src with
  | .slot n => ((s.slot n).entryAt (t.layer.index * 256 + band) col).map (fun e => ⟨e, none, none⟩)
  | .fallow g =>
    (g.blocks.find? (fun e => e.1 == band && e.2.1 == col)).map (fun e =>
      ⟨e.2.2, some g, (g.flat.find? (fun f => f.1 == band && f.2.1 == col)).map (fun f => f.2.2)⟩)
  | .bcast .. => none

/-- Put a block's rows into the line pool, dropping the bands that are done. -/
def State.poolPut (s : State) (p band col : Nat) (rows : List (List Px)) : State :=
  let keep := s.syn.pool.filter (fun b => ((s.layerAt b.layer).map (fun t => !s.bandDone t.layer b.band)).getD false)
  { s with syn := { s.syn with pool := keep ++ [⟨p, band, col, rows⟩] } }

/-- Kinds of R64, by the codes of DEC_ERR_FIRST. -/
def DecodeResult.kind : DecodeResult → Nat
  | .ok _ => 0
  | .overrun => 1
  | .trailing => 2
  | .ecc => 3

/-- Set DERR in the directory entry of a block of the turn (R65). -/
def State.setDerr (s : State) (t : TurnLayer) (band col : Nat) : State :=
  let mark := fun (g : FallowGen) => { g with blocks := g.blocks.map (fun e =>
    if e.1 = band ∧ e.2.1 = col then (e.1, e.2.1, { e.2.2 with derr := true }) else e) }
  match t.src with
  | .slot n => s.modSlot n (fun sl =>
      let r := sl.ring (t.layer.index * 256 + band)
      { sl with dir := sl.dir.map (fun e => if r.alloc ∧ e.1 = r.dirBase + col then (e.1, { e.2 with derr := true }) else e) })
  | .fallow _ =>
    s.modLyr (fun l => { l with
      entries := l.entries.map (fun e => if e.fid = t.layer.fallowId then { e with cur := e.cur.map mark } else e)
      layerSet := l.layerSet.map (fun u =>
        if u.layer.fallowId = t.layer.fallowId then
          match u.src with
          | .fallow g => { u with src := .fallow (mark g) }
          | _ => u
        else u) })
  | .bcast .. => s

/-- A block in error (R65): counted, captured, raised and reported (R269); DERR is set unless only its ring descriptor was lost. `d` is
the decoder that found it, 32 for none (R68). For a Fallow block that a REF layer shows, p is that layer's INDEX, which may differ from the
PLANE stored with the block (DESIGN CHOICE, log entry 26). -/
def State.blockError (s : State) (t : TurnLayer) (band col kind tag : Nat) (derr : Bool) (d : Nat) : State :=
  let s1 := if derr then s.setDerr t band col else s
  let s2 := s1.fadd (if kind = 1 then F.DEC_ERR_COUNT_OVERRUN else if kind = 2 then F.DEC_ERR_COUNT_TRAILING
    else F.DEC_ERR_COUNT_ECC) 1
  let slot := match t.src with
    | .slot n => n
    | _ => 3
  let first := 2 ^ 31 + 2 ^ 29 * kind + 2 ^ 27 * slot + 2 ^ 21 * t.layer.index + 2 ^ 13 * band + 2 ^ 9 * col
  let s3 := s2.capture F.DEC_ERR_FIRST_VALID d [(R.DEC_ERR_FIRST, BitVec.ofNat 32 first),
    (R.DEC_ERR_FIRST_TAG, BitVec.ofNat 32 tag), (R.DEC_ERR_FIRST_TURN, BitVec.ofNat 32 s.lyr.turn)]
  (s3.raise 1).queueAll (.blockerr kind slot col (t.layer.index * 256 + band) tag s.lyr.turn)

/-- Where `n` bytes from byte `o` of a generation lie in HBM, granule by granule (R324); beyond the table, outside the region. -/
def State.genPieces (s : State) (table : List Nat) : (fuel o n : Nat) → List (Nat × Nat)
  | 0, _, _ => []
  | fuel + 1, o, n =>
    if n = 0 then []
    else
      let k := min n (65536 - o % 65536)
      (s.regionBase 8 + 65536 * table.getD (o / 65536) (s.regionSize 8 / 65536) + o % 65536, k) ::
        s.genPieces table fuel (o + k) (n - k)

/-- Where the block of an entry of a generation lies: at most 106,496 bytes touch three granules. -/
def State.genBlock (s : State) (table : List Nat) (e : DirEntry) : List (Nat × Nat) :=
  s.genPieces table 3 (16 * e.addr) e.bytes.length

/-- A decoder's read of a block: Sward for a slot's block, HBM for a Fallow block (R309, R316): its bytes, none where they are lost. -/
def State.blockRead (s : State) (b : BlockSrc) (e : EccResult) : Option (List Byte) × State :=
  match b.gen with
  | none =>
    let (lost, s1) := s.swardRead e
    (if lost then none else some b.entry.bytes, s1)
  | some g =>
    if b.entry.zero then (some [], s)
    else
      let ps := s.genBlock g.table b.entry
      let (lost, s1) := s.readPieces .fallowRd ps e
      (if lost then none else some (ps.flatMap (fun q => s1.hbmRead q.1 q.2)), s1)

/-- The decoding of a block whose bytes a decoder has read. A flattened plane's coding is lossless, so that what was stored decodes to the
pixels it was made from (R126). -/
def State.blockDecode (s : State) (b : BlockSrc) (bytes : List Byte) : DecodeResult :=
  if b.entry.zero then .ok clearBlock
  else match b.flat with
    | some rows => if bytes = b.entry.bytes then .ok rows else decodeBlock s.codeTabs bytes
    | none => decodeBlock s.codeTabs bytes

/-! The decoders (R90, R307, R453). -/

/-- Whether a decoder's entry is a block of a band. -/
def ofBand (p b : Nat) (e : Option (Nat × Nat × Nat)) : Bool := (e.map (fun x => x.1 == p && x.2.1 == b)).getD false

/-- Every block of a ring is in error of kind ECC in this turn, those decoded already too, and each is counted once; a block with DERR
has been (R309). The manual gives such a block no TAG, and 0 is reported (DESIGN CHOICE, log entry 26). -/
def State.ringLost (s : State) (p : Nat) (t : TurnLayer) (b : Nat) : State :=
  let cols := (List.range (ncolOf t.layer.place.w)).filter (fun c =>
    !(((s.blockSrc t b c).map (fun x => x.entry.derr)).getD false))
  let s1 := { s with syn := { s.syn with
    order := s.syn.order.filter (fun e => !(e.1 == p && e.2.1 == b && cols.contains e.2.2))
    decoders := s.syn.decoders.map (fun e => if ofBand p b e then none else e)
    ahead := s.syn.ahead.map (fun e => if ofBand p b e then none else e)
    pool := s.syn.pool.filter (fun q => !(q.layer == p && q.band == b && cols.contains q.col)) } }
  cols.foldl (fun s c =>
    let s2 := s.blockError t b c 3 0 false 32
    if s.syn.late.contains (p, b, c) then s2 else s2.poolPut p b c clearBlock) s1

/-- The decoder that takes the next block: the lowest that holds none, else the lowest whose input buffer is free, which fetches it one
ahead of the block it decodes (R307, R453; log entry 7). -/
def State.freeDecoder (s : State) : Option (Nat × Bool) :=
  match (List.range 32).find? (fun d => (s.syn.decoders.getD d none).isNone && (s.syn.ahead.getD d none).isNone) with
  | some d => some (d, false)
  | none => ((List.range 32).find? (fun d => (s.syn.ahead.getD d none).isNone)).map (fun d => (d, true))

/-- DECODE_ASSIGN (R90, R307, R453): the next block of the order, once its band holds its units, goes to a decoder; a block with DERR
is substituted without one. `ring` is what the read of its ring descriptor reported (R309). -/
def decodeAssign (ring : EccResult) (s : State) : State :=
  match s.syn.order with
  | [] => s
  | (p, b, c) :: rest =>
    let next := fun (s : State) => { s with syn := { s.syn with order := rest } }
    match s.layerAt p with
    | none => next s
    | some t =>
      let slotBlock := match t.src with
        | .slot _ => true
        | _ => false
      if !s.bandHeld t.layer b then s
      else if ((s.blockSrc t b c).map (fun x => x.entry.derr)).getD true then (next s).poolPut p b c clearBlock
      else if slotBlock && ring == .uncorrectable then ((s.swardRead ring).2).ringLost p t b
      else
        match s.freeDecoder with
        | none => s
        | some (d, ahead) =>
          let s1 := next (if slotBlock then (s.swardRead ring).2 else s)
          if ahead then { s1 with syn := { s1.syn with ahead := setNth s1.syn.ahead d (some (p, b, c)) } }
          else { s1 with syn := { s1.syn with decoders := setNth s1.syn.decoders d (some (p, b, c)) } }

/-- A decoder goes on to the block it has fetched. -/
def State.nextBlock (s : State) (d : Nat) : State :=
  { s with syn := { s.syn with decoders := setNth s.syn.decoders d (s.syn.ahead.getD d none), ahead := setNth s.syn.ahead d none } }

/-- BLOCK_DECODE_DONE: decoder `d` has finished its block; `ecc` is the worst of its reads (R64 to R66). A block that has got DERR since
it was assigned, through another layer that shows it, is substituted and not counted again (R65). While HBM trains a Fallow block
does not come (R319). A flattened plane's blocks have no TAG, and 0 is reported (DESIGN CHOICE, log entry 26). -/
def blockDecodeDone (d : Fin 32) (ecc : EccResult) (s : State) : State :=
  match s.syn.decoders.getD d none with
  | none => s
  | some (p, b, c) =>
    let s1 := s.nextBlock d.val
    match s1.layerAt p with
    | none => s1
    | some t =>
      let put := fun (s : State) (rows : List (List Px)) => if s.syn.late.contains (p, b, c) then s else s.poolPut p b c rows
      match s1.blockSrc t b c with
      | none => put s1 clearBlock
      | some x =>
        if x.entry.derr then put s1 clearBlock
        else if x.gen.isSome && s.hbmTrains then s
        else
          let (bytes, s2) := s1.blockRead x ecc
          let bad := fun (k : Nat) => put (s2.blockError t b c k x.entry.hdr.tag true d.val) clearBlock
          match bytes.map (s2.blockDecode x) with
          | none => bad 3
          | some (.ok rows) => put s2 rows
          | some r => bad r.kind

/-- A pixel in the packing of OFMT 1 (R104). -/
def readPx (b : List Byte) : Px :=
  let v := leAt b 0 5
  ⟨bitsOf v 9 0, bitsOf v 19 10, bitsOf v 29 20, bitsOf v 39 30⟩

/-- Address of a pixel of buffer `b` of broadcast channel `c` (R323). -/
def State.bcastAddr (s : State) (c b y x : Nat) : Nat :=
  s.regionBase 7 + (2 * c + b) * 160 * 2 ^ 20 + 40960 * y + 5 * x

/-- A row of an overlay of the turn as the prefetch reads it: its pixels, and the state after the read; taps outside a channel's W × H
read clear (R294, R316). -/
def State.ovlRow (s : State) (t : TurnLayer) (y : Nat) (e : EccResult) : List Px × State :=
  let w := t.layer.place.w
  let pixels := fun (a n : Nat) => (List.range n).map (fun x => readPx (s.hbmRead (a + 5 * x) 5))
  let clear := List.replicate w Px.clear
  match t.src with
  | .slot n =>
    let a := s.ovlAddr n t.layer.index y 0
    let (err, s1) := s.clientRead .ovlPf a (5 * w) e
    (if err then clear else pixels a w, s1)
  | .bcast c b =>
    if s.fget (F.CAS_BOVL_CFG_H c) ≤ y then (clear, s)
    else
      let n := min w (s.fget (F.CAS_BOVL_CFG_W c))
      let a := s.bcastAddr c b y 0
      let (err, s1) := s.clientRead .ovlPf a (5 * n) e
      (if err then clear else pixels a n ++ List.replicate (w - n) Px.clear, s1)
  | .fallow _ => (clear, s)

/-- OVERLAY_PREFETCH_DONE: a band of 16 rows of overlay `i` is in the overlay store (R72, R87). `ecc` is what its reads reported,
in a row freely chosen; a row with an uncorrectable error is transparent (R316). While HBM trains nothing comes (R319). -/
def overlayPrefetchDone (i : Fin 8) (band : BitVec 8) (ecc : EccResult) (s : State) : State :=
  match s.lyr.layerSet.findIdx? (fun t => t.layer.overlay && t.layer.index == i.val) with
  | none => s
  | some p =>
    match s.layerAt p with
    | none => s
    | some t =>
      let b := band.toNat
      if nbandOf t.layer.place.h ≤ b ∨ s.syn.ovl.any (fun o => o.layer == p && o.band == b) ∨ ¬ s.bandHeld t.layer b ∨ s.hbmTrains then s
      else
        let n := min 16 (t.layer.place.h - 16 * b)
        let (v, s0) := if ecc = .clean then (0, s) else s.fresh
        let (rows, s1) := (List.range n).foldl (fun (acc : List (List Px) × State) k =>
          let (r, s') := acc.2.ovlRow t (16 * b + k) (if k = v % n then ecc else .clean)
          (acc.1 ++ [r], s')) ([], s0)
        let keep := s1.syn.ovl.filter (fun o => ((s1.layerAt o.layer).map (fun t => !s1.bandDone t.layer o.band)).getD false)
        { s1 with syn := { s1.syn with ovl := keep ++ [⟨p, b, rows⟩] } }

/-! One row segment (R71 to R83). -/

/-- A stored pixel of a layer of the turn; clear where the block is not in the line pool or the band not in the store. -/
def State.layerPx (s : State) (p : Nat) (overlay : Bool) (row col : Nat) : Px :=
  if overlay then
    match s.syn.ovl.find? (fun o => o.layer == p && o.band == row / 16) with
    | none => Px.clear
    | some o => (o.rows.getD (row % 16) []).getD col Px.clear
  else
    match s.syn.pool.find? (fun b => b.layer == p && b.band == row / 16 && b.col == col / 512) with
    | none => Px.clear
    | some b => (b.rows.getD (row % 16) []).getD (col % 512) Px.clear

/-- Whether a coverage granule of a layer is clear, judged on its pixels inside the layer (R72). -/
def State.granuleClear (s : State) (p : Nat) (l : LayerRec) (gy gx : Nat) : Bool :=
  (List.range 16).all (fun j => (List.range 16).all (fun i =>
    let y := 16 * gy + j
    let x := 16 * gx + i
    decide (l.place.h ≤ y) || decide (l.place.w ≤ x) || (s.layerPx p l.overlay y x).a == 0))

/-- Whether a layer enters the segment layer list of row `y` and column group `g` (R73). -/
def State.inSegment (s : State) (g y p : Nat) (l : LayerRec) : Bool :=
  match footprint s.tab.geom l.place l.overlay (s.capOf l) g y with
  | none => false
  | some ((x0, x1), (y0, y1)) =>
    (List.range (y1 / 16 + 1 - y0 / 16)).any (fun j => (List.range (x1 / 16 + 1 - x0 / 16)).any (fun i =>
      !s.granuleClear p l (y0 / 16 + j) (x0 / 16 + i)))

/-- The bands of a layer that an emitter row's taps reach, where the layer is not there for synthesis: for a plane, bands with a
block that is not in the line pool; for an overlay, bands not in the store. -/
def State.missingBands (s : State) (p : Nat) (t : TurnLayer) (y : Nat) : List Nat :=
  let l := t.layer
  (bandsOfRow s.tab.geom l.place l.overlay (s.capOf l) y).eraseDups.filter (fun b =>
    if l.overlay then !s.syn.ovl.any (fun o => o.layer == p && o.band == b)
    else (List.range (ncolOf l.place.w)).any (fun c => !s.syn.pool.any (fun q => q.layer == p && q.band == b && q.col == c)))

/-- Note late blocks. -/
def State.poolLate (s : State) (l : List (Nat × Nat × Nat)) : State :=
  { s with syn := { s.syn with late := s.syn.late ++ l } }

/-- R308: the undecoded blocks of a slot's band that a row reaches are shown clear in this turn and counted once. -/
def State.lateBlocks (s : State) (p : Nat) (t : TurnLayer) (y : Nat) : State :=
  (s.missingBands p t y).foldl (fun s b =>
    let miss := (List.range (ncolOf t.layer.place.w)).filter (fun c =>
      !s.syn.pool.any (fun q => q.layer == p && q.band == b && q.col == c) && !s.syn.late.contains (p, b, c) &&
      !(((s.blockSrc t b c).map (fun x => x.entry.derr)).getD false))
    (s.fadd F.DEC_LATE_COUNT miss.length).poolLate (miss.map (fun c => (p, b, c)))) s

/-- Whether a layer's data for a segment have not come: a band of an overlay that the segment reaches and the prefetch has not completed,
or a block of a Fallow layer within the segment's footprint that is not in the line pool (R19). -/
def State.lateFor (s : State) (p : Nat) (t : TurnLayer) (g y : Nat) : Bool :=
  match footprint s.tab.geom t.layer.place t.layer.overlay (s.capOf t.layer) g y with
  | none => false
  | some ((x0, x1), _) =>
    if t.layer.overlay then !(s.missingBands p t y).isEmpty
    else (s.missingBands p t y).any (fun b => (List.range (x1 / 512 + 1 - x0 / 512)).any (fun i =>
      !s.syn.pool.any (fun q => q.layer == p && q.band == b && q.col == x0 / 512 + i)))

/-- The layers that are late for a segment, each with whether it is an overlay (R19); slot blocks fall under R308. -/
def State.lateLayers (s : State) (g y : Nat) : List (Nat × Bool) :=
  (s.lyr.layerSet.zipIdx).filterMap (fun (t, p) =>
    let fallow := match t.src with
      | .fallow _ => true
      | _ => false
    if (t.layer.overlay || fallow) && s.lateFor p t g y then some (p, t.layer.overlay) else none)

/-- The sample of a layer at an emitter (R79 to R81). -/
def State.sampleAt (s : State) (p : Nat) (l : LayerRec) (x y : Nat) : Sample :=
  let (ax, ay) := layerCoord s.tab.geom l.place x y
  let rows := (vertTaps s.tab.geom l.place l.overlay (s.capOf l) y).map (tapIndex l.place.h l.place.clampY)
  let cols := if l.overlay then overlayTaps l.place.w l.place.clampX ax.base else planeTaps l.place.w l.place.clampX ax.base
  let lut := lutPre s.lutPage (if l.overlay then 64 + l.index else l.index)
  let taps := rows.map (fun r => cols.map (fun c =>
    match r, c with
    | some r, some c => prepTap lut (s.layerPx p l.overlay r c)
    | _, _ => LinTap.zero))
  if l.overlay then overlaySample ax.phase ay.phase taps else planeSample s.coefPage l.filt ax.phase ay.phase taps

/-- One ray over a list of layers (R82). -/
def State.rayAt (s : State) (seg : List (Nat × LayerRec)) (x y : Nat) : RayAcc :=
  seg.foldl (fun acc e => if acc.done then acc else acc.step s.tab.tMin (s.sampleAt e.1 e.2 x y)) RayAcc.init

/-- The fade of R121 on one ray. -/
def State.fadeRay (s : State) (x : Rgb) : Rgb :=
  let f := fun v => if s.lyr.fade = 2 ^ 18 then v else (v * s.lyr.fade + 2 ^ 17) / 2 ^ 18
  ⟨f x.r, f x.g, f x.b⟩

/-- The pass limit in HOT (R414). -/
def State.hotCap (s : State) : Option Nat :=
  if 3 ≤ s.fget F.CAL_THERM_STAT_LEVEL then some (max 1 (s.fget F.CAL_THERM_CFG_CAP)) else none

/-- Passes that a segment may run before its due time, at least 1 (R21, R22, R77, R78): start in 1/(10·N) ns from T_0. -/
def State.passLimit (s : State) (start : Int) (row : Nat) : Nat :=
  let t := s.tab.timing
  let due : Int := ((row * t.rowUnits : Nat) : Int) - ((475 * t.n : Nat) : Int)
  let fit := ((due - start) / ((3000 * t.n : Nat) : Int)).toNat
  let k := max 1 fit
  match s.hotCap with
  | none => k
  | some c => min k c

/-- What synthesis makes of a segment: its 480 colours, the passes it ran, its P_row, and whether it was ended early. -/
structure SegSynth where
  rays : List Rgb
  passes : Nat
  prow : Nat
  capped : Bool

/-- Synthesis of a row segment (R75, R76, R83). -/
def State.synthSegment (s : State) (seg : List (Nat × LayerRec)) (g y limit : Nat) : SegSynth :=
  let cut := seg.take (8 * limit)
  let accs := (List.range 480).map (fun i => s.rayAt cut (480 * g + i) y)
  let prow := (accs.map (fun a => a.n)).foldl max 0
  { rays := accs.map (fun a => a.finish s.tab.bg), passes := ceilDiv prow 8, prow := prow
    capped := decide (cut.length < seg.length) && accs.any (fun a => !a.done) }

/-! Calibration, encoding and the ledger. -/

/-- Count a segment under the map-error event (R154). -/
def State.mapError (s : State) (f : Fld) : State := (s.fadd f 1).raise 3

/-- The calibration that EMC applies to a segment, with its faults (R147 to R154, R19). -/
def State.calSegment (s : State) (g y : Nat) (d : RowData) : CalSeg × State :=
  let n := s.tab.mapGen
  let row0 := s.fget (F.EMC_MAP_CFG_ROW0 n)
  if !s.flag (F.EMC_MAP_CFG_VALID n) then (.neutral, s)
  else if y < row0 ∨ row0 + s.fget (F.EMC_MAP_CFG_ROWS n) ≤ y then (.neutral, s.fadd F.EMC_MAP_ERR_RANGE 1)
  else if d.mapLate || s.hbmTrains then (.neutral, s.fadd F.CHIP_RT_LATE_CALMAP 1)
  else
    let ho := s.flag (F.EMC_MAP_CFG_FORMAT n)
    let size := if ho then 32 else 896
    let a := 64 * s.fget (F.EMC_MAP_BASE_BASE n) + size * ((y - row0) * s.tab.geom.ng + g)
    let (err, s1) := s.clientRead .calmap a size d.mapEcc
    if err then (.neutral, s1.mapError F.EMC_MAP_ERR_ECC)
    else
      let b := s1.hbmRead a size
      if segTagOk b y g then (.record ho b, s1) else (.neutral, s1.mapError F.EMC_MAP_ERR_TAGERR)

/-- The three codes of an emitter (R156, R157). -/
def State.codesAt (s : State) (x y : Nat) (v : Rgb) : Nat × Nat × Nat :=
  let e := fun c v => encodeChan s.tab.fs (ditherOf s.tab.dither (s.lyr.turn % 4) x y c) v
  (e 0 v.r, e 1 v.g, e 2 v.b)

/-- Address of a ledger entry (R166). -/
def State.ledgerAddr (s : State) (x y : Nat) : Nat :=
  s.fget F.DRV_LEDGER_CFG_BASE * 2 ^ 30 + (y + s.fget F.DRV_LEDGER_CFG_ROW0) * 61440 + x

/-- The ledger entries of a segment as DRV reads them, with the faults (R169, R19): the entries, whether the segment's entries
stay as they are, and the state. -/
def State.ledgerRead (s : State) (g y : Nat) (d : RowData) : List Int × Bool × State :=
  let a := s.ledgerAddr (480 * g) y
  let zeros := List.replicate 480 (0 : Int)
  if d.ledgerLate || s.hbmTrains then (zeros, true, s.fadd F.CHIP_RT_LATE_LEDGER 1)
  else
    let (err, s1) := s.clientRead .ledgerRd a 480 d.ledgerEcc
    if err then (zeros, false, s1.fadd F.DRV_LEDGER_ERR_ECC 1)
    else ((s1.hbmRead a 480).map (fun b => sInt 8 b.toNat), false, s1)

/-- Whether this device's rail sequencer is in RUN. -/
def State.seqRun (s : State) : Bool := s.fget F.PWD_SEQ_STAT_STATE == 2

/-- Whether DRV sends ray words of the content: it runs, the sequencer is in RUN, and a twin partner has its pair (R171, R195, R301). -/
def State.driving (s : State) : Bool := s.tab.drvRun && s.seqRun && !s.cas.pairLost

/-- Note the saturated columns of a segment; a row that is whole is captured where the capture is armed (R172). -/
def State.noteSat (s : State) (y : Nat) (cols : List Nat) : State :=
  let old := ((s.drv.rowSat.find? (fun e => e.1 == y)).map (·.2)).getD (0, none)
  let least := leastOf (cols ++ old.2.toList)
  let n := old.1 + 1
  let rest := s.drv.rowSat.filter (fun e => e.1 != y)
  if n < s.tab.geom.ng then { s with drv := { s.drv with rowSat := rest ++ [(y, n, least)] } }
  else
    let s1 := { s with drv := { s.drv with rowSat := rest } }
    match least with
    | some x => s1.capture F.DRV_LEDGER_SAT_FIRST_VALID y
        [(R.DRV_LEDGER_SAT_FIRST, BitVec.ofNat 32 (2 ^ 31 + 2 ^ 16 * y + x))]
    | none => s1

/-- DRV on a segment: recovery steps, ray words and the ledger's update (R159, R167 to R172). A segment that DRV does not encode saturates
nothing, and its row is judged whole all the same. In a quiet turn the codes are 0 and K
follows the ledger as in any turn (R163, R167); R192's "ray words of 0" is read as the codes (DESIGN CHOICE, log entry 28). -/
def State.driveSegment (s : State) (g y : Nat) (d : RowData) (codes : List (Nat × Nat × Nat)) : List W32 × State :=
  if !s.driving then (List.replicate 480 0, s.noteSat y [])
  else
    let (ls, keep, s1) := s.ledgerRead g y d
    let z := s1.tab.zones.getD g ⟨0, 0, 0⟩
    let res := (codes.zip ls).map (fun (c, l) => (c, ledgerRaw s1.tab.stress z c.1 c.2.1 c.2.2 l))
    let words := res.map (fun e => rayWord e.2.1 e.1.1 e.1.2.1 e.1.2.2)
    if keep then (words, s1.noteSat y [])
    else
      let s2 := s1.clientWrite .ledgerWr (s1.ledgerAddr (480 * g) y)
        (res.map (fun e => BitVec.ofNat 8 (uInt 8 (clampInt e.2.2 (-128) 127))))
      let hi := (res.filter (fun e => decide ((127 : Int) < e.2.2))).length
      let lo := (res.filter (fun e => decide (e.2.2 < (-128 : Int)))).length
      let cols := ((res.zipIdx).filter (fun e => decide ((127 : Int) < e.1.2.2) || decide (e.1.2.2 < (-128 : Int)))).map (fun e => 480 * g + e.2)
      (words, ({ s2 with drv := { s2.drv with satHi := s2.drv.satHi + hi, satLo := s2.drv.satLo + lo } }).noteSat y cols)

/-- Whether a job takes the segments of a turn. -/
def Job.captures (j : Job) (turn : Nat) : Bool := j.capTurn == some turn && !j.capLost

/-- A capture job that takes this turn is given the segment, unless the engine falls behind, which is a free choice for each ring: then it
skips what remains (R365; DESIGN CHOICE, log entry 65). -/
def State.captureSeg (s : State) (seg : RowSeg) : State :=
  if s.jobs.rings.any (fun r => (r.running.map (fun j => j.captures s.lyr.turn)).getD false) then
    let (v, s1) := s.fresh
    { s1 with jobs := { s.jobs with rings := s.jobs.rings.zipIdx.map (fun r => { r.1 with running := r.1.running.map (fun j =>
        if !j.captures s.lyr.turn then j
        else if bitOf v r.2 then { j with capLost := true }
        else { j with capSegs := j.capSegs ++ [seg] }) }) } }
  else s

/-- The segment's colours from synthesis to the three codes (R134); in a quiet turn, and where DRV sends ray words of 0, they are black and
EMC reads nothing (R153, R163, R171, R195, R301). -/
def State.encodeSegment (s : State) (g y : Nat) (d : RowData) (rays : List Rgb) : List (Nat × Nat × Nat) × State :=
  if s.lyr.quiet || !s.driving then (List.replicate 480 (0, 0, 0), s)
  else
    let (cal, s1) := s.calSegment g y d
    let z := s1.tab.zones.getD g ⟨0, 0, 0⟩
    ((rays.zipIdx).map (fun (c, i) => s1.codesAt (480 * g + i) y (emcRay cal i (colourRay s1.lutPage z (s1.fadeRay c)))), s1)

/-- The next row segment of a cluster (R69 to R95): synthesis, colour, encoding and the ledger; its ray words go to the row
streamer. -/
def State.segmentRun (s : State) (g : Nat) (d : RowData) : State :=
  let cl := s.syn.clusters.getD g ⟨0, 0⟩
  let y := cl.next
  let t := s.tab.timing
  let lead := ((y : Int) - (s.tab.lead : Int)) * ((t.rowUnits : Nat) : Int)
  let start := if y = 0 then lead else max cl.busy lead
  let live := s.tab.synRun
  let s1 := if live then (s.lyr.layerSet.zipIdx).foldl (fun s e =>
      match e.1.src with
      | .slot _ => if e.1.layer.overlay then s else s.lateBlocks e.2 e.1 y
      | _ => s) s else s
  let late := if live then s1.lateLayers g y else []
  let s2 := if late.any (fun e => e.2) then s1.fadd F.CHIP_RT_LATE_OVERLAY 1 else s1
  let s3 := if late.any (fun e => !e.2) then s2.fadd F.CHIP_RT_LATE_FALLOW 1 else s2
  let seg := if live then (s3.lyr.layerSet.zipIdx).filterMap (fun (l, p) =>
      if !(late.any (fun e => e.1 == p)) && s3.inSegment g y p l.layer then some (p, l.layer) else none) else []
  let r := s3.synthSegment seg g y (s3.passLimit start y)
  let s4 := if r.capped then s3.fadd F.CHIP_PASS_CAP_COUNT 1 else s3
  let s5 := if (seg.take r.prow).any (fun e => tapsClamped s4.tab.geom e.2.place e.2.overlay (s4.capOf e.2) y) then
      s4.fadd F.SYN_CLAMP_COUNT_COUNT 1 else s4
  let busy := start + ((r.passes * 3000 * t.n : Nat) : Int)
  let s6 := { s5 with syn := { s5.syn with
    clusters := setNth s5.syn.clusters g ⟨y + 1, busy⟩
    hist := if live then modNth s5.syn.hist (min 9 r.passes) (· + 1) else s5.syn.hist
    peff := if live then max s5.syn.peff r.prow else s5.syn.peff } }
  let (codes, s7) := s6.encodeSegment g y d r.rays
  let (words, s8) := s7.driveSegment g y d codes
  let out : RowSeg := ⟨y, g, words⟩
  ({ s8 with syn := { s8.syn with fifo := s8.syn.fifo ++ [out] } }).captureSeg out

/-- SYNTH_ROW_START: cluster `g` runs its next row of the turn; clusters from NG on are gated. No cluster waits
for another nor for ingest, and each row goes on in order (R13, R16, R26, R69, R77). -/
def synthRowStart (g : Fin 128) (d : RowData) (s : State) : State :=
  if s.tim.run && decide (g.val < s.tab.geom.ng) && decide ((s.syn.clusters.getD g ⟨0, 0⟩).next < s.tab.geom.hp) then
    s.segmentRun g d
  else s

/-! The geometry probe (R37). -/

/-- The result words of a probe of one emitter and layer of the showing turn. -/
def State.probeResult (s : State) (layer : Nat) : Nat × Nat :=
  let x := s.fget F.SYN_GEOM_PROBE_EMIT_X
  let y := s.fget F.SYN_GEOM_PROBE_EMIT_Y
  let g := s.tab.geom
  let range := decide (480 * g.ng ≤ x) || decide (g.hp ≤ y)
  let idx := if layer < 64 then layer else layer - 64
  match s.lyr.layerSet.find? (fun t => t.layer.overlay == decide (64 ≤ layer) && t.layer.index == idx && decide (layer < 72)) with
  | none => let z : AxisCoord := ⟨0, 0, 0, false⟩; (probeWord range true z false, probeWord range true z false)
  | some t =>
    let p := t.layer.place
    let (ax, ay) := layerCoord g p x y
    let taps := fun n cl b => if t.layer.overlay then overlayTaps n cl b else planeTaps n cl b
    let out := fun n cl (a : AxisCoord) => (taps n cl a.base).all (fun k => k.isNone)
    (probeWord range false ax (out p.w p.clampX ax), probeWord range false ay (out p.h p.clampY ay))

/-- GEOM_PROBE_GO: a write of GO; ignored while a probe runs. -/
def geomProbeGo (layer : BitVec 7) (s : State) : State :=
  let s1 := s.fset F.SYN_GEOM_PROBE_CTL_LAYER layer.toNat
  if s1.flag F.SYN_GEOM_PROBE_CTL_DONE then
    { (s1.fput F.SYN_GEOM_PROBE_CTL_DONE false) with probe := some (s1.probeResult layer.toNat) }
  else s1

/-- GEOM_PROBE_DONE; until then the result registers keep the probe before's (DESIGN CHOICE, log entry 26). With the core's clocks
stopped nothing ends (R391). -/
def geomProbeDone (s : State) : State :=
  match s.probe with
  | none => s
  | some (x, y) =>
    if !s.coreRuns then s
    else { (((s.rset R.SYN_GEOM_PROBE_X (BitVec.ofNat 32 x)).rset R.SYN_GEOM_PROBE_Y (BitVec.ofNat 32 y)).fput
      F.SYN_GEOM_PROBE_CTL_DONE true) with probe := none }

/-- SYNTH_ROW_START. -/
def execSynthRowStart (g : Fin 128) (d : RowData) (s : State) : Host.Outcome State Fault Refusal := .next (synthRowStart g d s)
/-- DECODE_ASSIGN. -/
def execDecodeAssign (ring : EccResult) (s : State) : Host.Outcome State Fault Refusal := .next (decodeAssign ring s)
/-- BLOCK_DECODE_DONE. -/
def execBlockDecodeDone (d : Fin 32) (ecc : EccResult) (s : State) : Host.Outcome State Fault Refusal :=
  .next (blockDecodeDone d ecc s)
/-- OVERLAY_PREFETCH_DONE. -/
def execOverlayPrefetchDone (i : Fin 8) (band : BitVec 8) (ecc : EccResult) (s : State) : Host.Outcome State Fault Refusal :=
  .next (overlayPrefetchDone i band ecc s)
/-- GEOM_PROBE_GO. -/
def execGeomProbeGo (layer : BitVec 7) (s : State) : Host.Outcome State Fault Refusal :=
  .next (s.onReg R.SYN_GEOM_PROBE_CTL (geomProbeGo layer))
/-- GEOM_PROBE_DONE. -/
def execGeomProbeDone (s : State) : Host.Outcome State Fault Refusal := .next (geomProbeDone s)

end Sys2Proof.Machine
end

