-- ==== Sys2Proof/Machine/Fallow.lean ====
section
/-! DEFINITION. Fallow jobs (05_layers_commits_flips.md R125 to R129): start, copy and flatten; and the commands of the
Fallow cache. -/

namespace Sys2Proof.Machine

/-- One member pixel composited over what is accumulated (R126). -/
def flattenPx (acc m : Px) : Px :=
  let ao := m.a + (acc.a * (1023 - m.a) + 511) / 1023
  let ch := fun (c cf : Nat) =>
    if ao = 0 then 0 else (cf * m.a * 1023 + c * acc.a * (1023 - m.a) + ao * 1023 / 2) / (ao * 1023)
  { r := ch acc.r m.r, g := ch acc.g m.g, b := ch acc.b m.b, a := ao }

/-- Rows of pixels composited, pixel by pixel. -/
def flattenRows (acc m : List (List Px)) : List (List Px) :=
  (acc.zip m).map (fun e => (e.1.zip e.2).map (fun q => flattenPx q.1 q.2))

/-- The pixels of a block of a slot for a flatten; a block in error is clear (R65). -/
def State.blockRows (s : State) (slot ring col : Nat) : List (List Px) :=
  match (s.slot slot).entryAt ring col with
  | none => clearBlock
  | some e =>
    if e.zero || e.derr then clearBlock
    else match decodeBlock s.codeTabs e.bytes with
      | .ok rows => rows
      | _ => clearBlock

/-- The flattened block of a position: the members in increasing INDEX (R126). -/
def State.flattenBlock (s : State) (slot : Nat) (ms : List LayerRec) (band col : Nat) : List (List Px) :=
  ms.foldl (fun acc l => flattenRows acc (s.blockRows slot (l.index * 256 + band) col)) clearBlock

/-! What a job's reads come to (R64, R65, R309). -/

/-- A job reads a block of a member: a block that the read loses, or in a flatten one that does not decode, is in error; one with DERR is
not judged again. What the read reports is a free value (log entry 10). -/
def State.jobBlock (s : State) (slot : Nat) (decodes : Bool) (l : LayerRec) (band col : Nat) : State :=
  match (s.slot slot).entryAt (l.index * 256 + band) col with
  | none => s
  | some e =>
    if e.derr then s
    else
      let (r, s0) := s.freshEcc
      let (lost, s1) := s0.swardRead r
      let t : TurnLayer := ⟨l, .slot slot⟩
      if lost then s1.blockError t band col 3 e.hdr.tag true 32
      else if !decodes || e.zero then s1
      else match decodeBlock s1.codeTabs e.bytes with
        | .ok _ => s1
        | k => s1.blockError t band col k.kind e.hdr.tag true 32

/-- A job reads every block of its members. -/
def State.jobReads (s : State) (j : FallowJob) (decodes : Bool) : State :=
  j.members.foldl (fun s l => forBelow (nbandOf l.place.h) (fun b s => forBelow (ncolOf l.place.w) (fun c s =>
    s.jobBlock j.slot decodes l b c) s) s) s

/-! The new generation (R324). -/

/-- The lowest free granules: none of an entry's generations holds them. Which free ones the device takes is open (DESIGN CHOICE, log
entry 26). -/
def State.freeGranules (s : State) (n : Nat) : List Nat :=
  let used := s.lyr.entries.flatMap FallowEntry.tables
  ((List.range (min s.granulesTotal (n + used.length))).filter (fun g => !used.contains g)).take n

/-- Entries with their addresses within a generation, one block after the other from 16-byte unit `u`. -/
def packEntries : (u : Nat) → List (Nat × Nat × DirEntry) → List (Nat × Nat × DirEntry)
  | _, [] => []
  | u, (b, c, e) :: l =>
    if e.zero then (b, c, { e with addr := 0 }) :: packEntries u l
    else (b, c, { e with addr := u }) :: packEntries (u + unitsOf e.bytes.length) l

/-- A generation of a layer in a job's granules: one directory entry a position, and then the blocks. -/
def State.newGen (s : State) (j : FallowJob) (l : LayerRec) (es : List (Nat × Nat × DirEntry))
    (flat : List (Nat × Nat × List (List Px))) : FallowGen :=
  { layer := l, blocks := packEntries (planeBlocks l.place) es, flat := flat, table := s.freeGranules j.granules }

/-- Write bytes to pieces of memory as a client. -/
def State.writePieces (s : State) (c : Client) : List (Nat × Nat) → List Byte → State
  | [], _ => s
  | q :: ps, bs => (s.clientWrite c q.1 (bs.take q.2)).writePieces c ps (bs.drop q.2)

/-- The blocks of a generation are written to HBM. -/
def State.storeGen (s : State) (g : FallowGen) : State :=
  g.blocks.foldl (fun s e => if e.2.2.zero then s else s.writePieces .fallowJob (s.genBlock g.table e.2.2) e.2.2.bytes) s

/-- The directory entry of a flattened block as the device codes it, in the format of R40 (R324). Of its coding the device chooses whether
its tables are dynamic (byte 0), the static ones (bytes 1 and 2) and the body, within the limits of R41; it has no TAG, and 0 stands
there (DESIGN CHOICE, log entry 26). -/
def flatEntry (l : LayerRec) (band col : Nat) (rows : List (List Px)) : DirEntry :=
  let code := Config.flattenCode (rows.map (fun r => r.map (fun x => (x.r, x.g, x.b, x.a))))
  let dync := bitOf (byteAt code 0) 0
  let dyna := bitOf (byteAt code 0) 1
  let body := padTo (max 8 (min 106480 (code.length - 3))) (code.drop 3)
  let h : BlockHdr :=
    { plane := l.index, band := band, zero := false, dyna := dyna, dync := dync, col := col
      ctab := if dync then 0 else byteAt code 1 % 32
      atab := if dyna then 0 else byteAt code 2 % 32
      len := 16 + body.length, tag := 0 }
  { zero := false, derr := false, addr := 0, port := 0, bytes := writeBlockHdr h ++ body, hdr := h }

/-- The running Fallow job. -/
def State.runningJob (s : State) : Option FallowJob := s.lyr.jobs.find? (fun j => j.started && !j.ended)

/-- The job that may start next: none while one runs; the first in the order accepted, once no other commit's generation of
its entry is under construction or waits to land (R125, R127). -/
def State.nextJob (s : State) : Option FallowJob :=
  if s.runningJob.isSome then none
  else match s.lyr.jobs.find? (fun j => !j.started) with
    | none => none
    | some j => if s.lyr.jobs.any (fun k => k.started && k.fid == j.fid && k.commit != j.commit) then none else some j

/-- Change one job. -/
def State.modJob (s : State) (j : FallowJob) (f : FallowJob → FallowJob) : State :=
  s.modLyr (fun l => { l with jobs := l.jobs.map (fun k => if k = j then f k else k) })

/-- A job ends with a generation for its entry (R125). -/
def State.endJob (s : State) (j : FallowJob) (g : FallowGen) : State :=
  (s.modJob j (fun k => { k with ended := true })).modLyr (fun l => { l with
    entries := l.entries.map (fun e => if e.fid = j.fid then { e with new := some g, newFor := j.commit } else e) })

/-- FALLOW_JOB_START (R125, R127). -/
def fallowJobStart (s : State) : State :=
  match s.nextJob with
  | none => s
  | some j => (s.modJob j (fun k => { k with started := true })).modLyr (fun l => { l with
      commits := l.commits.map (fun c => if c.key = j.commit then { c with begun := true } else c) })

/-- FALLOW_COPY_DONE: the blocks are kept as they are (R124, R125). -/
def fallowCopyDone (s : State) : State :=
  match s.runningJob with
  | none => s
  | some j =>
    match j.members with
    | [l] =>
      let s1 := s.jobReads j false
      let g := s1.newGen j l ((s1.slot j.slot).planeEntries l) []
      (s1.storeGen g).endJob j g
    | _ => s

/-- FALLOW_FLATTEN_DONE: the members are composited once into one plane that takes the INDEX, placement, FILT and LUT of the
highest (R126). -/
def fallowFlattenDone (s : State) : State :=
  match s.runningJob with
  | none => s
  | some j =>
    match j.members.getLast? with
    | none => s
    | some top =>
      if j.members.length < 2 then s
      else
        let s1 := s.jobReads j true
        let flat := (List.range (nbandOf top.place.h)).flatMap (fun b => (List.range (ncolOf top.place.w)).map (fun c =>
          (b, c, s1.flattenBlock j.slot j.members b c)))
        let g := s1.newGen j top (flat.map (fun e => (e.1, e.2.1, flatEntry top e.1 e.2.1 e.2.2))) flat
        (s1.storeGen g).endJob j g

/-- FALLOW_DROP: the entry is to be evicted at the next latch row if then unreferenced; 0 has no effect (R129). -/
def fallowDrop (fid : W32) (s : State) : State :=
  if fid = 0 then s else s.modLyr (fun l => { l with drops := l.drops ++ [fid.toNat] })

/-- FALLOW_JOB_START. -/
def execFallowJobStart (s : State) : Host.Outcome State Fault Refusal := .next (fallowJobStart s)
/-- FALLOW_COPY_DONE. -/
def execFallowCopyDone (s : State) : Host.Outcome State Fault Refusal := .next (fallowCopyDone s)
/-- FALLOW_FLATTEN_DONE. -/
def execFallowFlattenDone (s : State) : Host.Outcome State Fault Refusal := .next (fallowFlattenDone s)
/-- FALLOW_DROP. -/
def execFallowDrop (fid : W32) (s : State) : Host.Outcome State Fault Refusal :=
  .next (s.onReg R.LYR_FALLOW_DROP (fallowDrop fid))

end Sys2Proof.Machine
end

