-- ==== Sys2Proof/Machine/Pips.lean ====
section
/-! DEFINITION. Panel-link line coding (08_panel_link.md R187 to R195, R197, R200): pips, scrambling, stuffing, rows, gap fill,
the wake burst, training sequences and back-channel frames. A list's first bit is the first bit sent. -/

namespace Sys2Proof.Machine

/-- One advance of the scrambler of R188: its output bit and its next contents. -/
def scrStep (r : Nat) : Bool × Nat :=
  let o := bitOf r 22 != bitOf r 17
  (o, (2 * r + b2n o) % 2 ^ 23)

/-- The scrambler's seed for a row (R188). -/
def scrSeed (lane q : Nat) : Nat := lane * 2 ^ 18 + (q % 2 ^ 15) * 8 + 5

/-- Bits scrambled from a register, and the register after them. -/
def scramble : Nat → List Bool → List Bool × Nat
  | r, [] => ([], r)
  | r, b :: bs =>
    let (o, r1) := scrStep r
    let (rest, r2) := scramble r1 bs
    ((b != o) :: rest, r2)

/-- TYPE, INDEX and ROWCHK of a pip (R187). -/
def pipHead (ty index q : Nat) : List Bool := bitsMsb 2 ty ++ bitsMsb 6 index ++ bitsMsb 2 (q % 4)

/-- The payload of a pip: 15 words, each most significant bit first (R187). -/
def pipPayload (ws : List W32) : List Bool :=
  (List.range 15).flatMap (fun j => bitsMsb 32 (ws.getD j 0).toNat)

/-- The CRC of R190, 16 bits, most significant first. -/
def pipCrc (bits : List Bool) : List Bool := bitsMsb 16 (crcMsb 16 0x8BB7 0 bits)

/-- Stuffing of R189 over the bits after PRE, from the last line bit and the run it ends. -/
def stuff : Bool → Nat → List Bool → List Bool
  | _, _, [] => []
  | prev, run, b :: bs =>
    let run := if b == prev then run + 1 else 1
    if run = 24 ∧ bs ≠ [] then b :: (!b) :: stuff (!b) 1 bs else b :: stuff b run bs

/-- PRE: six alternating bits after the line bit `prev` (R187). -/
def pipPre (prev : Bool) : List Bool := [!prev, prev, !prev, prev, !prev, prev]

/-- A pip on the line: PRE and the stuffed body (R187, R189). -/
def pipLine (prev : Bool) (body : List Bool) : List Bool := pipPre prev ++ stuff prev 1 body

/-- The last bit of a line string, or what stood before it. -/
def lastBit (prev : Bool) (bits : List Bool) : Bool := bits.getLast?.getD prev

/-- The body of a row-header pip (R188: not scrambled). -/
def headerBody (q : Nat) (ws : List W32) : List Bool :=
  let b := pipHead 2 0 q ++ pipPayload ws
  b ++ pipCrc b

/-- The body of data pip `n`, scrambled under R188, and the scrambler after it. -/
def dataBody (q n r : Nat) (ws : List W32) : List Bool × Nat :=
  let h := pipHead 1 n q
  let p := pipPayload ws
  let (sc, r1) := scramble r (p ++ pipCrc (h ++ p))
  (h ++ sc, r1)

/-- Words 15·(n − 1) to 15·n − 1 of a row's words. -/
def pipWords (words : List W32) (n : Nat) : List W32 := (words.drop (15 * (n - 1))).take 15

/-- Data pips `n` to `n + k − 1` on the line. -/
def dataPips (q : Nat) (words : List W32) : Nat → Nat → Nat → Bool → List Bool
  | 0, _, _, _ => []
  | k + 1, n, r, prev =>
    let (body, r1) := dataBody q n r (pipWords words n)
    let line := pipLine prev body
    line ++ dataPips q words k (n + 1) r1 (lastBit prev line)

/-- A row on a lane (R192): the row-header pip and data pips 1 to 32. -/
def rowLine (q lane : Nat) (header words : List W32) (prev : Bool) : List Bool :=
  let h := pipLine prev (headerBody q header)
  h ++ dataPips q words 32 1 (scrSeed lane q) (lastBit prev h)

/-- Gap fill of `n` UI after the line bit `prev` (R192). -/
def gapFill (prev : Bool) (n : Nat) : List Bool := (List.range n).map (fun i => if i % 4 < 2 then !prev else prev)

/-- A row and the gap fill to the end of its slot of `ui` UI (R192). -/
def rowSlot (q lane : Nat) (header words : List W32) (prev : Bool) (ui : Nat) : List Bool :=
  let r := rowLine q lane header words prev
  r ++ gapFill (lastBit prev r) (ui - r.length)

/-- The words of a row header (R193). -/
def headerWords (q group : Nat) (vacant : Bool) (port lane turn npwm emit recover : Nat) : List W32 :=
  [BitVec.ofNat 32 ((q % 2 ^ 15) * 2 ^ 17 + (if vacant then 0 else group % 128) * 2 ^ 10 + b2n vacant * 2 ^ 9 + port * 2 ^ 5 + lane),
   BitVec.ofNat 32 ((turn % 2 ^ 16) * 2 ^ 16 + npwm * 2 ^ 14),
   BitVec.ofNat 32 (emit * 2 ^ 17 + recover * 4)] ++ List.replicate 12 0xAAAAAAAA#32

/-- The wake burst (R195): 512 alternating bits that begin with 1. -/
def wakeLine : List Bool := (List.range 512).map (fun i => i % 2 == 0)

/-- `n` bits of TS-A (R200). -/
def tsaLine (n : Nat) : List Bool := (scramble 0x7FFFFF (List.replicate n false)).1

/-- A byte followed by its complement, as TS-B sends it. -/
def tsbByte (v : Nat) : List Bool := bitsMsb 8 v ++ (bitsMsb 8 v).map (fun b => !b)

/-- A block of TS-B (R200). -/
def tsbBlock (lane port : Nat) (rowStart remap : Bool) (seq : Nat) : List Bool :=
  bitsMsb 64 0x0F5AF0A53C96C369 ++ tsbByte lane ++ tsbByte port ++ tsbByte (b2n rowStart * 128 + b2n remap * 64) ++
  tsbByte (seq % 256) ++ (List.range 8).flatMap (fun _ => bitsMsb 16 0xCCCC)

/-- A training row of TS-B: 80 blocks from block number `seq` on, the first with ROWSTART = 1 (R200). -/
def tsbRow (lane port : Nat) (remap : Bool) (seq : Nat) : List Bool :=
  (List.range 80).flatMap (fun k => tsbBlock lane port (k == 0) remap (seq + k))

/-- A driver's frame (R197). -/
structure BcFrame where
  drv : Nat
  lk0 : Bool
  lk1 : Bool
  sel : Bool
  lane0 : Nat
  lane1 : Nat
  phase : Nat
  crcErr : Nat
  temp : Nat
  deriving DecidableEq, Repr

/-- Read a frame: its SYNC and its CRC8 must hold (R197, R198). -/
def readFrame (bits : List Bool) : Option BcFrame :=
  let c := (bits.drop 12).take 36
  let v := natOfMsb c
  if bits.length = 56 ∧ natOfMsb ((bits.drop 8).take 4) = 0xC ∧ natOfMsb (bits.drop 48) = crcMsb 8 0x07 0 c then
    some { drv := bitsOf v 35 32, lk0 := bitOf v 31, lk1 := bitOf v 30, sel := bitOf v 29, lane0 := bitsOf v 28 24,
           lane1 := bitsOf v 23 19, phase := bitsOf v 18 16, crcErr := bitsOf v 15 10, temp := bitsOf v 9 0 }
  else none

end Sys2Proof.Machine
end

