-- ==== Sys2Proof/Machine/Trim.lean ====
section
/-! DEFINITION. Trim sets and their appliers (15_clocks_resets_power.md R418, R419). -/

namespace Sys2Proof.Machine

/-- The set index and weight of a temperature among the set points T_k = −20 + 20·k °C (R418, by the arithmetic of R143). -/
def trimPoint (t : Int) : Nat × Nat :=
  if t < -320 then (0, 0)
  else if 1920 ≤ t then (6, 256)
  else
    let s := ((t + 320) / 320).toNat
    (s, (((t - (320 * (s : Int) - 320)) * 256) / 320).toNat)

/-- The target of a setting whose trim set is `v`, at a temperature (R418). -/
def trimTarget (v : List Nat) (t : Int) : Nat :=
  let (s, w) := trimPoint t
  (lerp8 ((v.getD s 0 : Nat) : Int) ((v.getD (s + 1) 0 : Nat) : Int) w).toNat

/-- The set point nearest a temperature, the lower on a tie (R418). -/
def trimNearest (t : Int) : Nat :=
  ((List.range 8).foldl (fun b k =>
    if (t - (320 * ((k : Nat) : Int) - 320)).natAbs < (t - (320 * ((b : Nat) : Int) - 320)).natAbs then k else b) 0)

/-- One code toward a target. -/
def stepTo (c t : Nat) : Nat := if c < t then c + 1 else if t < c then c - 1 else c

/-- One step of a transmitter: PRE moves before POST (R419). -/
def TxEq.step (x : TxEq) : TxEq :=
  if x.code.pre ≠ x.target.pre then { x with code := { x.code with pre := stepTo x.code.pre x.target.pre } }
  else { x with code := { x.code with post := stepTo x.code.post x.target.post } }

/-- A transmitter takes its targets at once (R419). -/
def TxEq.jump (x : TxEq) : TxEq := { x with code := x.target }

/-- Change the transmitters numbered `a` to `a + n - 1`. -/
def State.modTx (s : State) (a n : Nat) (f : TxEq → TxEq) : State :=
  s.modCal (fun c => { c with txeq := (List.range n).foldl (fun l i => modNth l (a + i) f) c.txeq })

end Sys2Proof.Machine
end

