-- ==== Sys2Proof/Machine/Rails.lean ====
section
/-! DEFINITION. Rails, the sequencer and its faults (07_panel_drive_and_ledger.md R174 to R181), pairs (11_cascade.md R300,
R301), and what the first RUN brings (14_boot_image_identity.md R379, R387). -/

namespace Sys2Proof.Machine

/-- Change PWD. -/
def State.modPwd (s : State) (f : Pwd → Pwd) : State := { s with pwd := f s.pwd }

/-! Pairs. -/

/-- Whether this device is a twin's partner, whose sequencer mirrors the lead's (R301). -/
def State.twinPartner (s : State) : Bool := s.fget F.CAS_PAIR_CFG_MODE == 1 && s.flag F.CAS_PAIR_CFG_ROLE

/-- Whether this device is one of a split pair. -/
def State.splitPair (s : State) : Bool := s.fget F.CAS_PAIR_CFG_MODE == 2

/-- The cascade port of a pair's link: the partner's upstream port, or the lead's downstream port. -/
def State.pairPort (s : State) : Nat := if s.flag F.CAS_PAIR_CFG_ROLE then 0 else s.fget F.CAS_PAIR_CFG_PORT + 1

/-- A partner tells its lead a sequencer state by a TURN cell of KIND 1 upward (DESIGN CHOICE, log entry 46: R301 gives no cell that
carries it). -/
def State.pairSend (s : State) (seqst : Nat) : State :=
  if s.flag F.CAS_PAIR_CFG_ROLE && s.casUp 0 then s.putCell 0 (s.ownCell .turn false 0 (s.turnWith 1 seqst)) else s

/-- A TURN cell of KIND 1 on each downstream port, and from a split pair's partner to its lead (R287, R301). -/
def State.tellSeq (s : State) : State :=
  let s1 := s.sendTurn 1
  if s1.splitPair then s1.pairSend s1.seqst else s1

/-- The sequencer changes state: PWD_SEQ_STAT, and the cells that tell of it (R287, R301). -/
def State.seqState (s : State) (st : Nat) : State := (s.fset F.PWD_SEQ_STAT_STATE st).tellSeq

/-- The STATE of the other device's sequencer (CAS_PAIR_STAT). -/
def State.peerState (s : State) : Nat := bitsOf (s.fget F.CAS_PAIR_STAT_PSEQ) 1 0

/-- Whether this half of a split pair waits for the other half at each step of R176; one without its link keeps its own timing
(R301). -/
def State.waitsForPeer (s : State) : Bool := s.splitPair && s.flag F.CAS_PAIR_STAT_LINKED

/-- Whether the other half of a split pair has come to the step that this half is about to take (R301). A half in RUN has, one in
OFF or DOWN has not, and of one in UP no cell says how far it has come: a free value. -/
def State.peerReady (s : State) : Bool × State :=
  if !s.waitsForPeer || s.peerState == 2 then (true, s)
  else if s.peerState = 1 then
    let (v, s1) := s.fresh
    (v % 2 == 1, s1)
  else (false, s)

/-! What the first RUN under a copy brings. -/

/-- Bits 0 and 1 of a fuse request: program root slot `n` (R387). -/
def State.fuseProgram (s : State) (im : Image) (n : Nat) : State :=
  match im.certs.find? (fun c => c.1 == 3 && c.2.1 == n) with
  | none => s.raise 23
  | some c =>
    let h := Config.sha384 c.2.2
    match s.fuses.root n with
    | some old => if old = h then s else s.raise 23
    | none => { s with fuses := s.fuses.setRoot n h }

/-- Bits 2 to 4: revoke slot `n` (R387). -/
def State.fuseRevoke (s : State) (im : Image) (n : Nat) : State :=
  let f := s.fuses
  if bitOf f.revoked n then s
  else if n = im.rootSlot ∨ f.programmed &&& (7 - (f.revoked ||| 2 ^ n) % 8) = 0 then s.raise 23
  else { s with fuses := { f with revoked := f.revoked + 2 ^ n } }

/-- The fuse request of the running image, bit by bit (R387). -/
def State.fuseRequest (s : State) (im : Image) : State :=
  let req := byteAt im.policy 48
  let s1 := [1, 2].foldl (fun s n => if bitOf req (n - 1) then s.fuseProgram im n else s) s
  let s2 := [0, 1, 2].foldl (fun s n => if bitOf req (n + 2) then s.fuseRevoke im n else s) s1
  if bitOf req 5 then { s2 with fuses := { s2.fuses with debugLock := true } } else s2

/-- On first reaching RUN under a copy: the rollback level and the fuse request (R379, R387), and the time taken. -/
def State.firstRun (s : State) : State :=
  match s.img with
  | none => s
  | some im =>
    if s.boot.burned then s
    else
      let s1 := if bitOf (byteAt im.policy 10) 3 then
          { s with fuses := s.fuses.burn im.rollback } else s
      let s2 := s1.fuseRequest im
      let ms := (s2.clock - s2.pwr.bootAt) / 65536 / 1000000
      { (s2.fset F.NVM_BOOT_MS_RAILS (min 0xFFFF ms)) with boot := { s2.boot with burned := true } }

/-! What the registers set (R174). -/

/-- Largest VSET code of rail `n`. -/
def railMax (n : Nat) : Nat := [80, 120, 80, 100].getD n 0

/-- Rated load of rail `n`, in mA. -/
def railRated (n : Nat) : Nat := [100, 100, 300, 600].getD n 0

/-- The set-point code of rail `n`; one above the largest acts as the largest. -/
def State.railCode (s : State) (n : Nat) : Nat := min (s.fget (F.PWD_RAIL_CFG_VSET n)) (railMax n)

/-- Magnitude of rail `n`'s set point, in mV. -/
def State.railMag (s : State) (n : Nat) : Nat :=
  [4000, 12000, 2000, 4000].getD n 0 + [100, 100, 50, 50].getD n 0 * s.railCode n

/-- Set point of rail `n`, in mV; VGL and VSN are negative. -/
def State.railSetPoint (s : State) (n : Nat) : Int := if n % 2 = 0 then -(s.railMag n : Int) else s.railMag n

/-- Soft-start slope of rail `n`, in V/s. -/
def State.railSlope (s : State) (n : Nat) : Nat := 2500 * 2 ^ s.fget (F.PWD_RAIL_CFG_SLOPE n)

/-- Current limit of rail `n`, in µA. -/
def State.railLimit (s : State) (n : Nat) : Nat := railRated n * 10 * (50 + 25 * s.fget (F.PWD_RAIL_CFG_ILIM n))

/-- Whether a magnitude of rail `n`, in mV, is good: 90 % of the set point. -/
def State.railReached (s : State) (n mv : Nat) : Bool := decide (9 * s.railMag n ≤ 10 * mv)

/-- Whether a magnitude of rail `n`, in mV, is out of range once the rail is good: below 85 % or above 110 %. -/
def State.railOut (s : State) (n mv : Nat) : Bool := decide (100 * mv < 85 * s.railMag n) || decide (110 * s.railMag n < 100 * mv)

/-- Whether a magnitude, in mV, is that of a discharged rail. -/
def railEmpty (mv : Nat) : Bool := decide (mv < 500)

/-! The power-down. -/

/-- Panel-link ports go OFF with their lanes unpowered as RUN is left (R404). -/
def State.plOff (s : State) : State :=
  let s1 := (List.range 8).foldl (fun s p => s.fset (F.PL_STAT_STATE p) 0) s
  { s1 with pl := s1.pl.map (fun q => { q with stage := .none, reps := [], lanes := List.replicate 17 [] }) }

/-- The registers of PWD return to their reset values (R180). -/
def State.pwdReset (s : State) : State :=
  { s with regs := SMap.keep (fun a => decide (a < 0x500000) || decide (0x510000 ≤ a)) s.regs }

/-- A TAP instruction that waited for SAFE = 1 takes effect (R388). -/
def State.tapSettle (s : State) : State :=
  match s.tap.waiting with
  | none => s
  | some i => { s with tap := ⟨i, none⟩ }

/-- PWD's registers reset once SAFE = 1, where a POR came during the discharge (R180). -/
def State.pwdSettle (s : State) : State :=
  if s.pwd.resetDue then s.pwdReset.modPwd (fun _ => Pwd.reset) else s.modPwd (fun _ => Pwd.reset)

/-- IDLE is reached as the sequencer reaches OFF on the way out of RUN (R404). -/
def State.idleSettle (s : State) : State :=
  if s.pwr.going = some 1 ∧ s.pstate = 0 then s.plOff.pwrReached .idle else s

/-- TIM stops at OFF, until the sequencer's next power-up (R177). -/
def State.timPark (s : State) : State :=
  let s1 := if s.tim.run then s.timStop else s
  { s1 with tim := { s1.tim with parked := true } }

/-- OFF with SAFE = 1: TIM stops (R177). -/
def State.seqOff (s : State) : State :=
  ((s.fput F.PWD_SEQ_STAT_SAFE true).seqState 0).timPark.pwdSettle.tapSettle.idleSettle

/-- Stop rail `k` and discharge it. -/
def State.railStop (s : State) (k : Nat) : State :=
  (s.fset F.PWD_SEQ_STAT_PG (s.fget F.PWD_SEQ_STAT_PG &&& (15 - 2 ^ k))).modPwd (fun p => { p with pos := .discharge k })

/-- Stop the highest rail below `n` that was started, after STEP; with none left the sequencer is OFF (R177, R178, R179). -/
def State.stopNext (s : State) (n : Nat) : State :=
  match ((List.range n).filter (fun k => s.pwd.started.contains k)).getLast? with
  | none => if s.pwd.uv && !s.pwd.started.isEmpty then s else s.seqOff
  | some k =>
    if s.pwd.fast then s.railStop k else s.modPwd (fun p => { p with pos := .stepDown k })

/-- The power-down from its first step: gates at VGL, EMIT_SUP_EN low, then the wait for EMIT_SUP_PG (R177, R178). -/
def State.beginDown (s : State) (fast : Bool) : State :=
  let s1 := s.fput F.PWD_SEQ_STAT_EXT_EN false
  let s2 := (s1.modPwd (fun p => { p with pos := .extDown, fast := fast, downReq := false })).seqState 3
  if s2.flag F.PWD_SEQ_STAT_EXT_PG then s2 else s2.stopNext 4

/-- Whether the sequencer is in UP or RUN. -/
def SeqPos.upOrRun : SeqPos → Bool
  | .ramp _ => true
  | .stepUp _ => true
  | .extUp => true
  | .release => true
  | .run => true
  | _ => false

/-- The cycle of the PWR domain's 4 MHz clock, 250 ns each (R391, R181). -/
def State.pwrCycle (s : State) : Nat := s.clock / 16384000

/-- Whether a normal power-down runs whose DOWN request came in this PWR cycle (R181). -/
def State.downThisCycle (s : State) : Bool :=
  s.pwd.downAt == some s.pwrCycle && !s.pwd.fast && !s.pwd.pos.upOrRun && s.pwd.pos != .off

/-- A normal power-down goes on as that of a fault: FAULT is set, which the other devices are told, and STEP is taken as 0 (R178,
R181, R287). -/
def State.downAsFault (s : State) : State :=
  let s1 := ((s.fput F.PWD_SEQ_STAT_FAULT true).modPwd (fun p => { p with fast := true })).tellSeq
  match s.pwd.pos with
  | .stepDown k => s1.railStop k
  | _ => s1

/-- Whether a twin's partner mirrors a lead in UP or RUN. -/
def State.leadUp (s : State) : Bool :=
  s.twinPartner && (s.fget F.PWD_SEQ_STAT_STATE == 1 || s.fget F.PWD_SEQ_STAT_STATE == 2)

/-- A fault: in UP or RUN it starts the fault power-down (R178), and a DOWN request of the same PWR cycle is treated as the
fault (R181). A twin's partner has it started on its lead, whose rails the panel runs on (R301). -/
def State.faultDown (s : State) : State :=
  if s.pwd.pos.upOrRun then (s.fput F.PWD_SEQ_STAT_FAULT true).beginDown true
  else if s.downThisCycle then s.downAsFault
  else if s.leadUp then s.pairSend 11 else s

/-- Record a fault bit with its event (R178). -/
def State.faultBit (s : State) (f : Fld) (n : Nat) : State := (s.wset f.addr (2 ^ (f.lo + n))).raise 5

/-- Note EMIT_SUP_PG. -/
def State.extPg (s : State) (b : Bool) : State := s.fput F.PWD_SEQ_STAT_EXT_PG b

/-- A DOWN that takes effect at once in UP or RUN, whatever the slot (R180, R414). -/
def State.downNow (s : State) : State := if s.pwd.pos.upOrRun then s.beginDown false else s

/-- The power-down of R180 for what needs SAFE = 1: a twin's partner has its lead run it (R301, R388). -/
def State.downForSafe (s : State) : State := if s.leadUp then s.pairSend 3 else s.downNow

/-- The ingest ports are disabled (R377). -/
def State.ingestOff (s : State) : State :=
  let off := fun (p : Fin 2) (s : State) => if s.flag (F.ING_CTL_EN p) then ingEnable p false s else s
  off 1 (off 0 s)

/-- HALTED or RECOVERY: the rails are off, powered down where software had them up, and the ingest ports disabled (R377). -/
def State.bootOff (s : State) : State := s.downNow.ingestOff

/-- Bring-up ends in HALTED with a cause (R375, R377). -/
def State.bootHalt (s : State) (cause : Nat) : State := ((s.bootTo 7 s.boot.step).fset F.NVM_BOOT_STAT_HALT cause).bootOff

/-! Requests. -/

/-- Whether bring-up holds the rails off (R284, R375, R377). -/
def State.railsBarred (s : State) : Bool :=
  s.casState == 7 || s.boot.state == 7 || s.boot.state == 8

/-- An UP request (R176); the converters start from their trim targets (R419). -/
def State.upRequest (s : State) : State :=
  if s.pwd.pos = .off ∧ s.flag F.PWD_SEQ_STAT_SAFE ∧ s.rget R.PWD_FAULT = 0 ∧ !s.twinPartner ∧ !s.railsBarred then
    let s1 := (s.fput F.PWD_SEQ_STAT_FAULT false).fput F.PWD_SEQ_STAT_SAFE false
    let s2 := s1.modCal (fun c => { c with conv := c.conv.map (fun r => r.map (fun e => (e.2, e.2))) })
    let wait := s2.waitsForPeer && s2.peerState != 1 && s2.peerState != 2
    ((s2.modPwd (fun p => { p with
      pos := if wait then .stepUp 0 else .ramp 0
      started := if wait then [] else [0]
      fast := false
      uv := false
      downReq := false
      downAt := none })).modCyc (fun c => { c with starts := .pwd :: c.starts })).seqState 1
  else s

/-- A DOWN request (R177): in UP, and in RUN with TIM stopped, at once; else it waits for T_(Hp+1). A twin's partner hands it to its
lead (R301). -/
def State.downRequest (s : State) : State :=
  if s.pwd.pos = .run ∧ s.tim.run then s.modPwd (fun p => { p with downReq := true, downAt := some s.pwrCycle })
  else if s.pwd.pos.upOrRun then (s.modPwd (fun p => { p with downAt := some s.pwrCycle })).downNow
  else if s.leadUp then s.pairSend 3
  else s

/-- RAIL_UP_REQUEST: a write of UP, with DOWN as given (R176, R181). -/
def railUpRequest (down : Bool) (s : State) : State := if down then s else s.upRequest

/-- RAIL_DOWN_REQUEST: a write of DOWN, with UP as given (R177, R181). -/
def railDownRequest (up : Bool) (s : State) : State := if up then s else s.downRequest

/-! Power-up. -/

/-- RAIL_GOOD: the rail that ramps reaches 90 % of its set point (R174, R176). -/
def railGood (n : Fin 4) (s : State) : State :=
  if s.pwd.pos = .ramp n.val then
    (s.fset F.PWD_SEQ_STAT_PG (s.fget F.PWD_SEQ_STAT_PG ||| 2 ^ n.val)).modPwd (fun p => { p with pos := .stepUp (n.val + 1) })
  else s

/-- The step of R176 that STEP precedes: the ramp of rail `k`, EMIT_SUP_EN (k = 4), or the release of the gates. -/
def State.nextStep (s : State) (k : Nat) : State :=
  if k < 4 then s.modPwd (fun p => { p with pos := .ramp k, started := p.started ++ [k] })
  else if k = 4 then
    let s1 := s.fput F.PWD_SEQ_STAT_EXT_EN true
    s1.modPwd (fun p => { p with pos := if s1.flag F.PWD_SEQ_STAT_EXT_PG then .stepUp 5 else .extUp })
  else s.modPwd (fun p => { p with pos := .release })

/-- SEQ_STEP_DELAY: STEP expires (R176, R177); a half of a split pair takes the next step with the other half (R301). -/
def seqStepDelay (s : State) : State :=
  match s.pwd.pos with
  | .stepUp k =>
    let (ready, s1) := s.peerReady
    if ready then s1.nextStep k else s1
  | .stepDown k => s.railStop k
  | _ => s

/-- A half of a split pair that waits with its first ramp goes on once the other half is in UP, or its link is lost (R301). -/
def State.peerUp (s : State) : State := if s.pwd.pos = .stepUp 0 then s.nextStep 0 else s

/-- RAIL_PG_TIMEOUT: the rail that ramps is not good within PG_TO (R176). -/
def railPgTimeout (n : Fin 4) (s : State) : State :=
  if s.pwd.pos = .ramp n.val then (s.faultBit F.PWD_FAULT_PGTO n.val).faultDown else s

/-- EMIT_SUP_PG_HIGH. -/
def emitSupPgHigh (s : State) : State :=
  let s1 := s.extPg true
  if s.pwd.pos = .extUp then s1.modPwd (fun p => { p with pos := .stepUp 5 }) else s1

/-- EXT_HANDSHAKE_TIMEOUT: EXT_TO expires (R176, R177). -/
def extHandshakeTimeout (s : State) : State :=
  match s.pwd.pos with
  | .extUp => (s.faultBit F.PWD_FAULT_EXT_TO 0).faultDown
  | .extDown => (if s.flag F.PWD_SEQ_STAT_EXT_PG then s.faultBit F.PWD_FAULT_EXT_LOST 0 else s).stopNext 4
  | _ => s

/-- Whether TIM may start here: always on the head, on a follower at a latch instant at which it is LOCKED, and never on an
excluded device (R176, R284, R289). -/
def State.timMayStart (s : State) : Bool := s.casState != 7 && (s.isHead || s.casState == 3)

/-- TIM starts at a latch-row slot, which opens turn 0, or the parent's turn on a follower (R122, R176, R289). A mode change whose
retune ended while TIM was stopped takes effect there. -/
def State.timStart (s : State) : State :=
  let s1 := { (s.modLyr (fun l => { l with opened := false })) with tim := { s.tim with statsDone := true, parked := false } }
  if s1.lyr.mode = .ready then newTimingStart s1 else s1.latchRow

/-- RUN is reached: TIM starts where it is stopped, and bring-up or the step to RUN ends (R176, R375, R379, R387, R404). -/
def State.runReached (s : State) : State :=
  let s1 := if s.tim.run then s else s.timStart
  let s2 := (s1.bootTo 6 12).firstRun
  if s2.pwr.going = some 0 then s2.pwrReached .run else s2

/-- Whether bring-up has come to step 11, before which TIM does not start, and has not ended in HALTED or RECOVERY (R375, R377). -/
def State.bootMayRun (s : State) : Bool :=
  !s.railsBarred && (decide (5 ≤ s.boot.state) || (s.boot.state == 4 && s.boot.step == 11))

/-- Whether a twin's partner, whose sequencer reads the lead's state, starts TIM with the lead: its own bring-up has come to step 11,
and it is in RUN or on its way there (R301, R375, R377). -/
def State.partnerMayRun (s : State) : Bool :=
  s.seqRun && !s.tim.run && s.bootMayRun && (s.pwr.going == some 0 || s.pstate == 0)

/-- SEQ_RUN_ENTRY: the gates are released at a latch-row slot (R176), by both halves of a split pair together (R301). While TIME
retunes there is no latch row, and a power-up that software asked for in an earlier step of bring-up waits for step 11 (R375). -/
def seqRunEntry (s : State) : State :=
  if !s.timMayStart || s.lyr.mode == .retune then s
  else if s.twinPartner then (if s.partnerMayRun then s.runReached else s)
  else if s.pwd.pos = .release ∧ s.bootMayRun then
    let (ready, s1) := s.peerReady
    if ready then ((s1.modPwd (fun p => { p with pos := .run })).seqState 2).runReached else s1
  else s

/-! Power-down. -/

/-- Whether a DOWN request that waits in RUN takes effect now: at T_(Hp+1), the start of slot Hp + 1, of a later PWR cycle than the
request's; with TIM stopped no slot is waited for (R177, R181). -/
def State.downDue (s : State) : Bool :=
  s.pwd.downReq && s.pwd.pos == .run &&
  (!s.tim.run || (s.tim.slot == s.tab.timing.active + 1 && s.pwd.downAt != some s.pwrCycle))

/-- DOWN_EFFECT: a DOWN request takes effect (R177). -/
def downEffect (s : State) : State := if s.downDue then s.beginDown false else s

/-- EMIT_SUP_PG_LOW. -/
def emitSupPgLow (s : State) : State :=
  let s1 := s.extPg false
  if s.pwd.pos = .extDown then s1.stopNext 4 else s1

/-- EMIT_SUP_PG_FALL: low for 1 µs while the emitter supply is wanted (R178, R438). -/
def emitSupPgFall (s : State) : State :=
  let s1 := s.extPg false
  if s.pwd.pos = .run then (s1.faultBit F.PWD_FAULT_EXT_LOST 0).faultDown else s1

/-- RAIL_DISCHARGED: a stopped rail falls below 0.5 V (R177, R179). -/
def railDischarged (n : Fin 4) (s : State) : State :=
  let s1 := s.modPwd (fun p => { p with started := p.started.filter (fun k => k != n.val) })
  if s.pwd.pos = .discharge n.val then s1.stopNext n.val
  else if s.pwd.uv && s1.pwd.started.isEmpty && s.pwd.pos != .off then s1.seqOff
  else s1

/-- DISCHARGE_TIMEOUT: DIS_TO expires for the rail that discharges (R177); in the sequence of R179, the 1 ms after which the next
rail's discharge begins. -/
def dischargeTimeout (n : Fin 4) (s : State) : State :=
  if s.pwd.pos = .discharge n.val then
    if s.pwd.uv then s.stopNext n.val else (s.faultBit F.PWD_FAULT_DISCH_TO n.val).stopNext n.val
  else s

/-! Faults. -/

/-- Whether a rail reads good. -/
def State.railIsGood (s : State) (n : Nat) : Bool := bitOf (s.fget F.PWD_SEQ_STAT_PG) n

/-- RAIL_LOSS: a good rail out of range for 10 µs (R174, R178). -/
def railLoss (n : Fin 4) (s : State) : State :=
  if s.railIsGood n.val then
    ((s.fset F.PWD_SEQ_STAT_PG (s.fget F.PWD_SEQ_STAT_PG &&& (15 - 2 ^ n.val))).faultBit F.PWD_FAULT_PGLOSS n.val).faultDown
  else s

/-- RAIL_OVERCURRENT: a good rail at its limit for 1 ms (R174, R178). -/
def railOvercurrent (n : Fin 4) (s : State) : State :=
  if s.railIsGood n.val then (s.faultBit F.PWD_FAULT_OC n.val).faultDown else s

/-- POWER_DIE_OT (R178). -/
def powerDieOt (s : State) : State := (s.faultBit F.PWD_FAULT_OT 0).faultDown

/-- The sequence of R179: gates at VGL, EMIT_SUP_EN low, and the rails discharged in order without waiting for EMIT_SUP_PG. A change of
STATE or FAULT is told to the other devices (R287). A twin's partner has its lead powered down (R301). -/
def State.dieDown (s : State) : State :=
  if s.leadUp then s.pairSend 11
  else if s.pwd.pos = .stepUp 0 then (s.fput F.PWD_SEQ_STAT_FAULT true).beginDown true
  else if s.pwd.started.isEmpty then s
  else
    let s1 := ((s.fput F.PWD_SEQ_STAT_FAULT true).fput F.PWD_SEQ_STAT_EXT_EN false).modPwd (fun p =>
      { p with uv := true, fast := true, downReq := false })
    let s2 := if s.pwd.pos.upOrRun then s1.seqState 3 else if s.flag F.PWD_SEQ_STAT_FAULT then s1 else s1.tellSeq
    match s.pwd.pos with
    | .discharge _ => s2
    | .stepDown k => s2.stopNext (k + 1)
    | _ => s2.stopNext 4

/-- Whether a normal power-down of R177 runs whose request came in an earlier PWR cycle. -/
def State.normalDown (s : State) : Bool :=
  !s.pwd.pos.upOrRun && s.pwd.pos != .off && !s.pwd.fast && !s.downThisCycle

/-- A supply fault: the sequence of R179, but a normal power-down that it finds running goes on as it is (R178). -/
def State.supplyFault (s : State) (f : Fld) : State :=
  let s1 := s.faultBit f 0
  if s1.normalDown then s1 else s1.dieDown

/-- VIN_UNDERVOLTAGE: VIN_PWR below 10.0 V (R179). -/
def vinUndervoltage (s : State) : State := s.supplyFault F.PWD_FAULT_VIN_UV

/-- AON_SUPPLY_LOSS: VDD_AON or VDD_IO below 1.55 V (R179). -/
def aonSupplyLoss (s : State) : State := s.supplyFault F.PWD_FAULT_AON_LOSS

/-! Gate outputs. -/

/-- What a gate output drives. -/
inductive GateLevel where
  | highZ | vgl | vgh
  deriving DecidableEq, Repr

/-- Whether emission is disabled (R163). -/
def State.emissionOff (s : State) : Bool := s.lyr.quiet || !s.tab.drvRun || !s.seqRun || s.cas.pairLost

/-- The gate outputs with the sequencer outside RUN: high impedance until VGL is good, VGL until its discharge begins. -/
def State.gateHeld (s : State) : GateLevel :=
  match s.pwd.pos with
  | .off => .highZ
  | .ramp k => if k = 0 then .highZ else .vgl
  | .stepUp k => if k = 0 then .highZ else .vgl
  | .discharge k => if k = 0 then .highZ else .vgl
  | _ => .vgl

/-- What gate output `n` drives in TIME cycle `c` of the slot in progress (R163 to R165 and the sequencer's states). -/
def State.gout (s : State) (n c : Nat) : GateLevel :=
  if s.twinPartner then .highZ
  else if !s.seqRun then s.gateHeld
  else
    let t := s.tab.timing
    let cfg := t.goutCfg.getD n 0
    let cut := !s.tim.run || (bitsOf cfg 29 28 == 1 && s.emissionOff)
    if (goutActive t n s.tim.slot c && !cut) != bitOf cfg 27 then .vgh else .vgl

/-- RAIL_UP_REQUEST. -/
def execRailUpRequest (down : Bool) (s : State) : Host.Outcome State Fault Refusal :=
  .next (s.onReg R.PWD_SEQ_CTL (railUpRequest down))
/-- RAIL_DOWN_REQUEST. -/
def execRailDownRequest (up : Bool) (s : State) : Host.Outcome State Fault Refusal :=
  .next (s.onReg R.PWD_SEQ_CTL (railDownRequest up))
/-- RAIL_GOOD. -/
def execRailGood (n : Fin 4) (s : State) : Host.Outcome State Fault Refusal := .next (railGood n s)
/-- SEQ_STEP_DELAY. -/
def execSeqStepDelay (s : State) : Host.Outcome State Fault Refusal := .next (seqStepDelay s)
/-- RAIL_PG_TIMEOUT. -/
def execRailPgTimeout (n : Fin 4) (s : State) : Host.Outcome State Fault Refusal := .next (railPgTimeout n s)
/-- EMIT_SUP_PG_HIGH. -/
def execEmitSupPgHigh (s : State) : Host.Outcome State Fault Refusal := .next (emitSupPgHigh s)
/-- EXT_HANDSHAKE_TIMEOUT. -/
def execExtHandshakeTimeout (s : State) : Host.Outcome State Fault Refusal := .next (extHandshakeTimeout s)
/-- SEQ_RUN_ENTRY. -/
def execSeqRunEntry (s : State) : Host.Outcome State Fault Refusal := .next (seqRunEntry s)
/-- DOWN_EFFECT. -/
def execDownEffect (s : State) : Host.Outcome State Fault Refusal := .next (downEffect s)
/-- EMIT_SUP_PG_LOW. -/
def execEmitSupPgLow (s : State) : Host.Outcome State Fault Refusal := .next (emitSupPgLow s)
/-- EMIT_SUP_PG_FALL. -/
def execEmitSupPgFall (s : State) : Host.Outcome State Fault Refusal := .next (emitSupPgFall s)
/-- RAIL_DISCHARGED. -/
def execRailDischarged (n : Fin 4) (s : State) : Host.Outcome State Fault Refusal := .next (railDischarged n s)
/-- DISCHARGE_TIMEOUT. -/
def execDischargeTimeout (n : Fin 4) (s : State) : Host.Outcome State Fault Refusal := .next (dischargeTimeout n s)
/-- RAIL_LOSS. -/
def execRailLoss (n : Fin 4) (s : State) : Host.Outcome State Fault Refusal := .next (railLoss n s)
/-- RAIL_OVERCURRENT. -/
def execRailOvercurrent (n : Fin 4) (s : State) : Host.Outcome State Fault Refusal := .next (railOvercurrent n s)
/-- POWER_DIE_OT. -/
def execPowerDieOt (s : State) : Host.Outcome State Fault Refusal := .next (powerDieOt s)
/-- VIN_UNDERVOLTAGE. -/
def execVinUndervoltage (s : State) : Host.Outcome State Fault Refusal := .next (vinUndervoltage s)
/-- AON_SUPPLY_LOSS. -/
def execAonSupplyLoss (s : State) : Host.Outcome State Fault Refusal := .next (aonSupplyLoss s)

end Sys2Proof.Machine
end

