-- ==== Sys2Proof/Machine/Panel.lean ====
section
/-! DEFINITION. Row slots and the panel link (07_panel_drive_and_ledger.md R160; 08_panel_link.md R192 to R210, R213), with the
transmit-equaliser steps of slot Hp (15_clocks_resets_power.md R419) and the slot that slewing lengthens
(11_cascade.md R303). -/

namespace Sys2Proof.Machine

/-! Lanes and the lane map. -/

/-- Whether a lane is failed. -/
def State.laneFailed (s : State) (p l : Nat) : Bool := s.flag (F.PL_LANE_STAT_FAILED p l)

/-- Whether a lane carries no group. -/
def State.laneVacant (s : State) (p l : Nat) : Bool := s.flag (F.PL_LANE_STAT_VACANT p l)

/-- The local group on a lane, if it carries one (R185). -/
def State.laneGroup (s : State) (p l : Nat) : Option Nat :=
  if s.laneVacant p l then none else some (s.fget (F.PL_LANE_STAT_GROUP p l))

/-- Put a group, or none, on a lane. -/
def State.setLane (s : State) (p l : Nat) (g : Option Nat) : State :=
  (s.fput (F.PL_LANE_STAT_VACANT p l) g.isNone).fset (F.PL_LANE_STAT_GROUP p l) (g.getD 0)

/-- The lowest failed lane among 0 to 15. -/
def lowestFailed (failed : Nat) : Option Nat := (List.range 16).find? (fun l => bitOf failed l)

/-- The lane that a group takes in the map computed from the failed lanes (R209). -/
def targetLane (failed g : Nat) : Nat :=
  match lowestFailed failed with
  | none => g
  | some f => if g < f then g else g + 1

/-- The groups left with no lane by that map, as a mask. -/
def blackGroups (failed : Nat) : Nat :=
  ((List.range 16).map (fun g => if bitOf failed (targetLane failed g) then 2 ^ g else 0)).foldl (· + ·) 0

/-- Set the groups with no lane. -/
def State.setBlack (s : State) (p mask : Nat) : State :=
  (s.fset (F.PL_BLACK_GROUPS p) mask).fput (F.PL_STAT_BLACK p) (mask != 0)

/-- Apply the map computed from the failed lanes of a port (R209). SHIFT is the lowest failed lane `f` also where the group `f` has no
lane because lane f + 1 is failed too (DESIGN CHOICE, log entry 28). -/
def State.setMap (s : State) (p : Nat) : State :=
  let failed := s.fget (F.PL_STAT_FAILED p)
  let on := fun l => (List.range 16).find? (fun g => targetLane failed g == l && !bitOf failed l)
  let s1 := (List.range 17).foldl (fun s l => s.setLane p l (on l)) s
  let f := lowestFailed failed
  (((s1.setBlack p (blackGroups failed)).fput (F.PL_STAT_SPARE_USED p) f.isSome).fset (F.PL_STAT_SHIFT p) (f.getD 16))

/-- Mark a lane failed, with its count and cause (R204). -/
def State.markLane (s : State) (p l cause : Nat) : State :=
  let s1 := ((s.fadd (F.PL_LANE_STAT_FAILS p l) 1).fput (F.PL_LANE_STAT_FAILED p l) true).fset (F.PL_LANE_STAT_CAUSE p l) cause
  (s1.fput (F.PL_LANE_STAT_SUSPECT p l) false).fset (F.PL_STAT_FAILED p) (s1.fget (F.PL_STAT_FAILED p) ||| 2 ^ l)

/-- Mark a lane failed, with its event (R204). -/
def State.markFailed (s : State) (p l cause : Nat) : State := (s.markLane p l cause).raise 6

/-- Whether the spare is available for a failure of lane `f` (R205). -/
def State.spareFree (s : State) (p f : Nat) : Bool :=
  !s.flag (F.PL_STAT_SPARE_USED p) && !s.laneFailed p 16 &&
  (List.range 16).all (fun l => decide (l ≤ f) || !s.laneFailed p l)

/-- Groups `f` to 15 move up one lane, and lane `f` turns VACANT (R205). -/
def State.shiftUp (s : State) (p f : Nat) : State :=
  let s1 := (List.range 17).foldl (fun s l =>
    if l < f then s else if l = f then s.setLane p l none else s.setLane p l (some (l - 1))) s
  (s1.fput (F.PL_STAT_SPARE_USED p) true).fset (F.PL_STAT_SHIFT p) f

/-- A failure takes effect (R204 to R206), its event raised where it has not been; a lane already failed is not failed again. -/
def State.laneFail (s : State) (p l cause : Nat) (told : Bool) : State :=
  if s.laneFailed p l then s
  else
    let s1 := if told then s.markLane p l cause else s.markFailed p l cause
    match s1.laneGroup p l with
    | none => s1
    | some g =>
      if s1.spareFree p l && l != 16 then s1.shiftUp p l
      else (s1.setBlack p (s1.fget (F.PL_BLACK_GROUPS p) ||| 2 ^ g)).setLane p l none

/-- Declare a lane failed; the failure takes effect later (R203, R204). A FORCE names the cause of a failure that a report has
declared for the same row start (R210). -/
def State.laneDeclare (s : State) (p l cause : Nat) : State :=
  if s.laneFailed p l then s
  else s.modPl p (fun q =>
    { q with fails :=
        if q.fails.any (fun e => e.1 == l) then
          (if cause = 6 then q.fails.map (fun e => if e.1 = l then (l, 6) else e) else q.fails)
        else q.fails ++ [(l, cause)] })

/-- Whether the next row start carries an active row: the one at which failures and restorations take effect (R204). -/
def State.rowStartNext (s : State) : Bool :=
  s.tim.run && decide ((s.tim.slot + 1) % s.tab.timing.slots < s.tab.geom.hp)

/-- A lane is restored (R209). -/
def State.restoreLane (s : State) (p l : Nat) : State :=
  let s1 := (s.fput (F.PL_LANE_STAT_FAILED p l) false).fput (F.PL_LANE_STAT_SUSPECT p l) false
  s1.fset (F.PL_STAT_FAILED p) (s1.fget (F.PL_STAT_FAILED p) &&& (2 ^ 17 - 1 - 2 ^ l))

/-- Restorations take effect: the new map holds if it leaves no more groups black (R209). -/
def State.restoreLanes (s : State) (p : Nat) (ls : List Nat) : State :=
  if ls.isEmpty then s
  else
    let s1 := ls.foldl (fun s l => s.restoreLane p l) s
    if popcount 16 (blackGroups (s1.fget (F.PL_STAT_FAILED p))) ≤ popcount 16 (s1.fget (F.PL_BLACK_GROUPS p)) then s1.setMap p else s1

/-- A port as it stands before anything takes effect at a row start. -/
def State.plStart (s : State) (p : Nat) : PlStart :=
  { lanes := (List.range 17).map (fun l => (s.rget (R.PL_LANE_STAT p l)).toNat)
    stat := (s.rget (R.PL_STAT p)).toNat
    black := s.fget (F.PL_BLACK_GROUPS p)
    fails := []
    restore := [] }

/-- A field's part of a word. -/
def Fld.part (f : Fld) (v : Nat) : Nat := bitsOf v f.hi f.lo

/-- A port's lanes and map as they stood before. -/
def State.plBack (s : State) (p : Nat) (x : PlStart) : State :=
  let s1 := (List.range 17).foldl (fun s l =>
    [F.PL_LANE_STAT_FAILED p l, F.PL_LANE_STAT_CAUSE p l, F.PL_LANE_STAT_FAILS p l, F.PL_LANE_STAT_SUSPECT p l, F.PL_LANE_STAT_VACANT p l,
      F.PL_LANE_STAT_GROUP p l].foldl (fun s f => s.fset f (f.part (x.lanes.getD l 0))) s) s
  let s2 := [F.PL_STAT_FAILED p, F.PL_STAT_SPARE_USED p, F.PL_STAT_SHIFT p, F.PL_STAT_BLACK p].foldl (fun s f => s.fset f (f.part x.stat)) s1
  s2.fset (F.PL_BLACK_GROUPS p) x.black

/-- Failures and restorations take effect at a row start, with those that have taken effect at it before: all failures in increasing lane
order, and then the restorations (R204, R210). -/
def State.rowStart (s : State) (p : Nat) (fails : List (Nat × Nat)) (restore : List Nat) : State :=
  let x := (s.plPort p).start.getD (s.plStart p)
  let told := fun (l : Nat) => x.fails.any (fun e => e.1 == l)
  let y := { x with
    fails := x.fails ++ fails.filter (fun e => !told e.1)
    restore := x.restore ++ restore }
  let s1 := if (s.plPort p).start.isSome then s.plBack p x else s
  let s2 := (List.range 17).foldl (fun s l =>
    match y.fails.find? (fun e => e.1 == l) with
    | none => s
    | some e => s.laneFail p l e.2 (told l)) s1
  (s2.restoreLanes p y.restore).modPl p (fun q => { q with start := some y })

/-- LANE_FAILURE_APPLY. -/
def laneFailureApply (p : Fin 8) (s : State) : State :=
  let fs := (s.plPort p.val).fails
  if s.rowStartNext && !fs.isEmpty then (s.rowStart p.val fs []).modPl p.val (fun q => { q with fails := [] }) else s

/-- LANE_RESTORE_APPLY: failures of the same row start go first (R210). -/
def laneRestoreApply (p : Fin 8) (s : State) : State :=
  let q := s.plPort p.val
  if s.rowStartNext && !q.restore.isEmpty then
    (s.rowStart p.val q.fails q.restore).modPl p.val (fun q => { q with
      fails := []
      restore := [] })
  else s

/-! Training. -/

/-- Lanes ℓ and 16 − ℓ exchange what belongs to the ball rather than to the logical lane (R201). -/
def State.swapBalls (s : State) (p : Nat) : State :=
  let old := (List.range 17).map (fun l => (s.rget (R.PL_LANE_STAT p l)).toNat)
  (List.range 17).foldl (fun s l =>
    [F.PL_LANE_STAT_PRESENT p l, F.PL_LANE_STAT_FAILED p l, F.PL_LANE_STAT_CAUSE p l, F.PL_LANE_STAT_FAILS p l,
      F.PL_LANE_STAT_RETRIES p l].foldl (fun s f => s.fset f (f.part (old.getD (16 - l) 0))) s) s

/-- TRAIN on a port (R199): a straight map with no lane failed, suspect or reversed, while FAILS, CAUSE and RETRIES stay with their balls
(DESIGN CHOICE, log entry 28); the lanes take their equaliser targets (R419). -/
def State.trainPort (s : State) (p : Nat) : State :=
  let s0 := if s.flag (F.PL_STAT_REVERSED p) then s.swapBalls p else s
  let s1 := (List.range 17).foldl (fun s l =>
    ((s.fput (F.PL_LANE_STAT_FAILED p l) false).fput (F.PL_LANE_STAT_SUSPECT p l) false).fset (F.PL_LANE_STAT_PIN p l) l) s0
  let s2 := ((s1.fset (F.PL_STAT_FAILED p) 0).fput (F.PL_STAT_REVERSED p) false).setMap p
  let s3 := (s2.fset (F.PL_STAT_STATE p) 1).modTx (17 * p) 17 TxEq.jump
  s3.modPl p (fun _ => { PlPort.reset with stage := .presence })

/-- PL_TRAIN: a write of TRAIN; without effect while TIM runs (R199, R213). -/
def plTrain (p : Fin 8) (s : State) : State := if s.tim.run then s else s.trainPort p.val

/-- PL_FORCE: a write of FORCE; it acts only while the port is RUNNING (R213). -/
def plForce (p : Fin 8) (mask : LaneMask) (s : State) : State :=
  if s.fget (F.PL_STAT_STATE p.val) = 3 then
    (List.range 17).foldl (fun s l => if mask.getLsbD l then s.laneDeclare p.val l 6 else s) s
  else s

/-- PL_PRESENCE_DONE: unterminated lanes fail with cause ABSENT (R199). -/
def plPresenceDone (p : Fin 8) (terminated : LaneMask) (s : State) : State :=
  if (s.plPort p.val).stage = .presence then
    let s1 := (List.range 17).foldl (fun s l =>
      let s1 := s.fput (F.PL_LANE_STAT_PRESENT p.val l) (terminated.getLsbD l)
      if terminated.getLsbD l then s1 else s1.markFailed p.val l 1) s
    s1.modPl p.val (fun q => { q with stage := .tsa })
  else s

/-- PL_TSA_DONE. -/
def plTsaDone (p : Fin 8) (s : State) : State :=
  if (s.plPort p.val).stage = .tsa then s.modPl p.val (fun q => { q with stage := .tsb }) else s

/-- START is written to SYN and DRV, and UP is requested (R375 step 11, R404). -/
def State.panelStart (s : State) (up : Bool) : State :=
  let s1 := (s.synAsk true false).drvAsk true false
  if up then s1.upRequest else s1

/-- What follows the end of training on every port: step 11 of R375, the end of DEEP → IDLE, or the rest of IDLE → RUN. -/
def State.trainEnded (s : State) : State :=
  if (List.range 8).any (fun p => s.fget (F.PL_STAT_STATE p) == 1) then s
  else if s.boot.state = 4 ∧ s.boot.step = 10 then
    if s.casState = 7 then s.bootHalt 6
    else if s.pstate = 3 then (s.bootTo 5 10).pwrReached .idle
    else
      let auto := ((s.img.map (fun m => bitOf (byteAt m.policy 10) 0)).getD false)
      (s.bootTo (if auto then 4 else 5) 11).panelStart auto
  else if s.pwr.going = some 0 ∧ s.pstate = 1 ∧ s.boot.state ≥ 5 then s.panelStart true
  else s

/-- Training of a port ends: its failed lanes are placed, and it waits in electrical idle, or it is FAILED with every group
black (R199, R202). -/
def State.endTraining (s : State) (p : Nat) (ok : Bool) : State :=
  let s1 := (s.setMap p).modPl p (fun q => { q with stage := .none, reps := [] })
  (if ok then s1.fset (F.PL_STAT_STATE p) 2 else (s1.setBlack p 0xFFFF).fset (F.PL_STAT_STATE p) 4).trainEnded

/-- The reports of a port that say PHASE = 3 on some input. -/
def PlPort.phase3 (q : PlPort) : List TrainRep := q.reps.filter (fun r => r.up0 || r.up1)

/-- Whether every report that names a lane names that of a straight port; 0x1F names none (R197, R201; DEDUCED, log). -/
def PlPort.straight (q : PlPort) : Bool := q.phase3.all (fun r => r.lane0 == 31 || r.lane0 == r.drv)

/-- Whether every such report names that of a reversed port. -/
def PlPort.reversed (q : PlPort) : Bool := q.phase3.all (fun r => r.lane0 == 31 || r.lane0 + r.drv == 16)

/-- The port is remapped: logical lane ℓ goes out on ball 16 − ℓ (R201). -/
def State.remapPort (s : State) (p : Nat) : State :=
  let s1 := (List.range 17).foldl (fun s l => s.fset (F.PL_LANE_STAT_PIN p l) (16 - l)) (s.swapBalls p)
  let mask := ((List.range 17).map (fun l => if s1.laneFailed p l then 2 ^ l else 0)).foldl (· + ·) 0
  ((s1.fset (F.PL_STAT_FAILED p) mask).fput (F.PL_STAT_REVERSED p) true).modPl p (fun q => { q with
    stage := .reversal, reps := [] })

/-- Whether a driver is present: a lane of one of its inputs is terminated. -/
def State.drvPresent (s : State) (p i : Nat) : Bool :=
  s.flag (F.PL_LANE_STAT_PRESENT p i) || s.flag (F.PL_LANE_STAT_PRESENT p (i + 1))

/-- PL_TSB_DONE: every present driver reports PHASE = 3 on both inputs (R199, R201). -/
def plTsbDone (p : Fin 8) (s : State) : State :=
  let q := s.plPort p.val
  let all := (List.range 16).all (fun i => !s.drvPresent p.val i || q.reps.any (fun r => r.drv == i && r.up0 && r.up1))
  if (q.stage = .tsb ∨ q.stage = .reversal) ∧ all ∧ !q.reps.isEmpty then
    if q.straight then s.endTraining p.val true
    else if q.reversed && q.stage == .tsb then s.remapPort p.val
    else s.endTraining p.val false
  else s

/-- The lanes that a stage's limit fails with cause TRAIN: those of inputs not in PHASE 3, and a silent driver's primary (R202). -/
def PlPort.limitLanes (q : PlPort) (l : Nat) : Bool :=
  (List.range 16).any (fun i =>
    match q.reps.find? (fun r => r.drv == i) with
    | none => i == l
    | some r => (i == l && !r.up0) || (i + 1 == l && !r.up1))

/-- Fail the lanes of R202. -/
def State.limitFail (s : State) (p : Nat) (lanes : Nat → Bool) : State :=
  (List.range 17).foldl (fun s l => if lanes l && !s.laneFailed p l then s.markFailed p l 5 else s) s

/-- PL_STAGE_LIMIT: stage 3 or 4 reaches its limit (R202). -/
def plStageLimit (p : Fin 8) (s : State) : State :=
  let q := s.plPort p.val
  if q.stage = .tsb ∨ q.stage = .reversal then
    if !q.phase3.isEmpty && !q.straight && q.reversed && q.stage == .tsb then
      (s.remapPort p.val).limitFail p.val q.limitLanes
    else (s.limitFail p.val q.limitLanes).endTraining p.val (!q.phase3.isEmpty && q.straight)
  else s

/-! The back-channel. -/

/-- Record an accepted frame (R198), and its temperature for the model (R413). -/
def State.bcRecord (s : State) (p i : Nat) (f : BcFrame) : State :=
  let v := 2 ^ 31 + b2n f.lk0 * 2 ^ 30 + b2n f.lk1 * 2 ^ 29 + f.phase * 2 ^ 26 + f.temp * 2 ^ 16 + f.crcErr * 2 ^ 10 +
    f.lane0 * 32 + f.lane1
  let s1 := s.rset (R.PL_BC_STAT p i) (BitVec.ofNat 32 v)
  if f.temp = 0x3FF then s1
  else s1.modCal (fun c => { c with frames := setNth c.frames (16 * p + i) (some (f.temp, s.clock)) })

/-- A loss reported by driver `i` on lane `l` (R203): its consumer declares it failed; from another driver it is SUSPECT, with an
event at each loss. `was` says that the driver's frame before reported lock. -/
def State.lockLoss (s : State) (p i l : Nat) (was : Bool) : State :=
  if s.laneFailed p l then s
  else if s.laneGroup p l = some i ∨ (l = 16 ∧ i = 15) then s.laneDeclare p l 2
  else if s.flag (F.PL_LANE_STAT_SUSPECT p l) && !was then s
  else (s.fput (F.PL_LANE_STAT_SUSPECT p l) true).raise 6

/-- The CRC cause of R203. -/
def State.crcLoss (s : State) (p i : Nat) (f : BcFrame) : State :=
  let l := if f.sel then i + 1 else i
  if 16 ≤ f.crcErr ∧ s.laneGroup p l = some i then s.laneDeclare p l 3 else s

/-- A retrained lane that its driver reports locked in row 0 or 1 is due for restoration (R209). -/
def State.retryLock (s : State) (p i : Nat) (f : BcFrame) : State :=
  if s.tim.slot ≤ 1 then
    s.modPl p (fun q =>
      let ok := fun (r : LaneRetry) => r.step == .rows && !r.dirty &&
        ((r.lane == i && decide (r.lane < 16) && f.lk0) || (r.lane == 16 && i == 15 && f.lk1))
      { q with restore := q.restore ++ (q.retry.filter ok).map (fun r => r.lane)
               retry := q.retry.filter (fun r => !ok r) })
  else s

/-- A frame of driver `i` in an active row (R198, R203). -/
def State.bcActive (s : State) (p i : Nat) (f : BcFrame) : State :=
  let s1 := (s.bcRecord p i f).retryLock p i f
  let s2 := if f.lk0 then s1 else s1.lockLoss p i i (s.flag (F.PL_BC_STAT_LK0 p i))
  (if f.lk1 then s2 else s2.lockLoss p i (i + 1) (s.flag (F.PL_BC_STAT_LK1 p i))).crcLoss p i f

/-- A frame of driver `i` during training (R199 to R202). The latest frame of a driver replaces what its earlier ones of the stage
reported, PHASE = 3 too (DESIGN CHOICE, log entry 28). -/
def State.bcTraining (s : State) (p i : Nat) (f : BcFrame) : State :=
  let r : TrainRep := { drv := i, up0 := f.phase == 3 && f.lk0, up1 := f.phase == 3 && f.lk1, lane0 := f.lane0 }
  (s.bcRecord p i f).modPl p (fun q => { q with reps := q.reps.filter (fun r => r.drv != i) ++ [r] })

/-- Whether a port listens for the frames of an active row. -/
def State.bcRow (s : State) (p : Nat) : Bool :=
  s.fget (F.PL_STAT_STATE p) == 3 && s.tim.run && decide (s.tim.slot < s.tab.geom.hp)

/-- Whether a port trains with TS-B. -/
def State.bcTrains (s : State) (p : Nat) : Bool := (s.plPort p).stage == .tsb || (s.plPort p).stage == .reversal

/-- A slot of an active row with no accepted frame (R198). -/
def State.bcNone (s : State) (p i : Nat) (bad : Bool) : State :=
  (s.fadd (if bad then F.PL_BC_ERR_BADCRC p else F.PL_BC_ERR_MISSED p) 1).fput (F.PL_BC_STAT_VALID p i) false

/-- BC_FRAME_RECEIVE: 56 bits in the slot of driver `drv` (R196 to R198). -/
def bcFrameReceive (p : Fin 8) (drv : Fin 16) (bits : List Bool) (s : State) : State :=
  match (readFrame bits).filter (fun f => f.drv == drv.val) with
  | some f =>
    if s.bcRow p.val then s.bcActive p.val drv.val f
    else if s.bcTrains p.val then s.bcTraining p.val drv.val f
    else s
  | none => if s.bcRow p.val then s.bcNone p.val drv.val true else s

/-- BC_SLOT_MISSED. -/
def bcSlotMissed (p : Fin 8) (drv : Fin 16) (badCrc : Bool) (s : State) : State :=
  if s.bcRow p.val then s.bcNone p.val drv.val badCrc else s

/-! Rows. -/

/-- The line bits of a row slot in UI: 20 UI a nanosecond. -/
def Timing.slotUi (t : Timing) : Nat := t.rowUnits * 2 / t.n

/-- The ray words of column group `g` in row `q`: those of its segment in the row streamer; 0 beyond the groups in use, and on a twin's
partner that has lost its lead (R301). -/
def State.rowWords (s : State) (g q : Nat) : List W32 :=
  if s.cas.pairLost then List.replicate 480 0
  else ((s.syn.fifo.find? (fun e => e.row == q && e.group == g)).map (fun e => e.words)).getD (List.replicate 480 0)

/-- What a lane sends in an active row slot (R192 to R194). -/
def State.laneRow (s : State) (p l q : Nat) (prev : Bool) : List Bool :=
  let t := s.tab.timing
  let g := s.laneGroup p l
  let grp := 16 * p + g.getD 0
  let words := if g.isSome ∧ grp < s.tab.geom.ng then s.rowWords grp q else List.replicate 480 0
  rowSlot q l (headerWords q grp g.isNone p l s.lyr.turn t.npwmLog2 t.emitRows t.recoverRows) words prev t.slotUi

/-- Whether a port's lanes carry rows (R195). -/
def State.plLive (s : State) (p : Nat) : Bool := s.fget (F.PL_STAT_STATE p) == 3 && s.seqRun

/-- The lanes of every live port send row `q`; the others stay idle. -/
def State.sendRow (s : State) (q : Nat) : State :=
  { s with pl := (s.pl.zipIdx).map (fun e =>
      if s.plLive e.2 then
        { e.1 with lanes := (List.range 17).map (fun l => s.laneRow e.2 l q (lastBit false (e.1.lanes.getD l []))) }
      else { e.1 with lanes := List.replicate 17 [] }) }

/-- Segments of row `q` that no cluster has started run before the row leaves, with all their data in time. -/
def State.catchUp (s : State) (q : Nat) : State :=
  (List.range s.tab.geom.ng).foldl (fun s g =>
    let behind := q + 1 - (s.syn.clusters.getD g ⟨0, 0⟩).next
    forBelow behind (fun _ s => s.segmentRun g ⟨false, .clean, false, .clean⟩) s) s

/-- Rows that have left take no more room in the row streamer. -/
def State.dropRows (s : State) (q : Nat) : State :=
  { s with syn := { s.syn with fifo := s.syn.fifo.filter (fun e => decide (q < e.row)) } }

/-- An active row leaves (R192). -/
def State.rowOut (s : State) (q : Nat) : State :=
  let s1 := ((s.catchUp q).sendRow q).dropRows q
  if q = 2 then { s1 with pl := s1.pl.map (fun p => { p with retry := p.retry.filter (fun r => r.step != .rows) }) } else s1

/-- Whether the row slot in progress is one of the blanking. -/
def State.inBlank (s : State) : Bool := decide (s.tab.geom.hp ≤ s.tim.slot)

/-- Whether `n` mismatched bits fail a lane (R208). In bring-up stages 3 and 4 they only count (DESIGN CHOICE, log entry 28). -/
def State.rbFails (s : State) (p l n : Nat) : Bool :=
  s.flag (F.PL_CTL_RB_EN p) && decide (max 1 (s.fget (F.PL_RB_CFG_THRESH p)) ≤ n) && s.fget (F.PL_STAT_STATE p) == 3 && !s.laneFailed p l

/-- Read-back of a lane found `n` mismatched bits in the row slot that has ended (R208); in the blanking it spoils the TS-B of a lane
that retrains, which has gone on to VACANT rows by the end of the last slot (R209). -/
def State.readback (s : State) (p l n : Nat) : State :=
  let s1 := s.fadd (F.PL_RB_ERR_COUNT p) n
  if n = 0 then s1
  else s1.modPl p (fun q => { q with retry := q.retry.map (fun r =>
    if r.lane = l ∧ (r.step = .tsb ∨ (r.step = .rows ∧ s.inBlank)) then { r with dirty := true } else r) })

/-- Read-back of TS-B while ports train, with TIM stopped (R208). -/
def State.readbackTsb (s : State) (mismatch : List (Fin 8 × Fin 17 × Nat)) : State :=
  mismatch.foldl (fun s e => if s.bcTrains e.1.val then s.readback e.1.val e.2.1.val e.2.2 else s) s

/-- The lanes of a port that read-back fails. -/
def State.rbLanes (s : State) (mismatch : List (Fin 8 × Fin 17 × Nat)) (p : Nat) : List Nat :=
  (mismatch.filter (fun e => e.1.val == p && s.rbFails p e.2.1.val e.2.2)).map (fun e => e.2.1.val)

/-- Failures that the read-back of the row before declares take effect at this row start, in lane order with the others of it (R204; DESIGN
CHOICE, log entry 28: the check ends 8 ns before); with it the row start is past. -/
def State.readbackStart (s : State) (p : Nat) (ls : List Nat) : State :=
  (if ls.isEmpty then s else s.rowStart p (ls.map (fun l => (l, 4))) []).modPl p (fun q => { q with
    start := none
    fails := q.fails.filter (fun e => !ls.contains e.1) })

/-- Failures that read-back declares in the blanking wait for T_0 (R204). -/
def State.readbackWait (s : State) (p : Nat) (ls : List Nat) : State := ls.foldl (fun s l => s.laneDeclare p l 4) s

/-- Length of the blanking in nanoseconds × 10·N. -/
def Timing.blankUnits (t : Timing) : Nat := t.blank * t.rowUnits

/-- Retraining of failed lanes begins at T_Hp, where the blanking lasts at least 50 µs (R209). -/
def State.startRetry (s : State) : State :=
  let t := s.tab.timing
  if 500000 * t.n ≤ t.blankUnits then
    { s with pl := (s.pl.zipIdx).map (fun e =>
        if s.plLive e.2 ∧ s.flag (F.PL_CTL_RETRY_EN e.2) then
          { e.1 with retry := ((List.range 17).filter (fun l => s.laneFailed e.2 l)).map (fun l => ⟨l, .presence, false⟩) }
        else { e.1 with retry := [] }) }
  else { s with pl := s.pl.map (fun q => { q with retry := [] }) }

/-- Slot Hp begins: electrical idle, the turn's statistics, one equaliser code a lane, and retraining (R95, R172, R195, R209,
R419). -/
def State.blankStart (s : State) : State :=
  let s1 := s.turnStats
  let s2 : State := { s1 with
    pl := s1.pl.map (fun q => { q with
      lanes := List.replicate 17 [] }) }
  (s2.modTx 0 136 TxEq.step).startRetry

/-- Slot Hp + 1 of a follower is lengthened by whole TIME cycles to take off its latch error: at most SLEW_STEP of them in SLEW,
one while LOCKED (R287, R303). -/
def State.slewSlot (s : State) : State :=
  let lim : Nat := if s.casState = 5 then max 1 (s.fget F.CAS_SYNC_CFG_SLEW_STEP) else if s.casState = 3 then 1 else 0
  if s.isHead ∨ lim = 0 then s
  else
    let cyc : Int := ((6400 * s.timing.d : Nat) : Int)
    let n : Int := ((s.timing.n : Nat) : Int)
    let adj := clampInt (roundDiv (-s.cas.slewErr * n) cyc) (-((lim : Nat) : Int)) ((lim : Nat) : Int)
    ({ s with tim := { s.tim with adjust := adj } }).modCas (fun k => { k with slewErr := k.slewErr + roundDiv (adj * cyc) n })

/-- SLOT_START: the next row slot begins (R160). `mismatch` is what read-back found in the row that has just ended; with TIM stopped,
in a training row (R199). -/
def slotStart (mismatch : List (Fin 8 × Fin 17 × Nat)) (s : State) : State :=
  if !s.tim.run then s.readbackTsb mismatch
  else
    let s1 := mismatch.foldl (fun s e => s.readback e.1.val e.2.1.val e.2.2) s
    let q := (s1.tim.slot + 1) % s1.tab.timing.slots
    let s2 := { s1 with tim := { s1.tim with slot := q, slotAt := s1.time } }
    let lanes := s.rbLanes mismatch
    if q < s2.tab.geom.hp then (forBelow 8 (fun p s => s.readbackStart p (lanes p)) s2).rowOut q
    else
      let s3 : State := forBelow 8 (fun p s => s.readbackWait p (lanes p)) s2
      if q = s3.tab.geom.hp then s3.blankStart
      else if q = s3.tab.geom.hp + 1 then s3.slewSlot
      else s3

/-- WAKE_BURST: every live lane leaves idle (R195); retrained lanes go on to VACANT rows (R209). -/
def wakeBurst (s : State) : State :=
  if !s.tim.run then s
  else
    let s1 := (List.range 8).foldl (fun s p =>
      (s.plPort p).retry.foldl (fun s r => if r.step = .rows ∨ !s.plLive p then s else s.fadd (F.PL_LANE_STAT_RETRIES p r.lane) 1) s) s
    { s1 with pl := (s1.pl.zipIdx).map (fun e =>
        if s1.plLive e.2 then
          { e.1 with lanes := List.replicate 17 wakeLine
                     retry := (e.1.retry.filter (fun r => r.step == .tsb)).map (fun r => { r with step := .rows }) }
        else e.1) }

/-- LANE_RETRAIN_PHASE: 10 µs of presence detection, or 20 µs of TS-A, end; a lane found unterminated is idle until the wake burst
(R209). -/
def laneRetrainPhase (p : Fin 8) (lane : Fin 17) (terminated : Bool) (s : State) : State :=
  match (s.plPort p.val).retry.find? (fun r => r.lane == lane.val) with
  | none => s
  | some r =>
    let set := fun (s : State) (t : Retrain) => s.modPl p.val (fun q => { q with retry := q.retry.map (fun k =>
      if k.lane = lane.val then { k with step := t } else k) })
    match r.step with
    | .presence => set (s.fput (F.PL_LANE_STAT_PRESENT p.val lane.val) terminated) (if terminated then .tsa else .idle)
    | .tsa => set s .tsb
    | _ => s

/-- What a logical lane's transmitter does. -/
inductive LaneSignal where
  | idle | detect | tsa
  | tsb (remap : Bool)
  | bits (line : List Bool)
  deriving DecidableEq, Repr

/-- The signal of a lane now (R192, R195, R199, R209). TS-B in the blanking says REMAP = 0 on a reversed port too (DESIGN CHOICE, log
entry 28). -/
def State.laneSignal (s : State) (p l : Nat) : LaneSignal :=
  let q := s.plPort p
  match q.stage with
  | .presence => .detect
  | .tsa => .tsa
  | .tsb => .tsb false
  | .reversal => .tsb true
  | .none =>
    if !(s.plLive p && s.tim.run) then .idle
    else match q.retry.find? (fun r => r.lane == l) with
    | some ⟨_, .presence, _⟩ => .detect
    | some ⟨_, .idle, _⟩ => .idle
    | some ⟨_, .tsa, _⟩ => .tsa
    | some ⟨_, .tsb, _⟩ => .tsb false
    | _ => if (q.lanes.getD l []).isEmpty then .idle else .bits (q.lanes.getD l [])

/-- `n` UI of a lane's signal; a detecting or idle lane carries no bits. TS-B begins at block number `seq`. -/
def LaneSignal.line (x : LaneSignal) (l p seq n : Nat) : List Bool :=
  match x with
  | .idle => []
  | .detect => []
  | .tsa => tsaLine n
  | .tsb remap => (tsbRow l p remap seq).take n
  | .bits b => b.take n

/-- Whether a reset of PL is refused: while TIM runs, and in a mode change, in which TIM does not count as stopped (R132, R402). -/
def State.plHeld (s : State) : Bool := s.tim.run || s.modeQuiet

/-- BLOCK_RESET_PL: while TIM is stopped, every port returns to OFF with its registers at their reset values (R402). -/
def blockResetPl (s : State) : State :=
  if s.plHeld then s.fadd F.CHIP_WRITE_REFUSED_COUNT 1
  else
    ({ s with
      regs := SMap.keep (fun a => decide (a < 0x400000) || decide (0x408000 ≤ a)) s.regs
      pl := List.replicate 8 PlPort.reset }).flushXing 4

/-- SLOT_START. -/
def execSlotStart (mismatch : List (Fin 8 × Fin 17 × Nat)) (s : State) : Host.Outcome State Fault Refusal :=
  .next (slotStart mismatch s)
/-- LANE_RETRAIN_PHASE. -/
def execLaneRetrainPhase (p : Fin 8) (lane : Fin 17) (terminated : Bool) (s : State) : Host.Outcome State Fault Refusal :=
  .next (laneRetrainPhase p lane terminated s)
/-- WAKE_BURST. -/
def execWakeBurst (s : State) : Host.Outcome State Fault Refusal := .next (wakeBurst s)
/-- BC_FRAME_RECEIVE. -/
def execBcFrameReceive (p : Fin 8) (drv : Fin 16) (bits : List Bool) (s : State) : Host.Outcome State Fault Refusal :=
  .next (bcFrameReceive p drv bits s)
/-- BC_SLOT_MISSED. -/
def execBcSlotMissed (p : Fin 8) (drv : Fin 16) (badCrc : Bool) (s : State) : Host.Outcome State Fault Refusal :=
  .next (bcSlotMissed p drv badCrc s)
/-- LANE_FAILURE_APPLY. -/
def execLaneFailureApply (p : Fin 8) (s : State) : Host.Outcome State Fault Refusal := .next (laneFailureApply p s)
/-- LANE_RESTORE_APPLY. -/
def execLaneRestoreApply (p : Fin 8) (s : State) : Host.Outcome State Fault Refusal := .next (laneRestoreApply p s)
/-- PL_TRAIN. -/
def execPlTrain (p : Fin 8) (s : State) : Host.Outcome State Fault Refusal :=
  .next (s.onReg (R.PL_CTL p) (plTrain p))
/-- PL_FORCE. -/
def execPlForce (p : Fin 8) (mask : LaneMask) (s : State) : Host.Outcome State Fault Refusal :=
  .next (s.onReg (R.PL_CTL p) (plForce p mask))
/-- PL_PRESENCE_DONE. -/
def execPlPresenceDone (p : Fin 8) (terminated : LaneMask) (s : State) : Host.Outcome State Fault Refusal :=
  .next (plPresenceDone p terminated s)
/-- PL_TSA_DONE. -/
def execPlTsaDone (p : Fin 8) (s : State) : Host.Outcome State Fault Refusal := .next (plTsaDone p s)
/-- PL_TSB_DONE. -/
def execPlTsbDone (p : Fin 8) (s : State) : Host.Outcome State Fault Refusal := .next (plTsbDone p s)
/-- PL_STAGE_LIMIT. -/
def execPlStageLimit (p : Fin 8) (s : State) : Host.Outcome State Fault Refusal := .next (plStageLimit p s)
/-- BLOCK_RESET_PL. -/
def execBlockResetPl (s : State) : Host.Outcome State Fault Refusal :=
  .next (s.onReg R.PWR_RESET_CTL blockResetPl)

end Sys2Proof.Machine
end

