-- ==== Sys2Proof/Machine/Copy.lean ====
section
/-! DEFINITION. The Wellin image: its header, section table, records and signature, and the checks of R374
(14_boot_image_identity.md R369 to R374, 12_memory.md R312, R322). A copy is its bytes 0 to TOTAL_LEN − 1. -/

namespace Sys2Proof.Machine

/-! Header, table and records. -/

/-- TOTAL_LEN. -/
def copyLen (c : List Byte) : Nat := leAt c 16 4

/-- IMAGE_VERSION. -/
def copyVersion (c : List Byte) : Nat := leAt c 8 4

/-- A section table entry (R370). -/
structure Sect where
  ty : Nat
  count : Nat
  off : Nat
  len : Nat
  deriving DecidableEq, Repr

/-- The section table. -/
def copySects (c : List Byte) : List Sect :=
  (List.range (leAt c 6 2)).map (fun i =>
    let o := 64 + 16 * i
    ⟨byteAt c o, leAt c (o + 2) 2, leAt c (o + 4) 4, leAt c (o + 8) 4⟩)

/-- Length of the record that begins `b` in a section of a type (R371); FIRMWARE and POLICY are one record. -/
def recLen (ty : Nat) (b : List Byte) : Option Nat :=
  match ty with
  | 1 => some 8
  | 2 => some 224
  | 3 => some 16
  | 4 => some 1028
  | 5 => some (8 + leAt b 4 4)
  | 6 => some 192
  | 7 => if byteAt b 0 = 0 then some 24 else if byteAt b 0 = 1 then some 140 else none
  | 8 => some b.length
  | 9 => some ((4 + leAt b 2 2 + 3) / 4 * 4)
  | 10 => some b.length
  | 11 => some 80
  | _ => none

/-- Cut a section into its records; none where its length is not the sum of theirs. -/
def splitRecs (ty : Nat) : Nat → List Byte → Option (List (List Byte))
  | 0, b => if b.isEmpty then some [] else none
  | n + 1, b =>
    match recLen ty b with
    | none => none
    | some k => if k = 0 ∨ b.length < k then none else (splitRecs ty n (b.drop k)).map (fun l => b.take k :: l)

/-- The records of a section. -/
def Sect.recs (c : List Byte) (e : Sect) : Option (List (List Byte)) := splitRecs e.ty e.count (sliceB c e.off e.len)

/-- The records of the section of a type; none of them where it is absent. -/
def copyRecs (c : List Byte) (ty : Nat) : List (List Byte) :=
  (((copySects c).find? (fun e => e.ty == ty)).bind (Sect.recs c)).getD []

/-- Whether a copy holds a section of a type. -/
def copyHas (c : List Byte) (ty : Nat) : Bool := (copySects c).any (fun e => e.ty == ty)

/-- Cause 1: HEADER. Reserved header bytes that are not 0 fail it (log entry 50). -/
def headerOk (c : List Byte) : Bool :=
  leAt c 0 4 == 0x4E4C4557 && leAt c 4 2 == 1 && decide (1 ≤ leAt c 6 2) && decide (leAt c 6 2 ≤ 11) &&
  decide (copyLen c ≤ 0x2000000) && zeroAt c 25 39

/-- Cause 2: PART. -/
def State.partOk (s : State) (c : List Byte) : Bool :=
  leAt c 20 4 == 0x82007EF0 && decide (byteAt c 13 ≤ 0x20) && decide (0x20 ≤ byteAt c 14) &&
  bitOf (byteAt c 15) (b2n s.fuses.gradeX)

/-- Whether two ranges overlap. -/
def overlaps (a b : Sect) : Bool := decide (a.off < b.off + b.len) && decide (b.off < a.off + a.len)

/-- Whether a list has no two elements related by `r`. -/
def pairless (r : α → α → Bool) : List α → Bool
  | [] => true
  | a :: l => l.all (fun b => !r a b) && pairless r l

/-- Cause 4: TABLE. -/
def tableOk (c : List Byte) : Bool :=
  let es := copySects c
  let n := es.length
  pairless (fun a b => a.ty == b.ty) es && pairless overlaps es &&
  (List.range n).all (fun i => byteAt c (65 + 16 * i) == 0 && zeroAt c (76 + 16 * i) 4) &&
  es.all (fun e => decide (1 ≤ e.ty) && decide (e.ty ≤ 11) && e.off % 4 == 0 && decide (64 + 16 * n ≤ e.off) &&
    decide (e.off + e.len + 256 ≤ copyLen c) && (e.recs c).isSome &&
    (!([8, 10, 11].contains e.ty) || e.count == 1)) &&
  [2, 3, 8].all (fun t => es.any (fun e => e.ty == t))

/-! Signature. -/

/-- SIGOFF. -/
def sigOff (c : List Byte) : Nat := copyLen c - 256

/-- KEY. -/
def copyKey (c : List Byte) : List Byte := sliceB c (sigOff c) 97

/-- Cause 5: the root slot that KEY's hash names, programmed and not revoked (R373). -/
def State.rootSlot (s : State) (c : List Byte) : Option Nat :=
  [0, 1, 2].find? (fun n => s.fuses.root n == some (Config.sha384 (copyKey c)) && !bitOf s.fuses.revoked n)

/-- Cause 6: SIGNATURE. -/
def sigOk (c : List Byte) : Bool :=
  let o := sigOff c
  Config.ecdsaVerify (copyKey c) (ascii "CHN8200 image" ++ sha384Bytes (c.take o)) (sliceB c (o + 100) 96) &&
  zeroAt c (o + 97) 3 && zeroAt c (o + 196) 60

/-- The first cause, 1 to 7, that staging finds; 0 for none (R374). -/
def State.stageCause (s : State) (c : List Byte) (readOk burnt : Bool) : Nat :=
  if !headerOk c then 1
  else if !s.partOk c then 2
  else if !readOk then 3
  else if !tableOk c then 4
  else if (s.rootSlot c).isNone then 5
  else if !sigOk c then 6
  else if burnt && decide (byteAt c 12 < s.fuses.level) then 7
  else 0

/-! Registers that records load. -/

/-- The bits of a register that hold fields other than read-only ones. -/
def RegDesc.mask (d : RegDesc) : Nat :=
  d.fields.foldl (fun m f => if f.acc = .ro ∨ f.acc = .rc then m else m ||| ((2 ^ (f.hi + 1 - f.lo) - 1) * 2 ^ f.lo)) 0

/-- The writable bits of the register at an address. -/
def regMask (a : Nat) : Nat := ((regDesc a).map RegDesc.mask).getD 0

/-- A load of a register from bytes `o` to `o + 3` of a record. -/
def loadAt (r : List Byte) (a o : Nat) : Nat × W32 := (a, BitVec.ofNat 32 (leAt r o 4 &&& regMask a))

/-- A load of an array of `n` registers. -/
def loadsAt (r : List Byte) (a : Nat → Nat) (o n : Nat) : List (Nat × W32) :=
  (List.range n).map (fun i => loadAt r (a i) (o + 4 * i))

/-! Timing sets. -/

/-- N and D of R392: |156.25 MHz × N / D − f| least, on a tie the smaller D (and then the smaller N). -/
def timeRatio (f : Nat) : Nat × Nat :=
  let err := fun (e : Nat × Nat) => (156250000 * (e.1 : Int) - (f : Int) * (e.2 : Int)).natAbs
  ((List.range 63).flatMap (fun i =>
    let d := i + 1
    let n := f * d / 156250000
    [(max 1 (min 1023 n), d), (max 1 (min 1023 (n + 1)), d)])).foldl
      (fun b e => if err e * b.2 < err b * e.2 then e else b) (1, 1)

/-- The timing of a TIMING record. -/
def recTiming (r : List Byte) : Timing :=
  let nd := timeRatio (leAt r 4 4)
  let w := fun o => leAt r o 4
  { rowCyc := bitsOf (w 8) 11 0
    blank := bitsOf (w 12) 25 16
    active := bitsOf (w 12) 14 0
    npwmLog2 := bitsOf (w 16) 31 30
    recoverRows := bitsOf (w 16) 29 15
    emitRows := bitsOf (w 16) 14 0
    offset := bitsOf (w 20) (F.TIM_LATCH_CFG_OFFSET.hi) (F.TIM_LATCH_CFG_OFFSET.lo)
    n := nd.1
    d := nd.2
    goutCfg := (List.range 16).map (fun i => w (32 + 4 * i))
    goutEdge := (List.range 16).map (fun i => w (96 + 4 * i))
    goutRow := (List.range 16).map (fun i => w (160 + 4 * i)) }

/-- The geometry of a GEOMETRY record, with a timing set's active rows. -/
def recGeom (r : List Byte) (hp : Nat) : Geom :=
  let c := leAt r 4 4
  { ng := bitsOf c 22 16 + 1
    w := bitsOf c 3 0 + 1
    h := bitsOf c 7 4 + 1
    hp := hp
    hx0 := leAt r 8 2
    hy0 := leAt r 10 2
    hpo := bitOf c 8
    mirU := bitOf c 9
    mirV := bitOf c 10 }

/-- The last record of a list whose byte 0 is `n`. -/
def recNamed (l : List (List Byte)) (n : Nat) : Option (List Byte) := (l.filter (fun r => byteAt r 0 == n)).getLast?

/-- The timing set of a TIMING record, with its GEOMETRY record and its CALSET record (R371, R392). -/
def recTSet (geoms cals : List (List Byte)) (r : List Byte) : Option TSet :=
  (recNamed geoms (byteAt r 1)).map (fun g =>
    let t := recTiming r
    let cal := recNamed cals (byteAt r 0)
    { tset := byteAt r 0
      timing := t
      geom := recGeom g t.active
      row0 := leAt r 2 2 % 2 ^ 15
      timLoads := [loadAt r R.TIM_ROW_CFG 8, loadAt r R.TIM_FRAME_CFG 12, loadAt r R.TIM_CLOVER_CFG 16,
          loadAt r R.TIM_LATCH_CFG 20] ++
        loadsAt r R.TIM_GOUT_CFG 32 16 ++ loadsAt r R.TIM_GOUT_EDGE 96 16 ++ loadsAt r R.TIM_GOUT_ROW 160 16 ++
        [(R.CLK_TIME_CFG, BitVec.ofNat 32 (t.n * 65536 + t.d))]
      synLoads := [loadAt g R.SYN_GEOM_CFG 4, loadAt g R.SYN_GEOM_ORIGIN 8]
      drvLoads := match cal with
        | none => []
        | some k => loadsAt k R.DRV_RANGE_FS 4 3 ++ [loadAt k R.DRV_DITHER_CFG 16] ++ loadsAt k R.DRV_STRESS 20 40 ++
            loadsAt k R.DRV_UNIT 180 2
      calGen := cal.bind (fun k => if byteAt k 1 ≤ 1 then some (byteAt k 1) else none)
      calArea := (cal.map (fun k => byteAt k 2)).getD 0 })

/-- The timing sets of a copy, by their numbers; a later record of the same number replaces an earlier one. -/
def copyTSets (c : List Byte) : List TSet :=
  let geoms := copyRecs c 3
  let cals := copyRecs c 6
  (List.range 8).filterMap (fun n => (recNamed (copyRecs c 2) n).bind (recTSet geoms cals))

/-! Causes 8 to 12. -/

/-- Whether nine nine-bit rows are independent over GF(2). -/
def rowsIndependent (rows : List Nat) : Bool :=
  let red := fun (basis : List Nat) (v : Nat) => basis.foldl (fun v b => min v (v ^^^ b)) v
  let basis := rows.foldl (fun b v => let r := red b v; if r = 0 then b else b ++ [r]) []
  basis.length == rows.length

/-- A mask restricted to the home bits (R311): A[8] to A[12] and A[15] to A[18]. -/
def homeBits (m : Nat) : Nat := bitsOf m 7 3 + 32 * bitsOf m 13 10

/-- R312: the restricted matrix is invertible. -/
def masksOk (masks : List Nat) : Bool := rowsIndependent (masks.map homeBits)

/-- The nine masks that a copy loads, or their reset values. -/
def copyMasks (c : List Byte) : List Nat :=
  match copyRecs c 11 with
  | r :: _ => (List.range 9).map (fun k => leAt r (4 * k) 4 % 2 ^ 28)
  | [] => (List.range 9).map (fun k => (regReset (R.MEM_MAP_MASK k)).toNat)

/-- The ten regions (base, size) in units of 64 MiB that a copy loads, or their reset values. -/
def copyRegions (c : List Byte) : List (Nat × Nat) :=
  (List.range 10).map (fun n =>
    let v := match copyRecs c 11 with
      | r :: _ => leAt r (36 + 4 * n) 4
      | [] => (regReset (R.MEM_REGION n)).toNat
    (bitsOf v 8 0, bitsOf v 24 16))

/-- The last value that REGS loads into a register. -/
def copyRegs (c : List Byte) (a : Nat) : Option Nat :=
  ((copyRecs c 1).filter (fun r => leAt r 0 4 == a)).getLast?.map (fun r => leAt r 4 4)

/-- The last value that REGS loads into a register, or its reset value. -/
def copyReg (c : List Byte) (a : Nat) : Nat := (copyRegs c a).getD (regReset a).toNat

/-- The slot sizes that the copy sets: REGS is applied last, after POLICY (R97, R371). -/
def copySlots (c : List Byte) : Nat :=
  (copyRegs c R.SWD_SLOT_CFG).getD (match copyRecs c 10 with
    | r :: _ => leAt r 0 4
    | [] => (regReset R.SWD_SLOT_CFG).toNat)

/-- Whether slot sizes total at most 288 MiB (R97). -/
def slotsFit (z : Nat) : Bool := decide (bitsOf z 9 0 + bitsOf z 19 10 + bitsOf z 29 20 ≤ 288)

/-- HBM bytes of generation `n` at the full size of the timing sets that CALSET assigns it to (R322; log entry 51). -/
def genBytes (sets : List TSet) (n : Nat) : Nat :=
  (sets.filter (fun t => t.calGen == some n)).foldl (fun m t => max m (896 * t.timing.active * t.geom.ng)) 0

/-- R322: the region table. -/
def regionsOk (c : List Byte) : Bool :=
  let rs := copyRegions c
  let r := fun n => rs.getD n (0, 0)
  let sz := copySlots c
  let top := if bitsOf sz 29 20 ≠ 0 then 3 else if bitsOf sz 19 10 ≠ 0 then 2 else if bitsOf sz 9 0 ≠ 0 then 1 else 0
  pairless (fun a b => decide (a.1 < b.1 + b.2) && decide (b.1 < a.1 + a.2)) rs &&
  rs.all (fun a => decide (a.1 + a.2 ≤ 384)) &&
  (r 2).2 == 16 && bitsOf (copyReg c R.DRV_LEDGER_CFG) 4 0 * 16 == (r 2).1 &&
  [0, 1].all (fun n => decide (genBytes (copyTSets c) n ≤ (r (4 + n)).2 * 64 * 2 ^ 20)) &&
  decide (20 * top ≤ (r 6).2) &&
  ((List.range 8).all (fun i => let f := F.CAS_BOVL_CFG_EN i; bitsOf (copyReg c f.addr) f.hi f.lo == 0) || decide (40 ≤ (r 7).2))

/-- A TIMING record meets its layout and R392's limits, and its GEOMETRY record is present. R14 is checked with the reset value of the
synthesis lead, not with what the copy's REGS load into SYN_LEAD_CFG: the spec does not say which (DESIGN CHOICE, log entry 50). -/
def timingRecOk (c : List Byte) (r : List Byte) : Bool :=
  let nd := timeRatio (leAt r 4 4)
  decide (byteAt r 0 < 8) && decide (200000000 * nd.2 ≤ 156250000 * nd.1) && decide (156250000 * nd.1 ≤ 800000000 * nd.2) &&
  zeroAt r 24 8 && (recNamed (copyRecs c 3) (byteAt r 1)).isSome &&
  timingValid (recTiming r) (bitsOf (regReset R.SYN_LEAD_CFG).toNat F.SYN_LEAD_CFG_LEAD.hi F.SYN_LEAD_CFG_LEAD.lo)
    (leAt r 2 2)

/-- Cause 9: TIMING. -/
def timingOk (c : List Byte) : Bool :=
  (copyRecs c 2).all (timingRecOk c) && (recNamed (copyRecs c 2) (byteAt c 24)).isSome

/-- Cause 10: GEOMETRY. A record is checked with the active rows of each timing set that names it, and by itself. -/
def geometryOk (c : List Byte) : Bool :=
  (copyRecs c 3).all (fun g => decide (byteAt g 0 < 8) && zeroAt g 1 3 && zeroAt g 12 4 &&
    (recGeom g (recGeom g 0).h).valid) &&
  (copyTSets c).all (fun t => t.geom.valid)

/-- The 272 lengths of a byte table (R360). -/
def byteLens (t : List Byte) : List Nat := t.flatMap (fun b => [b.toNat / 16, b.toNat % 16])

/-- R360 with R44: two or more codes, Kraft sum exactly 1. -/
def byteTableOk (lens : List Nat) : Bool :=
  lens.length == 272 && decide (2 ≤ (lens.filter (fun n => decide (n ≠ 0))).length) &&
  (lens.foldl (fun a n => if n = 0 then a else a + 2 ^ (15 - n)) 0 == 2 ^ 15)

/-- A CODETAB record. -/
def codetabRecOk (r : List Byte) : Bool :=
  if byteAt r 0 = 0 then
    decide (16 ≤ byteAt r 1) && decide (byteAt r 1 ≤ 31) && dynValid (sliceB r 4 17) && zeroAt r 2 2 && zeroAt r 21 3
  else decide (1 ≤ byteAt r 1) && decide (byteAt r 1 ≤ 3) && byteTableOk (byteLens (sliceB r 4 136)) && zeroAt r 2 2

/-- Cause 11: CODETAB. -/
def codetabOk (c : List Byte) : Bool :=
  (copyRecs c 7).all codetabRecOk &&
  pairless (fun a b => byteAt a 0 == byteAt b 0 && byteAt a 1 == byteAt b 1) (copyRecs c 7)

/-- A REGS record: a register outside the SEC, NVM and RAM windows (R371). -/
def regsRecOk (r : List Byte) : Bool :=
  let a := leAt r 0 4
  (regDesc a).isSome && !(decide (0x70000 ≤ a) && decide (a < 0x90000))

/-- A CERTS record. -/
def certsRecOk (r : List Byte) : Bool :=
  let i := byteAt r 1
  let n := leAt r 2 2
  zeroAt r (4 + n) (r.length - (4 + n)) &&
  match byteAt r 0 with
  | 1 => decide (1 ≤ i) && decide (i ≤ 3)
  | 2 => decide (i ≤ 15)
  | 3 => decide (1 ≤ i) && decide (i ≤ 2) && n == 97
  | _ => false

/-- The POLICY record: length 840, reserved bytes 0, SLOTS within R97. -/
def policyOk (r : List Byte) : Bool :=
  let z := leAt r 0 4
  r.length == 840 && zeroAt r 49 7 && zeroAt r 69 3 && decide (byteAt r 48 < 64) && decide (byteAt r 68 ≤ 16) && slotsFit z

/-- A LUTS record: inside the page. -/
def lutsRecOk (r : List Byte) : Bool :=
  leAt r 0 4 % 4 == 0 && leAt r 4 4 % 4 == 0 && decide (leAt r 0 4 + leAt r 4 4 ≤ 0x40000)

/-- The CALSET records: one AREA for each GEN, and GEN 0 or none at BOOT_TSET. -/
def calsetOk (c : List Byte) : Bool :=
  let rs := copyRecs c 6
  rs.all (fun r => decide (byteAt r 0 < 8) && (decide (byteAt r 1 ≤ 1) || byteAt r 1 == 0xFF) && byteAt r 3 == 0 &&
    zeroAt r 188 4) &&
  pairless (fun a b => byteAt a 1 == byteAt b 1 && byteAt a 1 != 0xFF && byteAt a 2 != byteAt b 2) rs &&
  ((recNamed rs (byteAt c 24)).map (fun r => byteAt r 1 != 1)).getD true

/-- FIRMWARE fits Heath RAM. -/
def firmwareOk (r : List Byte) : Bool := decide (12 ≤ r.length) && decide (leAt r 0 4 + (r.length - 12) ≤ 0x800000)

/-- Cause 12: SECTION. -/
def sectionOk (c : List Byte) : Bool :=
  (copyRecs c 1).all regsRecOk && (copyRecs c 9).all certsRecOk && (copyRecs c 10).all policyOk &&
  (copyRecs c 4).all (fun r => decide (byteAt r 0 < 8) && zeroAt r 1 3) && (copyRecs c 5).all lutsRecOk && calsetOk c &&
  (copyRecs c 8).all firmwareOk && slotsFit (copySlots c)

/-- The first cause, 8 to 12, that applying finds; 0 for none (R374). -/
def applyCause (c : List Byte) : Nat :=
  if !(masksOk (copyMasks c) && regionsOk c) then 8
  else if !timingOk c then 9
  else if !geometryOk c then 10
  else if !codetabOk c then 11
  else if !sectionOk c then 12
  else 0

end Sys2Proof.Machine
end

