-- ==== Sys2Proof/Machine/ByteBlock.lean ====
section
/-! DEFINITION. Byte blocks (13_control_plane.md R358 to R361) and the areas of the eMMC device
(14_boot_image_identity.md R380, R381). -/

namespace Sys2Proof.Machine

/-! Byte blocks. -/

/-- What decoding a byte block gives: its bytes and CLEN, or the DETAIL of SRCERR. -/
inductive ByteRes where
  | ok (bytes : List Byte) (clen : Nat)
  | err (detail : Nat)
  deriving DecidableEq, Repr

/-- ULEN of a byte block. -/
def blkUlen (b : List Byte) : Nat := leAt b 4 3

/-- CLEN of a byte block. -/
def blkClen (b : List Byte) : Nat := leAt b 8 3

/-- Static byte table 0 (R360). -/
def byteTable0 : List Nat := List.replicate 256 9 ++ List.replicate 16 5

/-- The static byte table of an index, given the image's tables 1 to 3. -/
def byteTable (image : List (Nat × List Nat)) (i : Nat) : Option (List Nat) :=
  if i = 0 then some byteTable0 else (image.find? (fun e => e.1 == i)).map (·.2)

/-- The symbols of each length 1 to 15, in increasing symbol order (R45). -/
def byteSyms (lens : List Nat) : List (List Nat) :=
  (List.range 15).map (fun n => (List.range 272).filter (fun s => lens.getD s 0 == n + 1))

/-- Copy `n` bytes, one at a time, from `d` back in the block; the newest byte is first. -/
def copyBack : Nat → Nat → List Byte → List Byte
  | 0, _, out => out
  | n + 1, d, out => copyBack n d (out.getD (d - 1) 0 :: out)

/-- Length and distance of a match with symbol 256 + j (R359). -/
def takeMatch (j : Nat) (bs : List Bool) : Option ((Nat × Nat) × List Bool) :=
  match (if j = 15 then takeBits 8 0 bs else some (0, bs)) with
  | none => none
  | some (x, bs1) =>
    match takeBits 16 0 bs1 with
    | none => none
    | some (d, bs2) => some ((if j = 15 then 19 + x else 4 + j, d + 1), bs2)

/-- Tokens until `left` bytes are decoded, with matches at most `reach` back (R359); `out` is newest first. -/
def takeTokens (tbl : List (List Nat)) (reach : Nat) : Nat → Nat → List Byte → List Bool → Except Nat (List Byte × List Bool)
  | _, 0, out, bs => .ok (out, bs)
  | 0, _, _, _ => .error 1
  | fuel + 1, left, out, bs =>
    match decodeSym tbl 0 0 bs with
    | none => .error 1
    | some (s, bs1) =>
      if s < 256 then takeTokens tbl reach fuel (left - 1) (BitVec.ofNat 8 s :: out) bs1
      else match takeMatch (s - 256) bs1 with
        | none => .error 1
        | some ((l, d), bs2) =>
          if out.length < d ∨ reach < d then .error 3
          else if left < l then .error 4
          else takeTokens tbl reach fuel (left - l) (copyBack l d out) bs2

/-- Whether a header is that of a byte block for which `avail` bytes are there (R358). -/
def blkHeaderOk (b : List Byte) (avail : Nat) : Bool :=
  decide (16 ≤ avail) && byteAt b 0 == 0xB9 && byteAt b 1 == 1 && bitsOf (byteAt b 2) 5 2 == 0 && byteAt b 3 == 0 &&
  byteAt b 7 == 0 && byteAt b 11 == 0 && decide (1 ≤ blkUlen b) && decide (blkUlen b ≤ 65536) &&
  decide (blkClen b ≤ avail) &&
  (if bitOf (byteAt b 2) 7 then blkClen b == blkUlen b + 16 else decide (16 ≤ blkClen b))

/-- Whether bytes begin with a byte block that they hold whole. -/
def blkFormatOk (b : List Byte) : Bool := blkHeaderOk b b.length

/-- The code lengths of an unstored block; none for an invalid dynamic or an absent static table. -/
def blkTable (image : List (Nat × List Nat)) (b : List Byte) : Option (List Nat) :=
  if bitOf (byteAt b 2) 6 then
    let l := byteLens (sliceB b 16 136)
    if 152 ≤ blkClen b ∧ byteTableOk l then some l else none
  else byteTable image (byteAt b 2 % 4)

/-- The body of an unstored block, with matches at most `reach` back. -/
def blkBody (image : List (Nat × List Nat)) (reach : Nat) (b : List Byte) : Except Nat (List Byte) :=
  match blkTable image b with
  | none => .error 6
  | some l =>
    let start := if bitOf (byteAt b 2) 6 then 152 else 16
    match takeTokens (byteSyms l) reach (blkUlen b) (blkUlen b) [] (byteBitsMsb (sliceB b start (blkClen b - start))) with
    | .error e => .error e
    | .ok (out, rest) => if rest.length < 8 && rest.all (· == false) then .ok out.reverse else .error 2

/-- Decode the byte block at the start of `b`, whose matches lie at most `reach` back. -/
def decodeByteWithin (reach : Nat) (image : List (Nat × List Nat)) (b : List Byte) : ByteRes :=
  if !blkFormatOk b then .err 6
  else
    let body := if bitOf (byteAt b 2) 7 then .ok (sliceB b 16 (blkUlen b)) else blkBody image reach b
    match body with
    | .error e => .err e
    | .ok out => if crc32c out = leAt b 12 4 then .ok out (blkClen b) else .err 5

/-- Decode the byte block at the start of `b` (R358, R359): a match lies at most 65,536 bytes back. -/
def decodeByteBlock (image : List (Nat × List Nat)) (b : List Byte) : ByteRes := decodeByteWithin 65536 image b

/-- The stored form of a byte block. -/
def storedBlock (d : List Byte) : List Byte :=
  [0xB9, 0x01, 0x80, 0x00] ++ leBytes 3 d.length ++ [0] ++ leBytes 3 (d.length + 16) ++ [0] ++ leBytes 4 (crc32c d) ++ d

/-- Whether a coding of `d` is a valid block with the table that a descriptor's TAB names, and matches no further back than EFFORT
searches: 4 KiB for 1, else 64 KiB (R361). -/
def codingOk (image : List (Nat × List Nat)) (effort tab : Nat) (d c : List Byte) : Bool :=
  decodeByteWithin (if effort = 1 then 4096 else 65536) image c == .ok d c.length && decide (c.length ≤ d.length + 16) &&
  (if bitOf (byteAt c 2) 7 then true
   else if tab = 15 then bitOf (byteAt c 2) 6 else !bitOf (byteAt c 2) 6 && byteAt c 2 % 4 == tab)

/-- The byte block that a job of an EFFORT and TAB writes for `d`: with EFFORT 0 the stored form; otherwise a coding that the
search chooses freely, or the stored form where that coding would be larger (R358, R361). -/
def encodeByteBlock (image : List (Nat × List Nat)) (effort tab : Nat) (d : List Byte) : List Byte :=
  let c := Config.compressCandidate effort tab d
  if effort ≠ 0 ∧ codingOk image effort tab d c then c else storedBlock d

/-- The image's byte tables 1 to 3. -/
def State.byteTabs (s : State) : List (Nat × List Nat) := (s.img.map Image.byteTabs).getD []

/-! eMMC. -/

/-- Read bytes of the eMMC user area; bytes that nothing has written read 0 (log entry 52). -/
def State.emmcRead (s : State) (a n : Nat) : List Byte := SMap.getMany emmcDefault s.emmc a n

/-- Write bytes of the eMMC user area. -/
def State.emmcWrite (s : State) (a : Nat) (bs : List Byte) : State :=
  { s with emmc := SMap.setMany emmcDefault s.emmc a bs }

/-- An area of the area table (R380). -/
structure Area where
  start : Nat
  sectors : Nat
  ty : Nat
  deriving DecidableEq, Repr

/-- The entry of area `n` in an area table's bytes. -/
def readArea (t : List Byte) (n : Nat) : Area := ⟨leAt t (32 + 32 * n) 4, leAt t (36 + 32 * n) 4, byteAt t (40 + 32 * n)⟩

/-- Whether an area table holds: MAGIC, NAREA, the CRC of its NAREA entries, and areas apart from one another and the table
(R380). -/
def areaTableOk (t : List Byte) : Bool :=
  let n := byteAt t 4
  let as_ := (List.range n).map (readArea t)
  leAt t 0 4 == 0x54414541 && decide (1 ≤ n) && decide (n ≤ 16) && leAt t 8 4 == crc32c (sliceB t 32 (32 * n)) &&
  as_.all (fun a => decide (2 ≤ a.start)) &&
  pairless (fun a b => decide (a.start < b.start + b.sectors) && decide (b.start < a.start + a.sectors)) as_

/-- The area table. -/
def State.areaTable (s : State) : List Byte := s.emmcRead 0 1024

/-- Area `n`, where the table has it. -/
def State.area (s : State) (n : Nat) : Option Area :=
  let t := s.areaTable
  if areaTableOk t ∧ n < byteAt t 4 then some (readArea t n) else none

/-- An area's header sector (R381). -/
def State.areaHdr (s : State) (a : Area) : List Byte := s.emmcRead (512 * a.start) 512

/-- Whether an area's header is that of a valid area of its type. -/
def State.areaValid (s : State) (a : Area) : Bool :=
  leAt (s.areaHdr a) 0 4 == 0x0A7EA001 && byteAt (s.areaHdr a) 4 == a.ty

/-- SEQ of an area. -/
def State.areaSeq (s : State) (a : Area) : Nat := leAt (s.areaHdr a) 8 4

/-- DLEN of an area. -/
def State.areaLen (s : State) (a : Area) : Nat := leAt (s.areaHdr a) 16 8

/-- The data of an area, of which no more than the area holds. -/
def State.areaData (s : State) (a : Area) : List Byte :=
  s.emmcRead (512 * (a.start + 1)) (min (s.areaLen a) (512 * (a.sectors - 1)))

/-- Whether an area's data lie within it and match its CRC. -/
def State.areaCrcOk (s : State) (a : Area) : Bool :=
  decide (s.areaLen a ≤ 512 * (a.sectors - 1)) && leAt (s.areaHdr a) 24 4 == crc32c (s.areaData a)

/-- The header sector of an area is zeroed, so the area is invalid. -/
def State.areaZero (s : State) (a : Area) : State := s.emmcWrite (512 * a.start) (List.replicate 512 0)

/-- The header sector of an area (R381). -/
def areaHeader (ty format ng seq rows0 rows : Nat) (data : List Byte) (turn : Nat) : List Byte :=
  leBytes 4 0x0A7EA001 ++ leBytes 1 ty ++ leBytes 1 format ++ leBytes 2 ng ++ leBytes 4 seq ++
  leBytes 4 (rows0 + rows * 65536) ++ leBytes 8 data.length ++ leBytes 4 (crc32c data) ++ leBytes 6 turn

/-- The areas of a type, in order. -/
def State.areasOf (s : State) (ty : Nat) : List Nat :=
  (List.range 16).filter (fun n => ((s.area n).map (fun a => a.ty == ty)).getD false)

/-- An eMMC command failed. -/
def State.emmcFail (s : State) : State := (s.fadd F.NVM_MEDIA_STAT_EMMC_ERR 1).raise 23

/-! Calibration maps and the ledger (R382). -/

/-- The column groups that an area's NG may name in a load by the service: those of the timing sets whose CALSET records name the area,
or the active geometry's (R381; log entry 52). -/
def State.areaNgs (s : State) (n : Nat) : List Nat :=
  let l := (s.tsets.filter (fun t => t.calGen.isSome && t.calArea == n)).map (fun t => t.geom.ng)
  if l.isEmpty then [s.geom.ng] else l

/-- The checks of R382 on a calibration-map area for generation `gen`; its NG is one of `ngs`. -/
def State.mapOk (s : State) (ngs : List Nat) (a : Area) (gen : Nat) : Bool :=
  let h := s.areaHdr a
  let rows := leAt h 12 4
  let stride := if byteAt h 5 = 0 then 896 else 32
  s.areaValid a && a.ty == 1 && decide (byteAt h 5 ≤ 1) && s.areaCrcOk a && ngs.contains (leAt h 6 2) &&
  decide (bitsOf rows 14 0 + bitsOf rows 30 16 ≤ 17280) &&
  s.areaLen a == stride * bitsOf rows 30 16 * leAt h 6 2 && decide (s.areaLen a ≤ s.regionSize (4 + gen))

/-- Load calibration-map area `n` into a generation (R382): whether it passed, the rows loaded, and the effect. The data are
written in the region whether or not the checks then pass; a failed check leaves VALID = 0 and raises NVM_ERROR. -/
def State.mapFill (s : State) (ngs : List Nat) (n gen : Nat) (ok : Bool) : Option Nat × State :=
  let s0 := s.fput (F.EMC_MAP_CFG_VALID gen) false
  match s.area n with
  | none => (none, s0.raise 23)
  | some a =>
    if !ok then (none, s0.emmcFail)
    else
      let s1 := if s.areaValid a && a.ty == 1 then
          s0.writeIn [4 + gen] (s.regionBase (4 + gen)) ((s.areaData a).take (s.regionSize (4 + gen))) else s0
      if !s.mapOk ngs a gen then (none, s1.raise 23)
      else
        let h := s.areaHdr a
        let rows := leAt h 12 4
        let s2 := ((s1.fset (F.EMC_MAP_BASE_BASE gen) (s.regionBase (4 + gen) / 64)).fset (F.EMC_MAP_CFG_FORMAT gen)
          (byteAt h 5)).fset (F.EMC_MAP_CFG_ROW0 gen) (bitsOf rows 14 0)
        (some (bitsOf rows 30 16), (s2.fset (F.EMC_MAP_CFG_ROWS gen) (bitsOf rows 30 16)).fput (F.EMC_MAP_CFG_VALID gen) true)

/-- Address of row `y` of the ledger (R363). -/
def State.ledgerRow (s : State) (y : Nat) : Nat := s.fget F.DRV_LEDGER_CFG_BASE * 2 ^ 30 + y * 61440

/-- Rows of the ledger from `y` on, of which a write is judged a row at a time (R316), are cleared to 0. -/
def State.clearRows (s : State) (y n : Nat) : State :=
  forBelow n (fun i s => s.writeIn [2] (s.ledgerRow (y + i)) (List.replicate 61440 0)) s

/-- The whole ledger is cleared to 0, in rising order, as one range where it lies within its region; its last MiB holds the last access to
each bank that it reaches, so that the rows it opens are those (R313, R316, R382). -/
def State.ledgerClear (s : State) : State :=
  let a := s.ledgerRow 0
  let n := 17280 * 61440
  if s.inRegions [2] a n then
    ({ s with hbm := SMap.keep (fun q => !placedIn s.mapMasks a (a + n) q) s.hbm } : State).touch (a + n - 2 ^ 20) (2 ^ 20)
  else s.clearRows 0 17280

/-- The rows that a string of byte blocks decodes to; none where one fails or is no row. -/
def ledgerRows (image : List (Nat × List Nat)) : Nat → List Byte → Option (List (List Byte))
  | 0, b => if b.isEmpty then some [] else none
  | n + 1, b =>
    match decodeByteBlock image b with
    | .err _ => none
    | .ok r k => if r.length = 61440 then (ledgerRows image n (b.drop k)).map (fun l => r :: l) else none

/-- The valid LEDGER area with the highest SEQ. -/
def State.ledgerNewest (s : State) : Option Area :=
  ((s.areasOf 2).filterMap s.area).foldl (fun b a =>
    if !s.areaValid a then b
    else match b with
      | none => some a
      | some b' => if s.areaSeq b' < s.areaSeq a then some a else b) none

/-- Restore the ledger from an area, through SNAP, which the DECOMPRESS jobs read with an outcome that no command gives (log entry 10);
cleared after a failed check or a lost read (R316, R382). -/
def State.ledgerFrom (s : State) (a : Area) : State :=
  let h := s.areaHdr a
  let rows := leAt h 12 4
  let s1 := s.clientWrite .job (s.regionBase 3) ((s.areaData a).take (s.regionSize 3))
  match (if s.areaCrcOk a && decide (bitsOf rows 14 0 + bitsOf rows 30 16 ≤ 17280) && decide (s.areaLen a ≤ s.regionSize 3)
      then ledgerRows s.byteTabs (bitsOf rows 30 16) (s.areaData a) else none) with
  | none => s1.ledgerClear.raise 23
  | some l =>
    let (e, s2) := s1.freshEcc
    let (lost, s3) := s2.clientRead .job (s.regionBase 3) (s.areaLen a) e
    if lost then s3.ledgerClear.raise 23
    else (l.zipIdx).foldl (fun s r => s.writeIn [2] (s.ledgerRow (bitsOf rows 14 0 + r.2)) r.1) s3.ledgerClear

end Sys2Proof.Machine
end

