-- ==== Sys2Proof/Machine/Mail.lean ====
section
/-! DEFINITION. The mailboxes (13_control_plane.md R338 to R345): placing and taking messages, reports and responses, and the
host's and servers' commands on them. -/

namespace Sys2Proof.Machine

/-- Mailbox `b`. -/
def State.box (s : State) (b : Nat) : Box := s.boxes.getD b Box.reset

/-- Change mailbox `b`. -/
def State.modBox (s : State) (b : Nat) (f : Box → Box) : State := { s with boxes := modNth s.boxes b f }

/-- Body bytes of a message: LEN, of which a value above 1,008 acts as 1,008 (R339). -/
def msgLen (m : List Byte) : Nat := min 1008 (leAt m 0 2)

/-- EPOCH and MSEQ of a message. -/
def msgKey (m : List Byte) : Nat × Nat := (leAt m 6 2, leAt m 4 2)

/-- The body of a message. -/
def msgBody (m : List Byte) : List Byte := sliceB m 8 (msgLen m)

/-- Heath's epoch. -/
def State.epoch (s : State) : Nat := s.fget F.MBX_HEATH_STAT_EPOCH

/-! Acknowledgement. -/

/-- The attachment that uses a server box: 1 for the primary, 2 for the standby (R344). -/
def State.boxAtt (s : State) (b : Nat) : Option Nat := if b = 1 then s.primary else if b = 2 then s.anyStandby else none

/-- TSF of a MAIL report (R344). -/
def reportTsf (status b : Nat) (m : List Byte) : List Byte :=
  leBytes 1 1 ++ leBytes 1 status ++ leBytes 2 (msgKey m).2 ++ leBytes 1 b ++ leBytes 3 0 ++ leBytes 2 (msgKey m).1

/-- Tell a message's sender its outcome, 0 DELIVERED or 3 DISCARDED: by a report to the server of boxes 1 and 2, by a
response to the device of boxes 3 to 7 (R340, R342, R344, R345). -/
def State.tellSender (s : State) (b from_ status : Nat) (m : List Byte) : State :=
  if b = 0 then s
  else if b ≤ 2 then
    match s.boxAtt b with
    | some i => if ((s.att i).map Att.keyedUp).getD false then s.sendAtt i .mail (reportTsf status b m) [] else s
    | none => s
  else s.mailRespond from_ status m

/-- What became of a message that arrived at an IN. -/
inductive Placed where
  | placed | repeatHeld | repeatTaken | full
  deriving DecidableEq, Repr

/-- A message is placed in box `b`'s IN. -/
def State.fillIn (s : State) (b from_ : Nat) (m : List Byte) : State :=
  s.modBox b (fun x => { x with
    inMsg := some m
    inFrom := from_
    last := some (msgKey m) })

/-- The bit IN_DISC of MBX_BOX_STAT. -/
def inDisc : Nat := 2 ^ 30

/-- The message in an IN, where there is one, is discarded: its box notes it, and its sender learns it (R342). -/
def State.dropIn (s : State) (b : Nat) : State :=
  let x := s.box b
  match x.inMsg with
  | none => s
  | some m =>
    let s1 := (s.modBox b (fun x => { x with inMsg := none })).wset (R.MBX_BOX_STAT b) inDisc
    if b = 0 then s1.raise 15 else s1.tellSender b x.inFrom 3 m

/-- Clear an IN; a message that arrives in the same cycle is discarded with the rest (R342, R366). -/
def State.discardIn (s : State) (b : Nat) : State := (s.dropIn b).modCyc (fun c => { c with cleared := b :: c.cleared })

/-- A message arrives at box `b`'s IN from device or port `from_` (R338, R341, R366). -/
def State.placeIn (s : State) (b from_ : Nat) (m : List Byte) : Placed × State :=
  let x := s.box b
  let again := x.last == some (msgKey m)
  match x.inMsg with
  | some _ =>
    if again then (.repeatHeld, s.fadd (F.MBX_BOX_STAT_DUP b) 1)
    else (.full, (s.fadd (F.MBX_BOX_STAT_FULLREF b) 1).modCyc (fun c => { c with turned := c.turned ++ [(b, from_, m)] }))
  | none =>
    if again then (.repeatTaken, s.fadd (F.MBX_BOX_STAT_DUP b) 1)
    else if s.cyc.cleared.contains b then (.placed, (s.fillIn b from_ m).dropIn b)
    else (.placed, s.fillIn b from_ m)

/-- Discard the message in box 0's OUT, or in a server box's (R342). -/
def State.discardOut (s : State) (b : Nat) : State := if (s.box b).outMsg.isSome then s.clearOut b 4 else s

/-! Heath's messages. -/

/-- The message that Heath makes of a body for box `b` (R339). -/
def State.heathMsg (s : State) (b : Nat) (body : List Byte) : List Byte :=
  leBytes 2 body.length ++ leBytes 1 b ++ leBytes 1 0 ++ leBytes 2 (s.box b).outSeq ++ leBytes 2 s.epoch ++ body

/-- Heath places a message in box `b`'s empty OUT (R338): box 0 raises its level source, boxes 1 and 2 send a MAIL packet,
boxes 3 to 7 a MAIL cell to device `dst`. -/
def State.placeOut (s : State) (b dst : Nat) (body : List Byte) : State :=
  let m := s.heathMsg b body
  let s1 := s.modBox b (fun x => { x with outMsg := some m, outDst := dst, outSeq := (x.outSeq + 1) % 2 ^ 16 })
  if b = 0 then s1.raise 14
  else if b ≤ 2 then
    match s1.boxAtt b with
    | some i => if ((s1.att i).map Att.keyedUp).getD false then s1.sendAtt i .mail (messageTsf b) m else s1.clearOut b 4
    | none => s1.clearOut b 4
  else s1.routeCell (s1.ownCell .mail false dst (mailPayload false 0 m))

/-- The messages that a reset leaves in the OUTs of boxes 3 to 7 are sent again as cells, which wait until this device is numbered (R280,
R342; DEDUCED, log entry 43). -/
def State.requeueOut (s : State) : State :=
  [3, 4, 5, 6, 7].foldl (fun s b =>
    match (s.box b).outMsg with
    | none => s
    | some m => s.routeCell (s.ownCell .mail false (s.box b).outDst (mailPayload false 0 m))) s

/-! Box 0. -/

/-- The bytes of a window of words. -/
def State.wordBytes (s : State) (reg : Nat → Nat) (n : Nat) : List Byte :=
  (List.range n).flatMap (fun i => leBytes 4 (s.rget (reg i)).toNat)

/-- The message that the host has composed: as many bytes as its LEN says, BOX forced to 0 (R339). -/
def State.hostMsg (s : State) : List Byte :=
  let w := s.wordBytes R.MBX_IN_DATA 254
  spliceB (w.take (8 + msgLen w)) 2 [0]

/-- SEND (R338, R341): whether it is refused, and its effect. -/
def State.hostSend (s : State) : Bool × State :=
  match s.placeIn 0 0 s.hostMsg with
  | (.placed, s1) =>
    (false, if s1.pstate = 1 ∨ s1.pstate = 2 ∨ s1.pstate = 3 then s1.pwrWake .mbox0 F.PWR_WAKE_CFG_MBOX0 else s1)
  | (.full, s1) => (true, s1)
  | (_, s1) => (false, s1)

/-- MBX_SEND. -/
def mbxSend (s : State) : State := s.hostSend.2

/-- MBX_DONE (R340). -/
def mbxDone (s : State) : State := if (s.box 0).outMsg.isSome then s.clearOut 0 1 else s

/-- MBX_HOST_RESET (R342). -/
def mbxHostReset (s : State) : State := s.discardOut 0

/-- MBX_IN_DATA_WRITE (R338). -/
def mbxInDataWrite (i : Fin 254) (v : W32) (s : State) : State :=
  if (s.box 0).inMsg.isSome then s.fadd (F.MBX_BOX_STAT_FULLREF 0) 1 else s.rset (R.MBX_IN_DATA i.val) v

/-! Boxes 1 and 2. -/

/-- A server's message (R338, R344): its TSF and the message name the attachment's box, or ROLE refuses it; a payload whose length is
not that of its message is refused with PKTFMT (DESIGN CHOICE, log entry 41). -/
def State.mailTake (s : State) (a : Att) (o : Origin) (pkt : Pkt) : State :=
  let m := pkt.payload
  if m.length < 8 ∨ m.length ≠ 8 + msgLen m then s.refusePkt o ⟨0x06, leAt pkt.hdr.encode 0 4⟩
  else if byteAt pkt.hdr.tsf 4 ≠ a.box ∨ byteAt m 2 ≠ a.box then s.refusePkt o ⟨0x11, a.role.code⟩
  else match s.placeIn a.box o.port m with
    | (.full, s1) => s1.refusePkt o ⟨0x18, (msgKey m).2 * 65536 + a.box * 256⟩
    | (.repeatTaken, s1) => s1.tellSender a.box o.port 0 m
    | (_, s1) => s1

/-- Whether the MAIL packet next to process on a port is of a KIND. -/
def State.mailKind (s : State) (p kind : Nat) : Bool :=
  ((s.headOf p .mail).map (fun h => byteAt h.pkt.hdr.tsf 0 == kind)).getD false

/-- MAIL_MESSAGE. -/
def mailMessage (p : Fin 2) (page : EccResult) (s : State) : State :=
  if s.mailKind p 0 then
    s.processWith p .mail page (fun _ a h s => s.mailTake a ⟨p, h.pkt.hdr.seq⟩ h.pkt)
  else s

/-- A server's report of the message in its box's OUT (R340, R344); any other report has no effect. -/
def State.mailReported (s : State) (a : Att) (t : List Byte) : State :=
  match (s.box a.box).outMsg with
  | none => s
  | some m =>
    if byteAt t 4 = a.box ∧ (leAt t 8 2, leAt t 2 2) = msgKey m ∧ (byteAt t 1 = 0 ∨ byteAt t 1 = 3) then
      s.clearOut a.box (byteAt t 1 + 1)
    else s

/-- MAIL_REPORT. -/
def mailReport (p : Fin 2) (page : EccResult) (s : State) : State :=
  if s.mailKind p 1 then
    s.processWith p .mail page (fun _ a h s => s.mailReported a h.pkt.hdr.tsf)
  else s

/-- MBX_SEND. -/
def execMbxSend (s : State) : Host.Outcome State Fault Refusal :=
  .next (s.onReg R.MBX_HOST_CTL mbxSend)
/-- MBX_DONE. -/
def execMbxDone (s : State) : Host.Outcome State Fault Refusal :=
  .next (s.onReg R.MBX_HOST_CTL mbxDone)
/-- MBX_HOST_RESET. -/
def execMbxHostReset (s : State) : Host.Outcome State Fault Refusal :=
  .next (s.onReg R.MBX_HOST_CTL mbxHostReset)
/-- MBX_IN_DATA_WRITE. -/
def execMbxInDataWrite (i : Fin 254) (v : W32) (s : State) : Host.Outcome State Fault Refusal :=
  .next (s.onReg (R.MBX_IN_DATA i) (mbxInDataWrite i v))
/-- MAIL_MESSAGE. -/
def execMailMessage (p : Fin 2) (page : EccResult) (s : State) : Host.Outcome State Fault Refusal :=
  .next (mailMessage p page s)
/-- MAIL_REPORT. -/
def execMailReport (p : Fin 2) (page : EccResult) (s : State) : Host.Outcome State Fault Refusal :=
  .next (mailReport p page s)

end Sys2Proof.Machine
end

