-- ==== Sys2Proof/Machine/Cascade.lean ====
section
/-! DEFINITION. The cascade (11_cascade.md R273 to R304): ports, cells arriving, enumeration, the time base and alignment,
broadcast commits and overlays, events and wake. Mail cells stand with Heath's services. -/

namespace Sys2Proof.Machine

/-! Cells arriving (R277 to R279). -/

/-- Whether a cell's payload has the form of its type, reserved bits 0 (R277, R282, R286, R287, R290, R294, R297 to R299). -/
def cellFormOk (c : Cell) : Bool :=
  let p := c.payload
  let n := p.length
  match c.ty with
  | 1 => n == 32 && decide (byteAt p 24 < 8) && decide (byteAt p 25 < 32) && decide (byteAt p 26 < 16) && zeroAt p 28 4
  | 2 => n == 8 && zeroAt p 2 2
  | 3 => n == 8 && decide (byteAt p 2 < 2) && zeroAt p 3 1 &&
      decide (leAt p 4 4 < (if byteAt p 0 = 1 then 2 ^ 18 else 2 ^ 19))
  | 4 => n == 16 && zeroAt p 12 4
  | 5 => decide (8 ≤ n) && decide (byteAt p 0 < 2) && zeroAt p 2 6
  | 6 => n == 12 && zeroAt p 3 1 && zeroAt p 10 2
  | 7 => n == 4 && zeroAt p 1 3
  | 8 => decide (8 ≤ n) && decide (byteAt p 0 < 8) && zeroAt p 1 1 && decide (1 ≤ leAt p 6 2) && decide (leAt p 6 2 ≤ 200) &&
      n == 8 + 5 * leAt p 6 2
  | _ => false

/-- Release the cells that an ACK covers, and send what waited (R279). -/
def State.cellAcked (s : State) (n ack : Nat) : State :=
  let s1 := s.modCasPort n (fun q => { q with
    unacked := q.unacked.filter (fun c =>
      let d := (ack + 2 ^ 16 - c.seq % 2 ^ 16) % 2 ^ 16
      decide (d = 0) || decide (2 ^ 15 < d)) })
  s1.pumpCells n (s1.casPort n).waiting.length

/-- A cell framed on port `n`: discarded unless the port carries cells and the cell is sound; its ACK is taken; a sequenced cell
is accepted only with the SEQ expected next (R277, R279). `f` is what an accepted cell of type `ty` does. An excluded device
carries only ECHO, ENUM and WAKE (R284). -/
def State.cellArrive (s : State) (n : Nat) (ty : CType) (bytes : List Byte) (f : Cell → State → State) : State :=
  if !s.casUp n then s
  else match readCell bytes with
    | none => s
    | some c =>
      if c.ty ≠ ty.code ∨ ¬ cellFormOk c then s
      else
        let s1 := s.cellAcked n c.ack
        if cellSequenced c.ty ∧ c.seq ≠ (s1.casPort n).rxNext then s1
        else
          let s2 := if cellSequenced c.ty then s1.modCasPort n (fun q => { q with rxNext := (q.rxNext + 1) % 2 ^ 16 }) else s1
          if s2.carries c.ty then f c s2 else s2

/-! MAIL cells and EVENT cells that arrive for this device (R280, R296 to R298, R345). -/

/-- A message that arrives for this device in a MAIL cell. A message whose length is not that of its cell, or of no numbered
sender, is discarded (log entry 41). -/
def State.mailHere (s : State) (c : Cell) : State :=
  let m := c.payload.drop 8
  let b := byteAt m 2
  if m.length < 8 ∨ m.length ≠ 8 + msgLen m ∨ c.srcNone then s
  else if b < 3 ∨ 7 < b then s.mailRespond c.src 2 m
  else match s.placeIn b c.src m with
    | (.full, s1) => s1.mailRespond c.src 1 m
    | (.repeatTaken, s1) => s1.mailRespond c.src 0 m
    | (_, s1) => s1

/-- A response for this device clears the OUT that holds the message, with the outcome (R340). -/
def State.mailAnswered (s : State) (c : Cell) : State :=
  match s.outBoxOf (c.payload.drop 8) with
  | some b => if byteAt c.payload 1 ≤ 3 then s.clearOut b (byteAt c.payload 1 + 1) else s
  | none => s

/-- What a device does with a MAIL cell that is for it: a message or the response to one (R296, R297). -/
def State.mailTaken (s : State) (c : Cell) : State :=
  if bitOf (byteAt c.payload 0) 0 then s.mailAnswered c else s.mailHere c

/-- A MAIL cell on its way: held until this device knows its ranges, then taken here, or routed; one for every device below is both
(R280). -/
def State.mailArrived (s : State) (c : Cell) : State :=
  if s.holdsRouting c.ty then s.holdCell c
  else if c.all then (s.mailTaken c).forwardAll c
  else if c.dst = s.devNum then s.mailTaken c
  else s.routeCell c

/-- An EVENT cell from below: held until this device knows its ranges, kept by the head, or forwarded (R280, R298). -/
def State.eventArrived (s : State) (c : Cell) : State :=
  if s.isHead && !s.holdsRouting c.ty then
    s.pushTree { src := c.src, source := leAt c.payload 0 2, count := byteAt c.payload 2, turn := leAt c.payload 4 6 }
  else s.routeCell c

/-- The cells that waited for this device's ranges go on, its own with its number (R280). -/
def State.releaseHeld (s : State) : State :=
  let out := if s.numbered then s.cas.held.map (fun c => c.named s.devNum) else s.cas.held
  out.foldl (fun s c => if c.ty = CType.mail.code then s.mailArrived c else s.eventArrived c)
    { s with cas := { s.cas with held := [] } }

/-! Wake (R299). -/

/-- Payload of a WAKE cell. -/
def wakePayload (target : Nat) : List Byte := leBytes 1 target ++ leBytes 3 0

/-- A WAKE cell goes to every downstream port with an enumerated subtree; on one that is not UP yet it waits for the link (R280, R299). -/
def State.forwardWake (s : State) (c : Cell) : State := s.dnPorts.foldl (fun s k => s.putCell (k + 1) c) s

/-- The head that owes its tree a WAKE cell sends it once the tree is UP: it is numbered, and every port of it is UP. -/
def State.wakeSettle (s : State) : State :=
  if s.cas.wakeDue && s.isHead && s.cas.enum.isNone && !s.dnPorts.isEmpty && s.dnPorts.all (fun k => s.casUp (k + 1)) then
    (s.modCas (fun k => { k with wakeDue := false })).forwardWake (s.ownCell .wake true 0 (wakePayload (s.fget F.PWR_STATE_STAT_TARGET)))
  else s

/-- A device wakes with WAKE_FWD: 20 µs of alternating bits on transmit lane 0 of every port that CAS_CTL enables, and the head owes its
tree a WAKE cell. -/
def State.wakeForward (s : State) (ports : List Nat) : State :=
  if s.flag F.CAS_CTL_WAKE_FWD then
    (ports.foldl (fun s n => s.modCasPort n (fun q => { q with bursts := q.bursts + 1 })) s).modCas (fun k =>
      { k with wakeDue := s.isHead })
  else s

/-! Enumeration (R281 to R284). -/

/-- Payload of an ENUM cell (R282). -/
def enumPayload (kind level : Nat) (excl : Bool) (value : Nat) : List Byte :=
  leBytes 1 kind ++ leBytes 1 level ++ leBytes 1 (b2n excl) ++ leBytes 1 0 ++ leBytes 4 value

/-- Note the size of the subtree on downstream port `k`. -/
def State.setSize (s : State) (k n : Nat) : State :=
  (s.fset (F.CAS_PORT_SIZE_SIZE k) n).fput (F.CAS_PORT_STAT_NUMBERED (k + 1)) (decide (0 < n))

/-- Devices in this device's range, itself included. -/
def State.subtree (s : State) : Nat := 1 + ((List.range 4).map (fun k => s.fget (F.CAS_PORT_SIZE_SIZE k))).foldl (· + ·) 0

/-- This device is excluded: cells that it no longer carries do not leave (R284). -/
def State.excluded (s : State) : State :=
  let s1 := s.fset F.CAS_STAT_STATE 7
  s1.modCas (fun k => { k with ports := k.ports.map (fun q => { q with waiting := q.waiting.filter (fun c => s1.carries c.ty) }) })

/-- Every port has been treated: a follower reports DONE, and the cells that waited for the ranges are routed. -/
def State.enumEnd (s : State) (excl : Bool) : State :=
  let n := if excl then 0 else s.subtree
  let s1 := ((s.fput F.CAS_STAT_ENUM_BUSY false).fset F.CAS_STAT_SUBTREE n).modCas (fun k => { k with enum := none })
  let s2 := if excl then s1.excluded else s1
  let s3 := if s2.isHead then s2 else s2.putCell 0 (s2.ownCell .enum false 0 (enumPayload 2 0 false n))
  s3.releaseHeld.wakeSettle

/-- Treat the downstream ports from `4 - fuel` on, in order, with `next` the next free number (R281, R284). -/
def State.enumPorts (s : State) (next : Nat) (excl : Bool) : Nat → State
  | 0 => s.enumEnd excl
  | fuel + 1 =>
    let k := 3 - fuel
    if s.casUp (k + 1) then
      let level := s.fget F.CAS_STAT_LEVEL
      let out := excl || level == 9 || decide (2 ^ 18 ≤ next)
      let s1 := s.modCas (fun c => { c with enum := some ⟨next, k, excl⟩ })
      s1.putCell (k + 1) (s1.ownCell .enum false 0 (enumPayload 1 (min 9 (level + 1)) out (if out then 0 else next)))
    else State.enumPorts (s.setSize k 0) next excl fuel

/-- A device takes its number and level and treats its ports (R281); an excluded one takes none (R284). -/
def State.enumBegin (s : State) (num level : Nat) (excl : Bool) : State :=
  let s1 := (((s.fput F.CAS_NUM_VALID (!excl)).fset F.CAS_NUM_NUM (if excl then 0 else num)).fput F.CAS_STAT_NUMBERED
    (!excl)).fset F.CAS_STAT_LEVEL (if excl then 0 else level)
  let s2 := (s1.fput F.CAS_STAT_ENUM_BUSY true)
  let s3 := if !excl ∧ s2.casState = 7 then s2.fset F.CAS_STAT_STATE 2 else s2
  s3.enumPorts (num + 1) excl 4

/-- Whether this device is enumerating. -/
def State.enumerating (s : State) : Bool := s.cas.enum.isSome

/-- The size of the port awaited is known: enumeration goes on with the next (R281). -/
def State.enumGot (s : State) (e : EnumSt) (size : Nat) : State :=
  (s.setSize e.port size).enumPorts (e.next + size) e.excl (3 - e.port)

/-- The head starts enumeration (R281); during one it has no effect (R304). -/
def State.enumStart (s : State) : State :=
  if s.isHead && s.flag F.CAS_CTL_EN && !s.enumerating then s.enumBegin 0 0 false else s

/-- CAS_ENUM: a write of ENUM. -/
def casEnum (s : State) : State := s.enumStart

/-- ENUM_ASSIGN. -/
def enumAssign (n : Fin 5) (cell : List Byte) (s : State) : State :=
  s.cellArrive n .enum cell (fun c s =>
    if n.val = 0 ∧ !s.isHead ∧ byteAt c.payload 0 = 1 then
      s.enumBegin (leAt c.payload 4 4) (byteAt c.payload 1) (bitOf (byteAt c.payload 2) 0)
    else s)

/-- ENUM_DONE. -/
def enumDone (n : Fin 5) (cell : List Byte) (s : State) : State :=
  s.cellArrive n .enum cell (fun c s =>
    match s.cas.enum with
    | none => s
    | some e => if n.val = e.port + 1 ∧ byteAt c.payload 0 = 2 then s.enumGot e (leAt c.payload 4 4) else s)

/-! Ports (R273 to R275, R279, R302). -/

/-- Whether CAS_CTL enables a port: the upstream port of a follower, and the downstream ports of DN_EN (R274). -/
def State.casEnabled (s : State) (n : Nat) : Bool :=
  s.flag F.CAS_CTL_EN && (if n = 0 then !s.isHead else bitOf (s.fget F.CAS_CTL_DN_EN) (n - 1))

/-- Cells held for a link that has gone DOWN are routed again, or discarded (R279, R280): this device consumes one that has become its
own, and a cell for every device below has no other route. -/
def State.rerouteCell (s : State) (c : Cell) : State :=
  if c.all ∨ c.ty = CType.turn.code ∨ c.ty = CType.echo.code ∨ c.ty = CType.enum.code then s
  else if c.ty = CType.mail.code then s.mailArrived c
  else if c.ty = CType.event.code then s.eventArrived c
  else s.routeCell c

/-- The sequence spaces of a link restart, and its cells are routed again (R279). -/
def State.restartLink (s : State) (n : Nat) : State :=
  let q := s.casPort n
  (q.unacked ++ q.waiting).foldl (fun s c => s.rerouteCell c)
    (s.modCasPort n (fun q => { q with txSeq := 0, rxNext := 0, unacked := [], waiting := [] }))

/-- What the loss of the pair's link does (R301): a split pair's half goes on in its own timing. -/
def State.pairDown (s : State) (n : Nat) : State :=
  if s.fget F.CAS_PAIR_CFG_MODE ≠ 0 ∧ s.fget F.CAS_PAIR_CFG_MODE ≠ 3 ∧ n = s.pairPort then
    let s1 := s.fput F.CAS_PAIR_STAT_LINKED false
    if s1.twinPartner then (s1.modCas (fun k => { k with pairLost := true })).raise 12
    else if s1.splitPair then s1.peerUp else s1
  else s

/-- An enumeration under way at a follower ends without its number: the subtree is unnumbered until the next (R304). -/
def State.enumAbort (s : State) : State :=
  if s.enumerating then
    let s1 : State := forBelow 4 (fun k s => s.setSize k 0) s
    (((s1.fput F.CAS_NUM_VALID false).fput F.CAS_STAT_NUMBERED false).fput F.CAS_STAT_ENUM_BUSY false).modCas
      (fun k => { k with enum := none })
  else s

/-- A channel's buffer that has not had a whole copy, as no SWAP for it is held, stays incomplete (R302, R304). -/
def Cas.breakCopies (k : Cas) : Cas :=
  { k with
    chans := k.chans.zipIdx.map (fun e =>
      if k.bcHold.any (fun b => b.kind == 3 && b.arg == e.2) then e.1 else { e.1 with whole := false }) }

/-- The upstream port is lost: a follower goes on in HOLDOVER (R302). Requests without a reply have none any more, so the delay is
invalid until 16 further replies (R286), and a copy that was arriving is broken off (R304). -/
def State.holdover (s : State) : State :=
  let s1 := (if s.casState = 7 then s else s.fset F.CAS_STAT_STATE 4).enumAbort.fput F.CAS_DELAY_VALID false
  s1.modCas (fun k => { k.breakCopies with parent := none, echoes := [], delays := [] })

/-- An UP port goes DOWN (R275, R279, R281, R302). -/
def State.casDown (s : State) (n : Nat) : State :=
  if s.fget (F.CAS_PORT_STAT_STATE n) = 2 then
    let s1 := ((s.fset (F.CAS_PORT_STAT_STATE n) 3).fset (F.CAS_PORT_STAT_LOCKED n) 0).fadd (F.CAS_PORT_STAT_DOWNS n) 1
    let s2 := (s1.restartLink n).pairDown n
    let s3 := if n = 0 then s2.holdover else s2
    match s3.cas.enum with
    | some e => if n = e.port + 1 then s3.enumGot e 0 else s3
    | none => s3
  else s

/-- CAS_PORT_DOWN. -/
def casPortDown (n : Fin 5) (s : State) : State := s.casDown n

/-- A follower's upstream port is UP again: it is unnumbered, and searches its parent's timing where none of its own runs
(R283, R289, R303). -/
def State.upstreamUp (s : State) : State :=
  let s1 := (s.fput F.CAS_NUM_VALID false).fput F.CAS_STAT_NUMBERED false
  if s1.casState = 1 ∨ (s1.casState = 4 ∧ !s1.tim.run) then s1.fset F.CAS_STAT_STATE 2 else s1

/-- A downstream port is UP: its child is due the system fences (R303), and a WAKE cell that waited, or that the head owes (R299). -/
def State.downstreamUp (s : State) (n : Nat) : State :=
  let s1 := s.modCas (fun k => { k with fencesDue := k.fencesDue.filter (fun d => d.1 != n) ++ [(n, 0)] })
  let s2 := if s1.fget F.CAS_PAIR_CFG_MODE ≠ 0 ∧ s1.fget F.CAS_PAIR_CFG_MODE ≠ 3 ∧ n = s1.pairPort then
      s1.fput F.CAS_PAIR_STAT_LINKED true else s1
  (s2.pumpCells n (s2.casPort n).waiting.length).wakeSettle

/-- Whether the ALIGN blocks of a cascade port's lanes are consistent (R217, R275): four of them, lanes 0 to 3 each named once, byte 2
0x80, and one count. -/
def casLanesOk (lanes : List CasLane) : Bool :=
  lanes.length == 4 && (lanes.map (fun l => l.logical)).eraseDups.length == 4 &&
    lanes.all (fun l => l.logical.toNat < 4 && l.port == 0x80) && lanes.all (fun l => some l.count == (lanes.head?).map (fun h => h.count))

/-- CAS_PORT_UP: the 4 lanes have locked, and what each said in its ALIGN block; lanes that are not consistent leave the port as it was.
The partner may be a head (R217, R274, R275). -/
def casPortUp (n : Fin 5) (partner : CasPartner) (s : State) : State :=
  let st := s.fget (F.CAS_PORT_STAT_STATE n)
  if s.casEnabled n ∧ (st = 1 ∨ st = 3) ∧ casLanesOk partner.lanes then
    let clash := partner.head && (s.isHead || n.val == 0)
    let s1 := ((s.fset (F.CAS_PORT_STAT_STATE n) 2).fset (F.CAS_PORT_STAT_LOCKED n) 15).fput (F.CAS_PORT_STAT_HEADCLASH n) clash
    let s2 := if n.val = 0 then s1.fput F.CAS_STAT_HEADCLASH clash else s1
    if clash then s2 else if n.val = 0 then s2.upstreamUp else s2.downstreamUp n
  else s

/-- CAS starts or stops with CAS_CTL.EN (R281; CAS_STAT): its enabled ports start, the head reads LOCKED and enumerates. -/
def State.casEnable (s : State) (en : Bool) : State :=
  let was := s.flag F.CAS_CTL_EN
  let s0 := s.fput F.CAS_CTL_EN en
  if en = was then s0
  else if en then
    let s1 := forBelow 5 (fun n s => if s.casEnabled n then s.fset (F.CAS_PORT_STAT_STATE n) 1 else s) s0
    if s1.isHead then (s1.fset F.CAS_STAT_STATE 3).enumStart else s1.fset F.CAS_STAT_STATE 1
  else
    let s1 := forBelow 5 (fun n s => (s.casDown n).fset (F.CAS_PORT_STAT_STATE n) 0) s0
    (s1.fset F.CAS_STAT_STATE 0).modCas (fun k => { k with enum := none })

/-- CELL_IDLE_ECHO: 10 µs have passed without a cell towards port `n`'s partner (R279). -/
def cellIdleEcho (n : Fin 5) (s : State) : State :=
  if s.casUp n then s.putCell n (s.ownCell .echo false 0 (leBytes 8 0)) else s

/-- CELL_RETRANSMIT: 20 µs have passed without the oldest cell being acknowledged (R279). -/
def cellRetransmit (n : Fin 5) (s : State) : State :=
  let q := s.casPort n
  if s.casUp n ∧ q.unacked ≠ [] then
    (s.modCasPort n (fun q => { q with wire := q.wire ++ q.unacked.map (fun c => { c with ack := q.rxNext }) })).fadd
      (F.CAS_PORT_STAT_RETX n) 1
  else s

/-- CASCADE_ALIGN_PERIOD: every lane of the port sends an ALIGN and takes one code step (R216, R275, R419). -/
def cascadeAlignPeriod (n : Fin 5) (s : State) : State :=
  if s.fget (F.CAS_PORT_STAT_STATE n) = 0 then s
  else (s.modCasPort n (fun q => { q with
    align := q.align + 1, aligned := q.aligned ++ (List.range 4).map (fun l => alignBlk l 0x80 q.align) })).modTx (138 + 4 * n.val) 4 TxEq.step

/-! Time base and delay (R285, R286). -/

/-- CAS_TIME_SET: a write of CAS_TIME_SET_LO (R285). -/
def casTimeSet (lo : W32) (s : State) : State :=
  if s.isHead then
    let s1 := s.rset R.CAS_TIME_SET_LO lo
    s1.modCas (fun k => { k with setReq := some ((s1.rget R.CAS_TIME_SET_HI).toNat * 2 ^ 32 + lo.toNat) })
  else s

/-- Picoseconds of a count of 2^-16 ns. -/
def psOfUnits (u : Int) : Int := roundDiv (u * 1000) 65536

/-- Payload of an ECHO cell (R286). -/
def echoPayload (kind id ta : Nat) : List Byte := leBytes 1 kind ++ leBytes 1 id ++ leBytes 2 0 ++ leBytes 4 ta

/-- ECHO_REQUEST_SEND. -/
def echoRequestSend (s : State) : State :=
  if !s.isHead ∧ s.casUp 0 then
    let id := (s.cas.echoId + 1) % 256
    let s1 := s.modCas (fun k => { k with echoId := id, echoes := k.echoes ++ [(id, s.clock)] })
    s1.putCell 0 (s1.ownCell .echo false 0 (echoPayload 1 id 0))
  else s

/-- ECHO_REQUEST: the parent replies; the turnaround TA is measured at its balls, a free value. -/
def echoRequest (n : Fin 5) (cell : List Byte) (s : State) : State :=
  s.cellArrive n .echo cell (fun c s =>
    if 1 ≤ n.val ∧ byteAt c.payload 0 = 1 then
      let (v, s0) := s.fresh
      let s1 := s0.modCas (fun k => { k with fencesDue := k.fencesDue.map (fun d => if d.1 = n.val then (d.1, d.2 + 1) else d) })
      s1.putCell n (s1.ownCell .echo false 0 (echoPayload 2 (byteAt c.payload 1) (v % 2 ^ 32)))
    else s)

/-- The reply to the request of an ID gives a new one-way delay: the average of the 16 latest is the estimate (R286). -/
def State.delayNew (s : State) (id d : Nat) : State :=
  let ds := (d :: s.cas.delays).take 16
  let s1 := s.modCas (fun k => { k with delays := ds, echoes := k.echoes.filter (fun e => e.1 != id) })
  if ds.length = 16 then
    (s1.fput F.CAS_DELAY_VALID true).fset F.CAS_DELAY_D (min (2 ^ 20 - 1) (ds.foldl (· + ·) 0 / 16))
  else s1

/-- ECHO_REPLY. -/
def echoReply (n : Fin 5) (cell : List Byte) (s : State) : State :=
  s.cellArrive n .echo cell (fun c s =>
    match s.cas.echoes.find? (fun e => e.1 == byteAt c.payload 1) with
    | none => s
    | some e =>
      if n.val = 0 ∧ !s.isHead ∧ byteAt c.payload 0 = 2 then
        s.delayNew e.1 ((psOfUnits ((s.clock : Int) - (e.2 : Int)) - (leAt c.payload 4 4 : Int)).toNat / 2)
      else s)

/-- ECHO_REPLY_MISSING: the reply to the oldest request has been missing for 1 ms. -/
def echoReplyMissing (s : State) : State :=
  match s.cas.echoes with
  | [] => s
  | _ :: l => (s.fput F.CAS_DELAY_VALID false).modCas (fun k => { k with delays := [], echoes := l })

/-! The parent's ticks (R287, R289, R303). -/

/-- What a TURN cell's payload says of its sender. -/
def readParent (p : List Byte) : Parent :=
  { turn := leAt p 10 6, latch := leAt p 16 8 * 65536, tset := byteAt p 24, mphase := bitsOf (byteAt p 25) 4 3,
    target := bitsOf (byteAt p 25) 2 0 }

/-- The time base takes the value `t`: forward at once, backward by holding the count (R285). Latch instants recorded keep
their place in it. -/
def State.setTime (s : State) (t : Nat) : State :=
  let eff : Int := (s.time : Int) - (s.cas.hold : Int)
  let s1 := s.modLyr (fun l => { l with latchTime := ((l.latchTime : Int) + ((t : Int) - eff)).toNat })
  if s.time ≤ t then { s1 with time := t % 2 ^ 80, cas := { s1.cas with hold := 0 } }
  else { s1 with cas := { s1.cas with hold := s.time - t } }

/-- The value that the time base takes at the arrival of a TURN cell: TX_TIME.TX_FRAC + d, in 2^-16 ns (R287). -/
def State.tickTime (s : State) (p : List Byte) : Nat :=
  leAt p 0 8 * 65536 + leAt p 8 2 + s.fget F.CAS_DELAY_D * 65536 / 1000

/-- The error of the next latch instant against the parent's, within half a turn, in ps; negative is early (R287, R303). -/
def State.latchErr (s : State) (p : Parent) : Int :=
  let len : Int := ((max 1 s.timing.turnUnits : Nat) : Int)
  let adj : Int := roundDiv (s.tim.adjust * ((6400 * s.timing.d : Nat) : Int) * 65536) (((1000 * s.timing.n : Nat) : Int))
  let raw : Int := ((s.lyr.latchTime : Int) + adj - (p.latch : Int)) % len
  psOfUnits (if len < 2 * raw then raw - len else raw)

/-- The window of R288, in ps. -/
def inWindow (e : Int) : Bool := decide (-500 ≤ e) && decide (e ≤ 300)

/-- Largest error rejoined by slewing, in ps: SLEW_LIMIT, or half a turn (R303). -/
def State.slewLimit (s : State) : Int :=
  min (((s.fget F.CAS_SYNC_CFG_SLEW_LIMIT * 1000000 : Nat)) : Int) (psOfUnits ((s.timing.turnUnits / 2 : Nat) : Int))

/-- Enter LOCKED (R289). -/
def State.casLocked (s : State) : State :=
  let s1 := (s.fset F.CAS_STAT_STATE 3).modCas (fun k => { k with slewErr := 0 })
  if (s1.fget F.CAS_PAIR_CFG_MODE = 1 ∨ s1.splitPair) ∧ s1.flag F.CAS_PAIR_CFG_ROLE then s1.fput F.CAS_PAIR_STAT_LINKED true
  else s1

/-- Enter REJOIN (R303); where the parent runs another timing set, the two quiet turns are those of a change to it. -/
def State.casRejoin (s : State) (p : Parent) : State :=
  let s1 := (s.fset F.CAS_STAT_STATE 6).modCas (fun k => { k with slewErr := 0 })
  let s2 := { s1 with tim := { s1.tim with rejoin := 0 } }
  if p.tset ≠ s2.activeSet ∧ s2.tsetValid p.tset ∧ !s2.modeBusy then
    (s2.beginMode p.tset none).modLyr (fun l => { l with modeGo := true })
  else s2

/-- A running follower compares its latch instants with its parent's (R303): LOCKED within the window, SLEW within SLEW_LIMIT
and one timing set, REJOIN otherwise. -/
def State.casCompare (s : State) (p : Parent) (e : Int) : State :=
  if p.tset = s.activeSet ∧ e ≤ s.slewLimit ∧ -s.slewLimit ≤ e then
    if inWindow e then s.casLocked
    else (s.fset F.CAS_STAT_STATE 5).modCas (fun k => { k with slewErr := e })
  else s.casRejoin p

/-- Whether an error exceeds the one TIME cycle that a LOCKED follower corrects (R287). -/
def State.beyondCycle (s : State) (e : Int) : Bool :=
  decide (((6400 * s.timing.d : Nat) : Int) < (((e.natAbs * s.timing.n : Nat)) : Int))

/-- Note the last latch error, and a partner's skew. -/
def State.noteErr (s : State) (e : Int) : State :=
  let s1 := s.fset F.CAS_PHASE_ERR_ERR (uInt 32 (clampInt e (-2147483648) 2147483647))
  if s1.flag F.CAS_PAIR_CFG_ROLE && s1.fget F.CAS_PAIR_CFG_MODE != 0 then
    s1.fset F.CAS_PAIR_STAT_SKEW (uInt 16 (clampInt e (-32768) 32767)) else s1

/-- What a TURN cell of KIND 0 does to a follower with a valid delay, once its time base is set. -/
def State.follow (s : State) (p : Parent) : State :=
  let e := s.latchErr p
  match s.casState with
  | 1 | 2 => if s.tim.run then (s.noteErr e).casCompare p e else s.casLocked
  | 3 =>
    if s.modeBusy || !s.tim.run then s
    else if s.beyondCycle e || p.tset != s.activeSet then (s.noteErr e).casCompare p e
    else (s.noteErr e).modCas (fun k => { k with slewErr := e })
  | 4 | 5 => if s.tim.run then (s.noteErr e).casCompare p e else s.casLocked
  | 6 => if s.tim.restart then s.casLocked else s
  | _ => s

/-- The other device's sequencer state, from the SEQST of a pair's TURN cell (CAS_PAIR_STAT). -/
def State.notePseq (s : State) (n : Nat) (p : List Byte) : State :=
  if s.fget F.CAS_PAIR_CFG_MODE ≠ 0 ∧ s.fget F.CAS_PAIR_CFG_MODE ≠ 3 ∧ n = s.pairPort then
    s.fset F.CAS_PAIR_STAT_PSEQ (bitsOf (byteAt p 26) 1 0 + 4 * bitsOf (byteAt p 26) 3 3)
  else s

/-- What any TURN cell from the parent does: with a valid delay the time base is set and the latch instants follow (R287). -/
def State.parentTick (s : State) (b : List Byte) : State :=
  let p := readParent b
  let s1 := (s.modCas (fun k => { k with parent := some p })).notePseq 0 b
  if s1.flag F.CAS_DELAY_VALID then (s1.setTime (s1.tickTime b)).follow p else s1

/-- TURN_TICK: a TURN cell of KIND 0 from the parent. -/
def turnTick (n : Fin 5) (cell : List Byte) (s : State) : State :=
  s.cellArrive n .turn cell (fun c s =>
    if n.val = 0 ∧ !s.isHead ∧ byteAt c.payload 27 = 0 then s.parentTick c.payload else s)

/-- A twin partner mirrors the lead's sequencer and tells the devices below of a change (R287, R301); as it reads OFF, TIM stops. -/
def State.mirrorSeq (s : State) (q : Nat) : State :=
  let s1 := ((s.fset F.PWD_SEQ_STAT_STATE (bitsOf q 1 0)).fput F.PWD_SEQ_STAT_SAFE (bitOf q 2)).fput F.PWD_SEQ_STAT_FAULT
    (bitOf q 3)
  let s2 := if s1.seqst = s.seqst then s1 else s1.sendTurn 1
  if bitsOf q 1 0 = 0 ∧ bitOf q 2 then s2.timPark.tapSettle.idleSettle else s2

/-- What the other device of a pair asks for is done here too: a fault or a DOWN; a split half in UP lets this one go on (R301). -/
def State.peerSeq (s : State) (q : Nat) : State :=
  if bitOf q 3 then s.faultDown
  else if bitsOf q 1 0 = 3 then s.downRequest
  else if bitsOf q 1 0 = 0 then s
  else s.peerUp

/-- Whether this device is a twin's lead. -/
def State.twinLead (s : State) : Bool := s.fget F.CAS_PAIR_CFG_MODE == 1 && !s.flag F.CAS_PAIR_CFG_ROLE

/-- What the other device of a pair says of its sequencer (R301). -/
def State.pairSeq (s : State) (n : Nat) (b : List Byte) : State :=
  if n = s.pairPort then
    let s1 := s.notePseq n b
    if s1.twinPartner then s1.mirrorSeq (byteAt b 26)
    else if s1.splitPair || s1.twinLead then s1.peerSeq (byteAt b 26)
    else s1
  else s

/-- TURN_SEQST: a TURN cell of KIND 1, from the parent or from a pair's other device. -/
def turnSeqst (n : Fin 5) (cell : List Byte) (s : State) : State :=
  s.cellArrive n .turn cell (fun c s =>
    if byteAt c.payload 27 = 1 then
      (if n.val = 0 ∧ !s.isHead then s.parentTick c.payload else s).pairSeq n c.payload
    else s)

/-! Broadcast commits (R290 to R293). -/

/-- The broadcast commit of a payload (R290). -/
def readBc (p : List Byte) : BCommit := ⟨byteAt p 0, byteAt p 1, leAt p 2 6, leAt p 8 4⟩

/-- Whether a broadcast commit travels downward and names something that exists (R290). -/
def BCommit.downOk (b : BCommit) : Bool :=
  (b.kind == 1 && decide (48 ≤ b.arg) && decide (b.arg ≤ 63)) || (b.kind == 2 && decide (b.arg ≤ 7)) ||
  (b.kind == 3 && decide (b.arg ≤ 7))

/-- Whether the latch instant of a target turn has passed (R291). -/
def State.bcLate (s : State) (b : BCommit) : Bool := s.tim.run && due48 b.target s.lyr.turn

/-- BCOMMIT_RECEIVE: forwarded to the devices below, and held for its target turn; one that is late is applied at once (R291,
R304). -/
def bcommitReceive (n : Fin 5) (cell : List Byte) (s : State) : State :=
  s.cellArrive n .bcommit cell (fun c s =>
    let b := readBc c.payload
    if n.val = 0 ∧ !s.isHead ∧ c.all ∧ b.downOk then
      let s1 := s.forwardAll c
      if s1.bcLate b then ((s1.bcApply b).fadd F.CAS_BC_STAT_LATE 1).raise 10
      else s1.modCas (fun k => { k with bcHold := k.bcHold ++ [b] })
    else s)

/-- BCOMMIT_FENCE: the last CORE cycle before a latch instant; the FENCE cells that target its turn apply (R291). -/
def bcommitFence (s : State) : State := s.bcDue 1

/-- BCOMMIT_MODE: as BCOMMIT_FENCE, for MODE cells (R291, R293). -/
def bcommitMode (s : State) : State := s.bcDue 2

/-- BCOMMIT_SWAP: as BCOMMIT_FENCE, for SWAP cells (R291, R295). -/
def bcommitSwap (s : State) : State := s.swapDue

/-- FENCE_REQUEST: a BCOMMIT of KIND 4 from below; the head takes it, a follower sends it on upward (R280, R292). -/
def fenceRequest (n : Fin 5) (cell : List Byte) (s : State) : State :=
  s.cellArrive n .bcommit cell (fun c s =>
    let b := readBc c.payload
    if 1 ≤ n.val ∧ b.kind = 4 ∧ 48 ≤ b.arg ∧ b.arg ≤ 63 then
      if s.isHead then s.fenceRequested b.arg b.value else s.routeCell c
    else s)

/-! Broadcast overlays (R294, R295). -/

/-- A row segment of a copy joins a channel's inactive buffer: rows come whole and in order from row 0, or the copy is not
complete here. -/
def Bcast.take (q : Bcast) (row x n : Nat) : Bcast :=
  if row = 0 ∧ x = 0 then { q with rows := 0, x := n, width := none, whole := true }
  else if row = q.rows ∧ x = q.x then { q with x := q.x + n }
  else if row = q.rows + 1 ∧ x = 0 ∧ (q.width = none ∨ q.width = some q.x) then
    { q with rows := q.rows + 1, x := n, width := some q.x }
  else { q with whole := false }

/-- Write the pixels of a DATA payload into the inactive buffer of its channel: those inside the channel's image (R294). -/
def State.dataTake (s : State) (p : List Byte) : State :=
  let c := byteAt p 0
  let row := leAt p 2 2
  let x := leAt p 4 2
  let w := s.fget (F.CAS_BOVL_CFG_W c)
  let n := min (leAt p 6 2) (w - x)
  let b := 1 - (s.cas.chans.getD c Bcast.reset).active
  let s1 := s.modCas (fun k => { k with chans := modNth k.chans c (fun q => q.take row x (leAt p 6 2)) })
  if !s.flag (F.CAS_BOVL_CFG_EN c) || n == 0 || decide (s.fget (F.CAS_BOVL_CFG_H c) ≤ row) then s1
  else s1.clientWrite .ovlWr (s1.bcastAddr c b row x) (sliceB p 8 (5 * n))

/-- DATA_CELL. -/
def dataCell (n : Fin 5) (cell : List Byte) (s : State) : State :=
  s.cellArrive n .data cell (fun c s =>
    if n.val = 0 ∧ !s.isHead then (s.dataTake c.payload).forwardAll c else s)

/-- The payload of a DATA cell of a copy: `n` pixels of a row from pixel `x` (R294). -/
def copyPayload (c row x n : Nat) (pixels : List Byte) : List Byte :=
  leBytes 1 c ++ leBytes 1 0 ++ leBytes 2 row ++ leBytes 2 x ++ leBytes 2 n ++ pixels

/-- Send one row segment of a copy: into this device's own inactive buffer and as a DATA cell to every device below. Its pixels are read
as OVL_PF reads them, and are (0, 0, 0, 0) where the read is lost (log entry 45). -/
def State.copySend (s : State) (c : Nat) (k : BCopy) (row x n : Nat) (e : EccResult) : State :=
  let a := s.ovlAddr k.slot k.ovl row x
  let (lost, s1) := s.clientRead .ovlPf a (5 * n) e
  let p := copyPayload c row x n (if lost then List.replicate (5 * n) 0 else s1.hbmRead a (5 * n))
  (s1.dataTake p).forwardAll (s1.ownCell .data true 0 p)

/-- BCAST_COPY_START: the head starts the copy that waits for a channel (R295): rows 0 to min(H, channel H) − 1, each cut to the
channel's W, in cells of at most 200 pixels. What its reads report, and the cell in which
an error falls, are free values (log entry 10). -/
def bcastCopyStart (c : Fin 8) (s : State) : State :=
  let q := s.cas.chans.getD c.val Bcast.reset
  match q.queued, q.copy with
  | some k, none =>
    if !s.isHead then s
    else
      let w := min k.w (s.fget (F.CAS_BOVL_CFG_W c.val))
      let h := min k.h (s.fget (F.CAS_BOVL_CFG_H c.val))
      let s1 := s.modCas (fun z => { z with chans := modNth z.chans c.val (fun b => { b with copy := some k, queued := none }) })
      let (ecc, s0) := s1.freshEcc
      let (v, s2) := if ecc = .clean then (0, s0) else s0.fresh
      let m := ceilDiv w 200
      forBelow h (fun row s => forBelow m (fun j s =>
        s.copySend c.val k row (200 * j) (min 200 (w - 200 * j)) (if row * m + j = v % max 1 (h * m) then ecc else .clean)) s) s2
  | _, _ => s

/-- Whether a DATA cell of a channel is unsent or unacknowledged on a downstream port. -/
def State.copyPending (s : State) (c : Nat) : Bool :=
  [1, 2, 3, 4].any (fun n => ((s.casPort n).unacked ++ (s.casPort n).waiting).any (fun d =>
    d.ty == CType.data.code && byteAt d.payload 0 == c))

/-- BCAST_COPY_DONE: the last cell is acknowledged on every downstream port; the head issues a SWAP cell (R295). -/
def bcastCopyDone (c : Fin 8) (s : State) : State :=
  if (s.cas.chans.getD c.val Bcast.reset).copy.isSome ∧ !s.copyPending c.val then
    (s.issueBc ⟨3, c.val, s.bcTarget, 0⟩).modCas (fun z => { z with
      chans := modNth z.chans c.val (fun b => { b with copy := none }) })
  else s

/-! Events and wake (R298, R299). -/

/-- EVENT_CELL: from below; the head keeps it, a follower forwards it. -/
def eventCell (n : Fin 5) (cell : List Byte) (s : State) : State :=
  s.cellArrive n .event cell (fun c s =>
    if n.val = 0 then s else s.eventArrived c)

/-- WAKE_CELL: every device requests the state, as if its host had. -/
def wakeCell (n : Fin 5) (cell : List Byte) (s : State) : State :=
  s.cellArrive n .wake cell (fun c s =>
    if n.val = 0 ∧ !s.isHead then
      let s1 := s.forwardWake c
      if byteAt c.payload 0 ≤ 3 then s1.pwrRequest .wakeCell (byteAt c.payload 0) else s1
    else s)

/-- CAS_ENUM. -/
def execCasEnum (s : State) : Host.Outcome State Fault Refusal :=
  .next (s.onReg R.CAS_CTL casEnum)

/-- ENUM_ASSIGN. -/
def execEnumAssign (n : Fin 5) (cell : List Byte) (s : State) : Host.Outcome State Fault Refusal := .next (enumAssign n cell s)

/-- ENUM_DONE. -/
def execEnumDone (n : Fin 5) (cell : List Byte) (s : State) : Host.Outcome State Fault Refusal := .next (enumDone n cell s)

/-- CAS_PORT_DOWN. -/
def execCasPortDown (n : Fin 5) (s : State) : Host.Outcome State Fault Refusal := .next (casPortDown n s)

/-- CAS_PORT_UP. -/
def execCasPortUp (n : Fin 5) (partner : CasPartner) (s : State) : Host.Outcome State Fault Refusal := .next (casPortUp n partner s)

/-- CELL_IDLE_ECHO. -/
def execCellIdleEcho (n : Fin 5) (s : State) : Host.Outcome State Fault Refusal := .next (cellIdleEcho n s)

/-- CELL_RETRANSMIT. -/
def execCellRetransmit (n : Fin 5) (s : State) : Host.Outcome State Fault Refusal := .next (cellRetransmit n s)

/-- CASCADE_ALIGN_PERIOD. -/
def execCascadeAlignPeriod (n : Fin 5) (s : State) : Host.Outcome State Fault Refusal := .next (cascadeAlignPeriod n s)

/-- CAS_TIME_SET. -/
def execCasTimeSet (lo : W32) (s : State) : Host.Outcome State Fault Refusal :=
  .next (s.onReg R.CAS_TIME_SET_LO (casTimeSet lo))

/-- ECHO_REQUEST_SEND. -/
def execEchoRequestSend (s : State) : Host.Outcome State Fault Refusal := .next (echoRequestSend s)

/-- ECHO_REQUEST. -/
def execEchoRequest (n : Fin 5) (cell : List Byte) (s : State) : Host.Outcome State Fault Refusal := .next (echoRequest n cell s)

/-- ECHO_REPLY. -/
def execEchoReply (n : Fin 5) (cell : List Byte) (s : State) : Host.Outcome State Fault Refusal := .next (echoReply n cell s)

/-- ECHO_REPLY_MISSING. -/
def execEchoReplyMissing (s : State) : Host.Outcome State Fault Refusal := .next (echoReplyMissing s)

/-- TURN_TICK. -/
def execTurnTick (n : Fin 5) (cell : List Byte) (s : State) : Host.Outcome State Fault Refusal := .next (turnTick n cell s)

/-- TURN_SEQST. -/
def execTurnSeqst (n : Fin 5) (cell : List Byte) (s : State) : Host.Outcome State Fault Refusal := .next (turnSeqst n cell s)

/-- BCOMMIT_RECEIVE. -/
def execBcommitReceive (n : Fin 5) (cell : List Byte) (s : State) : Host.Outcome State Fault Refusal := .next (bcommitReceive n cell s)

/-- BCOMMIT_FENCE. -/
def execBcommitFence (s : State) : Host.Outcome State Fault Refusal := .next (bcommitFence s)

/-- BCOMMIT_MODE. -/
def execBcommitMode (s : State) : Host.Outcome State Fault Refusal := .next (bcommitMode s)

/-- BCOMMIT_SWAP. -/
def execBcommitSwap (s : State) : Host.Outcome State Fault Refusal := .next (bcommitSwap s)

/-- FENCE_REQUEST. -/
def execFenceRequest (n : Fin 5) (cell : List Byte) (s : State) : Host.Outcome State Fault Refusal := .next (fenceRequest n cell s)

/-- DATA_CELL. -/
def execDataCell (n : Fin 5) (cell : List Byte) (s : State) : Host.Outcome State Fault Refusal := .next (dataCell n cell s)

/-- BCAST_COPY_START. -/
def execBcastCopyStart (c : Fin 8) (s : State) : Host.Outcome State Fault Refusal := .next (bcastCopyStart c s)

/-- BCAST_COPY_DONE. -/
def execBcastCopyDone (c : Fin 8) (s : State) : Host.Outcome State Fault Refusal := .next (bcastCopyDone c s)

/-- EVENT_CELL. -/
def execEventCell (n : Fin 5) (cell : List Byte) (s : State) : Host.Outcome State Fault Refusal := .next (eventCell n cell s)

/-- WAKE_CELL. -/
def execWakeCell (n : Fin 5) (cell : List Byte) (s : State) : Host.Outcome State Fault Refusal := .next (wakeCell n cell s)

end Sys2Proof.Machine
end

