-- ==== Sys2Proof/Machine/Heath.lean ====
section
/-! DEFINITION. Heath: taking messages, answering them, forwarding, faults and restarts (13_control_plane.md R340 to R349),
and MAIL cells (11_cascade.md R296, R297). -/

namespace Sys2Proof.Machine

/-- Change Heath's services. -/
def State.modHeath (s : State) (f : Heath → Heath) : State := { s with heath := f s.heath }

/-! Faults and restarts (R342, R349). -/

/-- A map load in progress ends and leaves its generation with VALID = 0 (R349, R378). -/
def State.endMapLoad (s : State) : State :=
  match s.heath.mapLoad with
  | none => s
  | some l => (s.fput (F.EMC_MAP_CFG_VALID l.gen) false).modHeath (fun h => { h with mapLoad := none })

/-- A ledger save in progress ends and leaves its area invalid (R349, R382). -/
def State.endLedgerSave (s : State) : State :=
  match s.heath.ledgerSave with
  | none => s
  | some l =>
    let s1 := match s.area l.area with
      | none => s
      | some a => s.areaZero a
    s1.modHeath (fun h => { h with ledgerSave := none })

/-- A box without requests and responses. -/
def Box.forget (x : Box) : Box := { x with
  req := none
  responses := [] }

/-- What a restart of Heath discards: the messages in every IN, the requests taken, the services that run and the responses
not yet placed (R342, R349). -/
def State.heathStop (s : State) : State :=
  let s1 : State := forBelow 8 (fun b s => s.discardIn b) s
  let s2 := { s1 with
    boxes := s1.boxes.map Box.forget }
  { s2.endMapLoad.endLedgerSave with
    heath := { Heath.reset with
      retries := s.heath.retries } }

/-- Heath's epoch advances by 1. -/
def State.epochNext (s : State) : State := s.fset F.MBX_HEATH_STAT_EPOCH (s.epoch + 1)

/-- A fault inside Heath, while its firmware runs (R349). -/
def State.heathFault (s : State) : State :=
  if s.fget F.MBX_HEATH_STAT_STATE = 1 then
    (((s.fset F.MBX_HEATH_STAT_STATE 3).fadd F.MBX_HEATH_STAT_FAULTS 1).raise 16).heathStop
  else s

/-- HEATH_WATCHDOG_EXPIRY. -/
def heathWatchdogExpiry (s : State) : State := s.heathFault

/-! Requests. -/

/-- Whether the boot ROM serves box 0: in RECOVERY, and in HALTED before the firmware has started (R377). -/
def State.romServes (s : State) : Bool :=
  s.pstate != 2 && s.pstate != 3 &&
  (s.boot.state == 8 || (s.boot.state == 7 && s.fget F.MBX_HEATH_STAT_STATE == 0))

/-- Whether Heath can take messages from box `b`: its firmware runs, and not in STANDBY or DEEP (R343, R345). -/
def State.heathServes (s : State) (b : Nat) : Bool :=
  (s.fget F.MBX_HEATH_STAT_STATE == 1 && s.coreRuns) || (b == 0 && s.romServes)

/-- SVC of a body. -/
def reqSvc (body : List Byte) : Nat := leAt body 0 2
/-- RID of a body. -/
def reqRid (body : List Byte) : Nat := leAt body 2 2
/-- Arguments of a body. -/
def reqArgs (body : List Byte) : List Byte := body.drop 8

/-- Whether a request is for another device (R348). -/
def State.forwards (s : State) (body : List Byte) : Bool :=
  bitOf (leAt body 4 4) 31 && !(s.numbered && leAt body 4 4 % 2 ^ 18 == s.devNum)

/-- The services that exist; the boot ROM has two of them (R347, R377). -/
def State.svcKnown (s : State) (svc : Nat) : Bool :=
  if s.romServes then [0x0001, 0x0022].contains svc
  else [0x0001, 0x0002, 0x0003, 0x0010, 0x0011, 0x0012, 0x0020, 0x0021, 0x0022].contains svc

/-- The bit of SVC_DENY that a service has (R372). -/
def svcDenyBit (svc : Nat) : Option Nat :=
  match svc with
  | 0x0003 => some 0
  | 0x0010 => some 1
  | 0x0011 => some 2
  | 0x0012 => some 3
  | 0x0020 => some 4
  | 0x0021 => some 5
  | 0x0022 => some 6
  | _ => none

/-- Whether POLICY denies a service to box `b`. -/
def State.svcDenied (s : State) (b svc : Nat) : Bool :=
  match s.img, svcDenyBit svc with
  | some im, some k => b != 0 && bitOf (leAt im.policy 58 2) k
  | _, _ => false

/-- Answer a request (R346). -/
def State.respond (s : State) (b dev : Nat) (body : List Byte) (result : Nat) (data : List Byte) : State :=
  s.pushResponse b dev (responseBody (reqSvc body) (reqRid body) result data)

/-- Answer the request of a service that ran on (R346). -/
def State.answerReq (s : State) (svc : Nat) (r : ReqFrom) (result : Nat) (data : List Byte) : State :=
  s.pushResponse r.box r.dev (responseBody svc r.rid result data)

/-- A response to a forwarded request is relayed to its requester, one that says BADSVC with SVC 0xFFFF too (R346, R348); one that answers
none is dropped (log entry 53). -/
def State.relay (s : State) (dev : Nat) (body : List Byte) : State :=
  match s.heath.forwards.find? (fun f => f.dev == dev && (f.svc == reqSvc body % 32768 || reqSvc body == 0xFFFF) && f.req.rid == reqRid body) with
  | none => s
  | some f =>
    (s.modHeath (fun h => { h with forwards := h.forwards.erase f })).pushResponse f.req.box f.req.dev body

/-- What Heath does at once with a message it has taken; a request that is to run, or to be forwarded whatever its SVC, waits as the box's
request. -/
def State.handle (s : State) (b dev : Nat) (m : List Byte) : State :=
  let body := msgBody m
  if 3 ≤ b ∧ 8 ≤ body.length ∧ bitOf (reqSvc body) 15 then s.relay dev body
  else if 16 ≤ (s.box b).responses.length then s.fadd F.MBX_HEATH_STAT_DROPPED 1
  else if body.length < 8 ∨ (!s.forwards body ∧ !s.svcKnown (reqSvc body)) then
    s.pushResponse b dev (responseBody 0xFFFF (reqRid body) 1 [])
  else if !s.forwards body ∧ s.svcDenied b (reqSvc body) then s.respond b dev body 4 []
  else s.modBox b (fun x => { x with req := some (dev, body) })

/-- A message that box 0 turned away in the cycle in which its IN is taken finds it empty (R366); the sender of another box has had its
refusal and sends again (log entry 2). -/
def State.placeTurned (s : State) (b : Nat) : State :=
  match s.cyc.turned.find? (fun e => b == 0 && e.1 == 0) with
  | none => s
  | some e => { (s.uncount (F.MBX_BOX_STAT_FULLREF 0)).fillIn 0 e.2.1 e.2.2 with
      i2cNack := none
      cyc := { (s.uncount (F.MBX_BOX_STAT_FULLREF 0)).cyc with turned := [] } }

/-- Heath takes the message in box `b`'s IN (R340, R347). -/
def State.takeMsg (s : State) (b : Nat) : State :=
  let x := s.box b
  match x.inMsg with
  | none => s
  | some m =>
    if s.heathServes b ∧ x.req.isNone then
      (((s.modBox b (fun x => { x with inMsg := none })).tellSender b x.inFrom 0 m).placeTurned b).handle b x.inFrom m
    else s

/-- MAILBOX_TAKE. -/
def mailboxTake (box : Fin 8) (s : State) : State := s.takeMsg box.val

/-- Whether a body is a request that `p` selects. -/
def State.awaits (s : State) (b : Nat) (p : List Byte → Bool) : Bool :=
  let x := s.box b
  match x.req with
  | some r => p r.2
  | none => ((x.inMsg).map (fun m => p (msgBody m))).getD false

/-- Run the request of box `b` that `p` selects: the one taken, or the one in IN, which Heath then takes first. -/
def State.withReq (s : State) (b : Nat) (p : List Byte → Bool) (f : Nat → List Byte → State → State) : State :=
  if !s.heathServes b || !s.awaits b p then s
  else
    let s1 := if (s.box b).req.isSome then s else s.takeMsg b
    match (s1.box b).req with
    | none => s1
    | some r => if p r.2 then f r.1 r.2 (s1.modBox b (fun x => { x with req := none })) else s1

/-- Run a request of a service that is for this device. -/
def State.runSvc (s : State) (b svc : Nat) (f : Nat → List Byte → State → State) : State :=
  s.withReq b (fun body => decide (8 ≤ body.length) && reqSvc body == svc && !s.forwards body) f

/-! Forwarding (R348). -/

/-- FORWARD_REQUEST. -/
def forwardRequest (box : Fin 8) (s : State) : State :=
  s.withReq box.val (fun body => decide (8 ≤ body.length) && s.forwards body) (fun dev body s =>
    let to_ := leAt body 4 4 % 2 ^ 18
    if !s.numbered then s.respond box.val dev body 5 []
    else
      (s.modHeath (fun h => { h with forwards := h.forwards ++ [⟨⟨box.val, dev, reqRid body⟩, reqSvc body, to_⟩] })).pushResponse 3 to_
        (spliceB body 4 (leBytes 4 (leAt body 4 4 % 2 ^ 31))))

/-- FORWARD_TIMEOUT: the oldest forwarded request has no response within 100 ms. -/
def forwardTimeout (s : State) : State :=
  match s.heath.forwards with
  | [] => s
  | f :: fs => (s.modHeath (fun h => { h with forwards := fs })).answerReq f.svc f.req 8 []

/-- HEATH_RESPONSE_PLACE: the oldest response held is placed once OUT is clear (R347). -/
def heathResponsePlace (box : Fin 8) (s : State) : State :=
  let x := s.box box.val
  match x.responses with
  | [] => s
  | r :: rs =>
    if x.outMsg.isNone ∧ s.heathServes box.val then
      (s.modBox box.val (fun x => { x with responses := rs })).placeOut box.val r.1 r.2
    else s

/-! MAIL cells (R296, R297). -/

/-- Whether a MAIL cell's bytes are a response. -/
def mailRsp (cell : List Byte) : Bool := ((readCell cell).map (fun c => bitOf (byteAt c.payload 0) 0)).getD false

/-- MAIL_CELL: RSP = 0. -/
def mailCell (n : Fin 5) (cell : List Byte) (s : State) : State :=
  if mailRsp cell then s else s.cellArrive n.val .mail cell (fun c s => s.mailArrived c)

/-- MAIL_CELL_RESPONSE: RSP = 1. -/
def mailCellResponse (n : Fin 5) (cell : List Byte) (s : State) : State :=
  if mailRsp cell then s.cellArrive n.val .mail cell (fun c s => s.mailArrived c) else s

/-- HEATH_WATCHDOG_EXPIRY. -/
def execHeathWatchdogExpiry (s : State) : Host.Outcome State Fault Refusal := .next (heathWatchdogExpiry s)
/-- MAILBOX_TAKE. -/
def execMailboxTake (box : Fin 8) (s : State) : Host.Outcome State Fault Refusal := .next (mailboxTake box s)
/-- FORWARD_REQUEST. -/
def execForwardRequest (box : Fin 8) (s : State) : Host.Outcome State Fault Refusal := .next (forwardRequest box s)
/-- FORWARD_TIMEOUT. -/
def execForwardTimeout (s : State) : Host.Outcome State Fault Refusal := .next (forwardTimeout s)
/-- HEATH_RESPONSE_PLACE. -/
def execHeathResponsePlace (box : Fin 8) (s : State) : Host.Outcome State Fault Refusal := .next (heathResponsePlace box s)
/-- MAIL_CELL. -/
def execMailCell (n : Fin 5) (cell : List Byte) (s : State) : Host.Outcome State Fault Refusal := .next (mailCell n cell s)
/-- MAIL_CELL_RESPONSE. -/
def execMailCellResponse (n : Fin 5) (cell : List Byte) (s : State) : Host.Outcome State Fault Refusal :=
  .next (mailCellResponse n cell s)

end Sys2Proof.Machine
end

