-- ==== Sys2Proof/Machine/Memory.lean ====
section
/-! DEFINITION. The memories' own work (12_memory.md): refresh, pages, scrub, and training with its delay lines (R309, R313,
R318 to R320; 15_clocks_resets_power.md R418). -/

namespace Sys2Proof.Machine

/-- Tj in s12.4 °C. -/
def State.tj (s : State) : Int := sInt 16 (s.fget F.CAL_TJ_TJ)

/-! Clients (R314). -/

/-- Lines of 64 bytes in a client's FIFO. -/
def fifoLines (n : Nat) : Nat := [4096, 4096, 7168, 2048, 2048, 1024, 1024, 1024, 256].getD n 0

/-- Whether a client's WORST is its highest level: LEDGER_WR, and of the background clients OVL_WR and FALLOW_JOB, which write (log entry
20). -/
def highWorst (n : Nat) : Bool := n == 1 || n == 5 || n == 6

/-- A client's FIFO level. -/
def State.level (s : State) (n : Nat) : Nat := s.mem.levels.getD n 0

/-- Whether a real-time client is in panic at a level. -/
def State.panicAt (s : State) (n level : Nat) : Bool :=
  let p := s.fget (F.MEM_CLIENT_CFG_PANIC n)
  decide (n < 5) && (if n = 1 then decide (p < level) else decide (level < p))

/-- A client's FIFO has moved: the level it has come to, the furthest it has been and how often it has come into panic are free values, of
which the furthest bounds the level, and a client that has been in panic and was not before has come into it (R314; log entry 20). -/
def State.clientMove (s : State) (n : Nat) : State :=
  let (v, s1) := s.fresh
  let worse := fun (a b : Nat) => if highWorst n then max a b else min a b
  let level := v % (fifoLines n + 1)
  let worst := worse (worse (s.level n) level) (v / 2 ^ 16 % (fifoLines n + 1))
  let entries := if !s.panicAt n worst then 0 else v / 2 ^ 32 % 2 ^ 16 + b2n (!s.panicAt n (s.level n))
  let f := F.MEM_CLIENT_STAT_WORST n
  ((s1.fadd (F.MEM_CLIENT_STAT_PANICS n) entries).fset f (worse (s.fget f) worst)).modMem (fun m => { m with
    levels := setNth m.levels n level })

/-- Whether some real-time client is in panic. -/
def State.inPanic (s : State) : Bool := (List.range 5).any (fun n => s.panicAt n (s.level n))

/-! Refresh (R318, R320). -/

/-- A delay line moves one tap toward its target. -/
def DqLine.step (d : DqLine) : DqLine := { d with code := stepTo d.code d.target }

/-- Delay lines of a pseudo-channel that are not at their targets. -/
def State.dqMoving (s : State) (pc : Nat) : Nat := ((s.mem.dq.getD pc []).filter (fun d => d.code != d.target)).length

/-- A refresh of a pseudo-channel is issued: its rows close, and where the refresh keeps it idle with no command outstanding
each delay line moves at most one tap (R313, R320). -/
def State.refreshIssue (s : State) (pc : Nat) (idle : Bool) : State :=
  let s1 := s.modMem (fun m => { m with openRows := SMap.keep (fun b => b / 48 != pc) m.openRows })
  if idle then
    (s1.fadd F.MPHY_TRAIN_STAT_TAPSTEPS (s1.dqMoving pc)).modMem (fun m => { m with
      dq := modNth m.dq pc (fun l => l.map DqLine.step) })
  else s1

/-- Set the refreshes owed by a pseudo-channel. -/
def State.setOwed (s : State) (pc n : Nat) : State := s.modMem (fun m => { m with owed := setNth m.owed pc n })

/-- REFRESH_DUE: `hot` is what the stack reports, `panic` that the real-time clients in panic, of which there are some, include one with
requests for the pseudo-channel, `idle` as for R320 (R310, R314, R318). -/
def refreshDue (pc : Fin 32) (hot panic idle : Bool) (s : State) : State :=
  if s.mem.selfRefresh || !s.coreRuns then s
  else
    let s0 : State := if s.mem.served then forBelow 5 (fun n s => s.clientMove n) s else s
    let s1 := s0.fput F.MEM_REF_STAT_HOT hot
    let n := s.mem.owed.getD pc.val 0
    if !(panic && s1.inPanic) then forBelow (n + 1) (fun _ s => s.refreshIssue pc.val idle) (s1.setOwed pc.val 0)
    else if n < 8 then (s1.setOwed pc.val (n + 1)).fmax F.MEM_REF_STAT_MAXOWED (n + 1)
    else (s1.fadd F.MEM_REF_STAT_FORCED 1).refreshIssue pc.val idle

/-- Every refresh owed is issued (R318), with its pseudo-channel idle: no client is served as the stack enters self-refresh
(DEDUCED, log entry 29). -/
def State.repayRefresh (s : State) : State :=
  forBelow 32 (fun pc s =>
    forBelow (s.mem.owed.getD pc 0) (fun _ s => s.refreshIssue pc true) (s.setOwed pc 0)) s

/-- PAGE_IDLE_CLOSE: the idle timer of a bank reaches IDLE (R313), which it does not while MEM's clock stands still (R391). -/
def pageIdleClose (pc : Fin 32) (sid : Fin 3) (bank : Fin 16) (s : State) : State :=
  if !s.coreRuns then s
  else s.modMem (fun m => { m with openRows := SMap.drop m.openRows (pc.val * 48 + sid.val * 16 + bank.val) })

/-! Scrub (R309). -/

/-- Lines of Sward. -/
def swardLines : Nat := 0x14000000 / 64

/-- SCRUB_READ: the next line is read, and written back where the read corrected it. An uncorrectable error in Heath data is
a fault inside Heath. -/
def scrubRead (r : EccResult) (s : State) : State :=
  if !s.coreRuns then s
  else
    let line := s.mem.scrub
    let (bad, s1) := (s.modMem (fun m => { m with scrub := (m.scrub + 1) % swardLines })).swardRead r
    if bad && decide (0x12908000 ≤ 64 * line) then s1.heathFault else s1

/-! Training (R319, R418). -/

/-- The tap that a full training finds for line `i` of a pseudo-channel: a free value. -/
def State.dqFound (s : State) (pc i : Nat) : Nat := (Config.freeValue (s.free + 64 * pc + i)).toNat % 64

/-- A line's trim set after a training near set point `k` that found `v`: stored there and at every set point not yet stored
since POR (R418). -/
def storeTrims (stored : List Bool) (k v : Nat) (trims : List Nat) : List Nat :=
  (List.range 8).map (fun j => if j = k ∨ !stored.getD j false then v else trims.getD j 0)

/-- A line after a full training; write lines store their result. -/
def DqLine.trained (stored : List Bool) (k v i : Nat) (d : DqLine) : DqLine :=
  { d with
    code := v
    target := v
    trims := if i < 32 then d.trims else storeTrims stored k v d.trims }

/-- Every pseudo-channel has trained, or the lowest that failed is `failPc` (R319). -/
def State.hbmTrained (s : State) (failPc : Option Nat) : State :=
  let k := trimNearest s.tj
  let s1 := { s.modMem (fun m => { m with
      dq := m.dq.zipIdx.map (fun l => l.1.zipIdx.map (fun d => d.1.trained m.stored k (s.dqFound l.2 d.2) d.2))
      stored := List.replicate 8 true
      served := true }) with
    free := s.free + 2048 }
  let s2 := (s1.fadd F.MPHY_TRAIN_STAT_TRAINS 1).fput F.MPHY_TRAIN_STAT_FAIL failPc.isSome
  (s2.fset F.MPHY_TRAIN_STAT_FAILPC (failPc.getD 0)).fset F.MPHY_TRAIN_STAT_STATE (if failPc.isSome then 0 else 2)

/-- Full training begins. -/
def State.hbmTraining (s : State) : State := s.fset F.MPHY_TRAIN_STAT_STATE 1

/-- MPHY_TRAIN_GO: GO runs full training only while DRV is stopped (R319). -/
def mphyTrainGo (s : State) : State :=
  if s.flag F.DRV_CTL_RUN || !s.coreRuns then s else s.hbmTraining

/-- REFRESH_DUE. -/
def execRefreshDue (pc : Fin 32) (hot panic idle : Bool) (s : State) : Host.Outcome State Fault Refusal :=
  .next (refreshDue pc hot panic idle s)
/-- PAGE_IDLE_CLOSE. -/
def execPageIdleClose (pc : Fin 32) (sid : Fin 3) (bank : Fin 16) (s : State) : Host.Outcome State Fault Refusal :=
  .next (pageIdleClose pc sid bank s)
/-- SCRUB_READ. -/
def execScrubRead (r : EccResult) (s : State) : Host.Outcome State Fault Refusal := .next (scrubRead r s)
/-- MPHY_TRAIN_GO. -/
def execMphyTrainGo (s : State) : Host.Outcome State Fault Refusal :=
  .next (s.onReg R.MPHY_TRAIN_CTL mphyTrainGo)

end Sys2Proof.Machine
end

