-- ==== Sys2Proof/Machine/Thermal.lean ====
section
/-! DEFINITION. The temperature model, thermal limits, calibration runs and voltage scaling (15_clocks_resets_power.md R409 to
R420; 16_electrical_and_package.md R444), and what the always-on clocks do (R391, R393). -/

namespace Sys2Proof.Machine

/-! Temperature model (R412, R413). -/

/-- The s12.4 value of a temperature register's 16 bits. -/
def t16 (v : Nat) : Int := sInt 16 v

/-- The highest of a list of temperatures. -/
def maxTemp : List Int → Int
  | [] => 0
  | t :: ts => ts.foldl max t

/-- Sample the on-die sensors and the power-die sensor. -/
def State.sampleDie (s : State) (die : List (BitVec 16)) (tpd : BitVec 16) : State :=
  let s1 := (die.zipIdx).foldl (fun s d => if d.2 < 16 then s.fset (F.CAL_DIE_TEMP_TEMP d.2) d.1.toNat else s) s
  let tj := maxTemp ((List.range 16).map (fun n => t16 (s1.fget (F.CAL_DIE_TEMP_TEMP n))))
  let s2 := (s1.fset F.CAL_TJ_TJ (uInt 16 tj)).fset F.CAL_TJ_TPD tpd.toNat
  if t16 (s2.fget F.CAL_THERM_STAT_PEAK) < tj then s2.fset F.CAL_THERM_STAT_PEAK (uInt 16 tj) else s2

/-- TEMP of the latest frame of zone `z`'s driver that is at most 100 ms old. -/
def State.zoneReport (s : State) (z : Nat) : Option Nat :=
  match s.cal.frames.getD z none with
  | none => none
  | some (v, at_) => if s.clock - at_ ≤ 100000000 * 65536 then some v else none

/-- Set a zone's value and source. -/
def State.setZone (s : State) (z src : Nat) (v : Int) : State :=
  (s.fset (F.CAL_ZONE_TEMP_SRC z) src).fset (F.CAL_ZONE_TEMP_TEMP z) (uInt 16 v)

/-- A zone's value. -/
def State.zoneTemp (s : State) (z : Nat) : Int := t16 (s.fget (F.CAL_ZONE_TEMP_TEMP z))

/-- First pass: a zone whose driver reports. -/
def State.zoneFirst (s : State) (z : Nat) : State :=
  match s.zoneReport z with
  | none => s
  | some v =>
    let r : Int := 4 * (v : Int) - 640
    s.setZone z 0 (if s.fget (F.CAL_ZONE_TEMP_SRC z) = 0 then s.zoneTemp z + (r - s.zoneTemp z) / 8 else r)

/-- The zone of a list nearest to `z`, the lower on a tie; the list rises. -/
def nearestZone (z : Nat) : List Nat → Option Nat
  | [] => none
  | a :: l => some (l.foldl (fun (b c : Nat) =>
      if ((c : Int) - (z : Int)).natAbs < ((b : Int) - (z : Int)).natAbs then c else b) a)

/-- Second pass: a zone without a report; `rep` are the zones that have one in this tick. -/
def State.zoneSecond (s : State) (rep : List Nat) (z : Nat) : State :=
  match nearestZone z rep with
  | some k => s.setZone z 1 (s.zoneTemp k)
  | none =>
    if s.flag (F.CAL_NTC_VALID 0) then s.setZone z 2 (t16 (s.fget (F.CAL_NTC_TEMP 0)))
    else s.setZone z 3 (t16 (s.fget F.CAL_CFG_TEMP_DEFAULT))

/-- The 1 ms tick of the model. -/
def State.tempTick (s : State) (die : List (BitVec 16)) (tpd : BitVec 16) : State :=
  let s1 := s.sampleDie die tpd
  let zs := List.range s1.geom.ng
  let rep := zs.filter (fun z => (s1.zoneReport z).isSome)
  let s2 := rep.foldl State.zoneFirst s1
  (zs.filter (fun z => !rep.contains z)).foldl (fun s z => s.zoneSecond rep z) s2

/-- ln(x / (1 − x)) of x = code / 4096, in 2^-60: 2·artanh of z = (code − 2048) / 2048 by its series. -/
def lnRatio (code : Nat) : Int :=
  let z : Int := (code : Int) - 2048
  2 * ((List.range 160).foldl (fun (a : Int × Int) k =>
    (a.1 + a.2 / ((2 * k + 1 : Nat) : Int), a.2 * z * z / 4194304)) (0, z * 2 ^ 49)).1

/-- The temperature of an NTC conversion in s12.4 °C, to the nearest (R444; log entry 54). -/
def ntcTemp (code : Nat) : Int :=
  let den : Int := 343500 * 2 ^ 60 + 29815 * lnRatio code
  roundDiv (10 * (16 * 29815 * 3435 * 2 ^ 60) - 43704 * den) (10 * den)

/-- NTC_SAMPLE: an open or shorted input is invalid, and its TEMP a free value (R412, R444). -/
def ntcSample (n : Fin 2) (code : BitVec 12) (s : State) : State :=
  let c := code.toNat
  if 100 * c ≤ 95 * 4096 ∧ 5 * 4096 ≤ 100 * c then
    (s.fput (F.CAL_NTC_VALID n.val) true).fset (F.CAL_NTC_TEMP n.val) (uInt 16 (ntcTemp c))
  else
    let (v, s1) := s.fresh
    (s1.fput (F.CAL_NTC_VALID n.val) false).fset (F.CAL_NTC_TEMP n.val) v

/-! Calibration runs (R416 to R420). -/

/-- The value of set point `k` of a transmitter class: PRE and POST within their ranges. -/
def State.txSet (s : State) (c k : Nat) : Taps :=
  ⟨min 8 (s.fget (F.CAL_TXEQ_SET_PRE (8 * c + k))), min 14 (s.fget (F.CAL_TXEQ_SET_POST (8 * c + k)))⟩

/-- The target of a transmitter class at a temperature (R418). -/
def State.txTarget (s : State) (c : Nat) (t : Int) : Taps :=
  ⟨trimTarget ((List.range 8).map (fun k => (s.txSet c k).pre)) t, trimTarget ((List.range 8).map (fun k => (s.txSet c k).post)) t⟩

/-- The class of a transmitter: PL0 to PL7, the ingest back-channels, the cascade transmitters. -/
def txClass (i : Nat) : Nat := if i < 136 then i / 17 else if i < 138 then 8 else 9

/-- The run in progress latches Tj and TPD, and with them the trim sets it uses. -/
def State.calLatch (s : State) : State :=
  let s1 := s.fset F.CAL_STAT_TJ_RUN (s.fget F.CAL_TJ_TJ)
  s1.modCal (fun c => { c with
    tpdRun := s.fget F.CAL_TJ_TPD
    ran := true
    starting := false
    txNew := (List.range 10).map (fun k => s.txTarget k s.tj) })

/-- Whether runs take place: in RUN and IDLE, and not during a step toward STANDBY or DEEP (R416, R420). -/
def State.calAllowed (s : State) : Bool := decide (s.pstate ≤ 1) && s.pwr.going != some 2 && s.pwr.going != some 3

/-- A start of a run (R416); one that falls while a run is in progress queues one. -/
def State.calAsk (s : State) : State :=
  if !s.calAllowed then s
  else if s.flag F.CAL_STAT_RUNNING then s.fput F.CAL_STAT_QUEUED true
  else (s.fput F.CAL_STAT_RUNNING true).modCal (fun c => { c with starting := true })

/-- CAL_GO. -/
def calGo (s : State) : State := s.calAsk

/-- CAL_RUN_START: time 0 of a run. -/
def calRunStart (s : State) : State := if s.cal.starting then s.calLatch else s

/-- A run in progress and its queue are abandoned (R420). -/
def State.calAbandon (s : State) : State :=
  ((s.fput F.CAL_STAT_RUNNING false).fput F.CAL_STAT_QUEUED false).modCal (fun c => { c with starting := false })

/-- The eye centre that the run found for read line `i` of a pseudo-channel: a free value. -/
def State.eyeFound (s : State) (pc i : Nat) : Nat := (Config.freeValue (s.free + 32 * pc + i)).toNat % 64

/-- A delay line's target after a run: a read line's eye centre, which also replaces V at the set point nearest TJ_RUN; a write
line's trim set at TJ_RUN (R418). -/
def DqLine.aimed (t : Int) (eye i : Nat) (d : DqLine) : DqLine :=
  if i < 32 then { d with target := eye, trims := setNth d.trims (trimNearest t) eye }
  else { d with target := trimTarget d.trims t }

/-- The targets of a run are handed to the appliers. -/
def State.handTargets (s : State) : State :=
  let t := t16 (s.fget F.CAL_STAT_TJ_RUN)
  let tp := t16 s.cal.tpdRun
  let s1 := s.modCal (fun c => { c with
    txeq := c.txeq.zipIdx.map (fun e => { e.1 with target := c.txNew.getD (txClass e.2) ⟨2, 4⟩ })
    conv := c.conv.zipIdx.map (fun r => r.1.zipIdx.map (fun e => (e.1.1, trimTarget (Config.convTrims r.2 e.2) tp))) })
  { s1.modMem (fun m => { m with
      dq := m.dq.zipIdx.map (fun l => l.1.zipIdx.map (fun d => d.1.aimed t (s1.eyeFound l.2 d.2) d.2)) }) with
    free := s1.free + 1024 }

/-- CAL_RUN_END (R417): the targets are handed over, and a queued run starts at once. -/
def calRunEnd (s : State) : State :=
  if s.flag F.CAL_STAT_RUNNING ∧ !s.cal.starting then
    let s1 := (s.handTargets.fadd F.CAL_STAT_RUNS 1).raise 20
    if s1.flag F.CAL_STAT_QUEUED then (s1.fput F.CAL_STAT_QUEUED false).calLatch else s1.fput F.CAL_STAT_RUNNING false
  else s

/-- One code of a converter toward its targets: the current limit before the slope (log entry 55). -/
def convStep : List (Nat × Nat) → List (Nat × Nat)
  | [] => []
  | e :: l => if e.1 ≠ e.2 then (stepTo e.1 e.2, e.2) :: l else e :: convStep l

/-- CONV_TRIM_STEP: while the rail is good and the sequencer in RUN (R419). -/
def convTrimStep (n : Fin 4) (s : State) : State :=
  if s.railIsGood n.val && s.seqRun then s.modCal (fun c => { c with conv := modNth c.conv n.val convStep }) else s

/-- Whether some setting has not reached its target: CAL_STAT.APPLYING. -/
def State.applying (s : State) : Bool :=
  s.cal.txeq.any (fun x => x.code != x.target) || s.cal.conv.any (fun r => r.any (fun e => e.1 != e.2)) ||
  s.mem.dq.any (fun l => l.any (fun d => d.code != d.target))

/-! Thermal limits (R414). -/

/-- MIN and MAX of the grade in s12.4 °C (R1). -/
def State.gradeLimits (s : State) : Int × Int := if s.fuses.gradeX then (-320, 1680) else (0, 1520)

/-- Whether a thermal level is entered at a temperature. -/
def State.levelEnters (s : State) (l : Nat) (t : Int) : Bool :=
  let (lo, hi) := s.gradeLimits
  match l with
  | 1 => decide (t < lo)
  | 2 => decide (t16 (s.fget F.CAL_THERM_CFG_WARN) ≤ t)
  | 3 => decide (hi ≤ t)
  | 4 => decide (hi + 160 ≤ t)
  | _ => true

/-- Whether a thermal level is left at a temperature. -/
def State.levelLeaves (s : State) (l : Nat) (t : Int) : Bool :=
  let (lo, hi) := s.gradeLimits
  let warn := t16 (s.fget F.CAL_THERM_CFG_WARN)
  match l with
  | 1 => decide (lo + 32 ≤ t)
  | 2 => decide (t < warn - 32)
  | 3 => decide (t < hi - 48)
  | 4 => decide (t < warn)
  | _ => true

/-- The level that a tick gives: the highest that is entered, or the present one while it is not left and none higher is
entered. -/
def State.nextLevel (s : State) (t : Int) : Nat :=
  let cur := s.fget F.CAL_THERM_STAT_LEVEL
  let top := (([4, 3, 2, 1] : List Nat).find? (fun l => s.levelEnters l t)).getD 0
  if cur ≤ top ∨ s.levelLeaves cur t then top else cur

/-- CRIT: the device requests IDLE, and from RUN the power-down of R177 starts at once (R414). -/
def State.critEntered (s : State) : State :=
  let s1 := s.pwrAsk 0 1
  if s1.pstate = 0 then s1.downNow else s1

/-- Whether a temperature differs from the last run's by more than DELTA (R416); a run that has just started latches the present ones
(R420). -/
def State.driftBeyond (s : State) : Bool :=
  let d := min 0x100 (max 8 (s.fget F.CAL_CFG_DELTA))
  s.cal.ran && !s.cal.starting && (decide (d < (s.tj - t16 (s.fget F.CAL_STAT_TJ_RUN)).natAbs) ||
    decide (d < (t16 (s.fget F.CAL_TJ_TPD) - t16 s.cal.tpdRun).natAbs))

/-- THERMAL_TICK: the 100 ms tick of the thermal loop. -/
def thermalTick (s : State) : State :=
  let cur := s.fget F.CAL_THERM_STAT_LEVEL
  let next := s.nextLevel s.tj
  let s1 :=
    if next = cur then s
    else
      let a := s.fset F.CAL_THERM_STAT_LEVEL next
      let b := if cur = 0 then a else a.raise 19
      let c := if next = 0 then b else b.raise 19
      if next = 4 then c.critEntered else c
  if s1.flag F.CAL_CTL_EN && s1.driftBeyond then s1.calAsk else s1

/-! Clocks of the always-on domain. -/

/-- AONF_TRIM: once a second; PWR_WAKE_TIMER counts with it outside RUN, down to its last second (R391, R406). -/
def aonfTrim (s : State) : State :=
  let s1 := if s.flag F.CLK_STAT_XTAL then s.fput F.CLK_STAT_TRIMMED true else s
  let n := s1.fget F.PWR_WAKE_TIMER_SECONDS
  if s1.pstate ≠ 0 ∧ 1 < n then s1.fset F.PWR_WAKE_TIMER_SECONDS (n - 1) else s1

/-- AONS_TICK: while CORE is stopped the time base advances by 30,517.578125 ns (R393). -/
def aonsTick (s : State) : State :=
  if s.coreRuns || s.pwr.por then s else { s with
    time := (s.time + 2000000000) % 2 ^ 80
    clock := s.clock + 2000000000
    cyc := Cyc.reset }

/-- XTAL_START. -/
def xtalStart (s : State) : State := s.fput F.CLK_STAT_XTAL true

/-! Voltage scaling (R409 to R411). -/

/-- The word that VOUT_COMMAND carries for a voltage in mV (R409). -/
def voutWord (n : Int) (v : Nat) : Nat :=
  (roundDiv ((v * 2 ^ (-n).toNat : Nat) : Int) ((1000 * 2 ^ n.toNat : Nat) : Int)).toNat % 65536

/-- A VOUT_COMMAND that succeeds. -/
def State.voutSent (s : State) (v : Nat) : State :=
  (s.fset F.PWR_AVS_STAT_VOUT v).modPwr (fun p => { p with avsCmd := voutWord (p.avsExp.getD 0) v })

/-- A PMBus command that fails its retries (R411). -/
def State.pmbusFail (s : State) : State := (s.fput F.PWR_AVS_STAT_FAIL true).raise 21

/-- VOUT_MODE as the device reads it, first at the end of step 2 (R409): LINEAR16 with its exponent, another mode, or no answer. -/
def State.voutModeRead (s : State) (m : Option (BitVec 8)) : State :=
  match m with
  | none => s.pmbusFail
  | some v =>
    if v.toNat / 32 = 0 then s.modPwr (fun p => { p with avsExp := some (sInt 5 (v.toNat % 32)), avsOther := false })
    else (s.fput F.PWR_AVS_STAT_FAIL true).modPwr (fun p => { p with avsOther := true })

/-- Whether the loop of R410 runs: PWR_AVS_STAT.ACTIVE. -/
def State.avsActive (s : State) : Bool := s.pwr.avsOn && s.flag F.PWR_AVS_CFG_EN && !s.flag F.PWR_AVS_STAT_FAIL

/-- A limit clamped to 650 mV to 850 mV. -/
def avsLimit (v : Nat) : Nat := min 850 (max 650 v)

/-- The loop sets v and, where it changed, commands it; on failure VDD_CORE and v stay (R410, R411; log entry 56). -/
def State.avsSet (s : State) (v : Nat) (ack : Bool) : State :=
  if v = s.pwr.avsV then s
  else if ack then (s.modPwr (fun p => { p with avsV := v })).voutSent v
  else s.pmbusFail

/-- Set the consecutive high-margin windows. -/
def State.avsCount (s : State) (n : Nat) : State := s.modPwr (fun p => { p with avsHi := n })

/-- AVS_WINDOW: a 1 ms window with least slack `slack`. -/
def avsWindow (slack : BitVec 6) (ack : Bool) (s : State) : State :=
  if !s.avsActive then s
  else
    let s1 := s.fset F.PWR_AVS_STAT_MARGIN slack.toNat
    if slack.toNat < s.fget F.PWR_AVS_CFG_M_LOW then
      (s1.avsCount 0).avsSet (min (s.pwr.avsV + 10) (avsLimit (s.fget F.PWR_AVS_LIM_VMAX))) ack
    else if s.fget F.PWR_AVS_CFG_M_HIGH < slack.toNat then s1.avsCount (min 10 (s.pwr.avsHi + 1))
    else s1.avsCount 0

/-- AVS_LOWER: the tenth consecutive high-margin window. -/
def avsLower (ack : Bool) (s : State) : State :=
  if s.avsActive ∧ s.pwr.avsHi = 10 then
    (s.avsCount 0).avsSet (max (s.pwr.avsV - 5) (avsLimit (s.fget F.PWR_AVS_LIM_VMIN))) ack
  else s

/-- AVS_RETRY: every 100 ms after a failure one command is retried; FAIL clears when it succeeds (R411). Where VOUT_MODE has had no answer
it is that command, and the mode that it then gives is a free value (log entry 56); after a mode other than LINEAR16 none is sent, and
VDD_CORE stays at 0.750 V (R409). -/
def avsRetry (ack : Bool) (s : State) : State :=
  if s.flag F.PWR_AVS_STAT_FAIL ∧ ack ∧ !s.pwr.avsOther then
    let s1 := s.fput F.PWR_AVS_STAT_FAIL false
    if s.pwr.avsExp.isSome then (s1.voutSent (s.fget F.PWR_AVS_STAT_VOUT)).raise 21
    else
      let (v, s2) := s1.fresh
      (s2.raise 21).voutModeRead (some (BitVec.ofNat 8 v))
  else s

/-- NTC_SAMPLE. -/
def execNtcSample (n : Fin 2) (code : BitVec 12) (s : State) : Host.Outcome State Fault Refusal := .next (ntcSample n code s)
/-- CAL_GO. -/
def execCalGo (s : State) : Host.Outcome State Fault Refusal :=
  .next (s.onReg R.CAL_CTL calGo)
/-- CAL_RUN_START. -/
def execCalRunStart (s : State) : Host.Outcome State Fault Refusal := .next (calRunStart s)
/-- CAL_RUN_END. -/
def execCalRunEnd (s : State) : Host.Outcome State Fault Refusal := .next (calRunEnd s)
/-- CONV_TRIM_STEP. -/
def execConvTrimStep (n : Fin 4) (s : State) : Host.Outcome State Fault Refusal := .next (convTrimStep n s)
/-- THERMAL_TICK. -/
def execThermalTick (s : State) : Host.Outcome State Fault Refusal := .next (thermalTick s)
/-- AONF_TRIM. -/
def execAonfTrim (s : State) : Host.Outcome State Fault Refusal := .next (aonfTrim s)
/-- AONS_TICK. -/
def execAonsTick (s : State) : Host.Outcome State Fault Refusal := .next (aonsTick s)
/-- XTAL_START. -/
def execXtalStart (s : State) : Host.Outcome State Fault Refusal := .next (xtalStart s)
/-- AVS_WINDOW. -/
def execAvsWindow (slack : BitVec 6) (ack : Bool) (s : State) : Host.Outcome State Fault Refusal := .next (avsWindow slack ack s)
/-- AVS_LOWER. -/
def execAvsLower (ack : Bool) (s : State) : Host.Outcome State Fault Refusal := .next (avsLower ack s)
/-- AVS_RETRY. -/
def execAvsRetry (ack : Bool) (s : State) : Host.Outcome State Fault Refusal := .next (avsRetry ack s)

end Sys2Proof.Machine
end

