-- ==== Sys2Proof/Machine/Standby.lean ====
section
/-! DEFINITION. Entry to STANDBY (15_clocks_resets_power.md R403, R404). -/

namespace Sys2Proof.Machine

/-- PLLs H, C and M and the cleaning PLL lock or stop. -/
def State.plls (s : State) (on : Bool) : State :=
  (((s.fput F.CLK_STAT_H_LOCK on).fput F.CLK_STAT_C_LOCK on).fput F.CLK_STAT_M_LOCK on).fput F.CLK_STAT_CLEAN_LOCK on

/-- The enabled ingest ports, bit p for port p. -/
def State.ingEnabled (s : State) : Nat := b2n (s.flag (F.ING_CTL_EN 0)) + 2 * b2n (s.flag (F.ING_CTL_EN 1))

/-- Ports go off and their detectors go on (R299, R404). -/
def State.portsOff (s : State) : State :=
  let s1 := s.modPwr (fun p => { p with ingDet := s.ingEnabled })
  let s2 := forBelow 2 (fun p s => (s.portDown p).fset (F.ING_STAT_STATE p) 0) s1
  forBelow 5 (fun n s =>
    ((s.casDown n).fset (F.CAS_PORT_STAT_STATE n) 0).modCasPort n (fun q => { q with waiting := [] })) s2

/-- The regulator is commanded, unless it has failed (R410, R411). Whether it acknowledges the command in its retries is a free value:
no command tells it of these (log entry 56). -/
def State.voutAsk (s : State) (v : Nat) : State :=
  if s.flag F.PWR_AVS_STAT_FAIL then s
  else
    let (k, s1) := s.fresh
    if k % 2 = 0 then s1.voutSent v else s1.pmbusFail

/-- No job runs, or the running ones are abandoned: refresh debt is repaid and HBM enters self-refresh, ports go off, PLLs
stop, VDD_CORE is commanded to 0.65 V, and STANDBY is reached (R404, R410). -/
def State.standbyEnter (s : State) : State :=
  let s1 := (s.repayRefresh.modMem (fun m => { m with selfRefresh := true })).portsOff
  let s2 := (s1.plls false).modPwr (fun p => { p with avsOn := false, grace := false })
  (s2.voutAsk 650).pwrReached .standby

end Sys2Proof.Machine
end

