-- ==== Sys2Proof/Machine/Jobs.lean ====
section
/-! DEFINITION. The job engine (13_control_plane.md R353 to R366). A job reads its source and writes its output when it
completes; the log says so. -/

namespace Sys2Proof.Machine

/-- Change JOB. -/
def State.modJobs (s : State) (f : Jobs → Jobs) : State := { s with jobs := f s.jobs }

/-- A job ring. -/
def State.jring (s : State) (r : Nat) : JobRing := s.jobs.rings.getD r ⟨[], none, 0⟩

/-- Change a job ring. -/
def State.modRing (s : State) (r : Nat) (f : JobRing → JobRing) : State :=
  s.modJobs (fun j => { j with rings := modNth j.rings r f })

/-- Entries of a ring: 2^N; LOG2 outside 4 to 12 acts as 4 (R353). -/
def State.ringSize (s : State) (r : Nat) : Nat :=
  let n := s.fget (F.JOB_RING_CFG_LOG2 r)
  if 4 ≤ n ∧ n ≤ 12 then 2 ^ n else 16

/-- Whether a ring is stopped, for its RWL fields (R354). -/
def State.ringStopped (s : State) (r : Nat) : Bool := !s.flag (F.JOB_RING_CFG_EN r) && (s.jring r).running.isNone

/-- Whether TAIL may take a value (R353). -/
def State.tailOk (s : State) (r tail : Nat) : Bool :=
  decide ((tail + 65536 - s.fget (F.JOB_RING_HEAD_HEAD r)) % 65536 ≤ s.ringSize r)

/-- JOB_TAIL_WRITE (R353). -/
def jobTailWrite (r : Fin 8) (tail : BitVec 16) (s : State) : State :=
  if s.tailOk r.val tail.toNat then s.fset (F.JOB_RING_TAIL_TAIL r.val) tail.toNat
  else (s.fadd (F.JOB_RING_CFG_TAILREF r.val) 1).modCyc (fun c => { c with tails := c.tails ++ [(r.val, tail.toNat)] })

/-- The engine advances a ring's HEAD; a TAIL written in the same cycle is checked against the new HEAD (R366). -/
def State.headTo (s : State) (r head : Nat) : State :=
  let s1 := s.fset (F.JOB_RING_HEAD_HEAD r) head
  (s.cyc.tails.filter (fun e => e.1 == r && s1.tailOk r e.2)).foldl (fun s e =>
    ((s.uncount (F.JOB_RING_CFG_TAILREF r)).fset (F.JOB_RING_TAIL_TAIL r) e.2).modCyc (fun c => { c with tails := c.tails.erase e })) s1

/-- A ring's BASE is written: the ring is empty, and knows no job id (R354). -/
def State.ringBase (s : State) (r base : Nat) : State :=
  (((s.fset (F.JOB_RING_BASE_BASE r) base).fset (F.JOB_RING_HEAD_HEAD r) 0).fset (F.JOB_RING_TAIL_TAIL r) 0).modRing
    r (fun x => { x with ids := [] })

/-- Whether a ring takes writes of its RWL fields: it is stopped, or was started in this cycle (R10). -/
def State.ringOpen (s : State) (r : Nat) : Bool := s.ringStopped r || s.cyc.starts.contains (.jobRing r)

/-- JOB_BASE_WRITE (R354, R10). -/
def jobBaseWrite (r : Fin 8) (base : BitVec 29) (s : State) : State :=
  if s.ringOpen r.val then s.ringBase r.val base.toNat
  else (s.fadd F.CHIP_WRITE_REFUSED_COUNT 1).modCyc (fun c => { c with refused := c.refused ++ [(R.JOB_RING_BASE r.val, base.toNat)] })

/-! Memory of the JOB client. -/

/-- Whether bytes lie in the Heath data area of Sward. -/
def inHeathData (a n : Nat) : Bool := decide (0x12908000 ≤ a) && decide (a + n ≤ 0x14000000)

/-- Whether an address is in HBM or in the Heath data area (R355, R356). -/
def jobAddrOk (a : Nat) : Bool :=
  if bitOf a 63 then inHeathData (a % 2 ^ 63) 1 else decide (a < 24 * 2 ^ 30)

/-- A job's read of `n` bytes: none where it lies outside its regions. -/
def State.jobRead (s : State) (a n : Nat) : Option (List Byte) × State :=
  if bitOf a 63 then
    if inHeathData (a % 2 ^ 63) n then (some (SMap.getMany swdDefault s.swd (a % 2 ^ 63) n), s) else (none, s)
  else
    let (bad, s1) := s.clientRead .job a n .clean
    if bad then (none, s1) else (some (s1.hbmRead a n), s1)

/-- What a read of a job comes to: its bytes, a range outside its regions, or an uncorrectable error. -/
inductive JobGot where
  | bytes (b : List Byte)
  | range
  | ecc
  deriving DecidableEq, Repr

/-- A read of `n` bytes by the engine whose outcome no command gives: a free value (R309, R316; log entry 10). An uncorrectable error in
the Heath data area is also a fault inside Heath. -/
def State.jobGet (s : State) (a n : Nat) : JobGot × State :=
  let (e, s1) := s.freshEcc
  if bitOf a 63 then
    if !inHeathData (a % 2 ^ 63) n then (.range, s1)
    else
      let (lost, s2) := s1.swardRead e
      if lost then (.ecc, s2.heathFault) else (.bytes (SMap.getMany swdDefault s2.swd (a % 2 ^ 63) n), s2)
  else
    let (lost, s2) := s1.clientRead .job a n e
    if !s1.inRegions Client.job.reads a n then (.range, s2)
    else if lost then (.ecc, s2) else (.bytes (s2.hbmRead a n), s2)

/-- Heath reads `n` bytes of HBM, with an outcome that no command gives: whether they are lost, which is a fault inside it (R316, R349; log
entry 10). -/
def State.heathGet (s : State) (a n : Nat) : Bool × State :=
  let (e, s1) := s.freshEcc
  let (lost, s2) := s1.clientRead .heath a n e
  (lost, if lost then s2.heathFault else s2)

/-- A job's write: whether it lay within its regions. -/
def State.jobWrite (s : State) (a : Nat) (bs : List Byte) : Bool × State :=
  if bitOf a 63 then
    if inHeathData (a % 2 ^ 63) bs.length then (true, { s with swd := SMap.setMany swdDefault s.swd (a % 2 ^ 63) bs })
    else (false, s)
  else (s.inRegions Client.job.writes a bs.length, s.clientWrite .job a bs)

/-! Descriptors. -/

/-- A descriptor (R355) with its token (R357). -/
def readDesc (b : List Byte) : JobDesc :=
  let f := byteAt b 5
  { id := leAt b 0 4
    opcode := byteAt b 4
    effort := f % 4
    resume := bitOf f 2
    irq := bitOf f 3
    tab := f / 16
    bsize := leAt b 6 2
    src := leAt b 8 8
    srcLen := leAt b 16 5
    dst := leAt b 24 8
    dstCap := leAt b 32 5
    tokOff := leAt b 40 5
    tokBlocks := leAt b 45 3
    tokOp := byteAt b 48
    tokTab := byteAt b 49
    arg := leAt b 56 8 }

/-- ROW_FIRST or ROW0 of ARG. -/
def JobDesc.row0 (d : JobDesc) : Nat := bitsOf d.arg 14 0
/-- ROWS of ARG. -/
def JobDesc.rows (d : JobDesc) : Nat := bitsOf d.arg 30 16

/-- Input bytes of one block, but for the byte blocks of DECOMPRESS (R357, R362 to R364). -/
def JobDesc.blockLen (d : JobDesc) : Nat :=
  match d.opcode with
  | 0 => 4096 * d.bsize
  | 1 => 4096 * d.bsize
  | 3 => 61440
  | 4 => 5760
  | _ => 1920

/-- Input bytes of a job (R362); those of LEDGER_SNAP and CALPACK follow from ARG. -/
def JobDesc.total (d : JobDesc) : Nat :=
  match d.opcode with
  | 3 => 61440 * d.rows
  | 4 => min d.srcLen (5760 * (d.rows * (bitsOf d.arg 38 32 + 1)))
  | _ => d.srcLen

/-- BADDESC (R356). -/
def State.descBad (s : State) (d : JobDesc) : Bool :=
  decide (5 < d.opcode) || (decide (3 < d.tab) && d.tab != 15) ||
  (decide (d.tab ≤ 3) && (byteTable s.byteTabs d.tab).isNone) ||
  (d.opcode != 3 && d.opcode != 5 && (d.bsize == 0 || decide (16 < d.bsize) || !jobAddrOk d.src)) || !jobAddrOk d.dst

/-- BADTOKEN, as far as the descriptor shows it (R357). -/
def JobDesc.tokenBad (d : JobDesc) : Bool :=
  d.resume && (d.tokOp != d.opcode || d.tokTab != d.tab || d.opcode == 5 || decide (d.total < d.tokOff) ||
    (d.opcode != 2 && d.tokOff % d.blockLen != 0))

/-- The status with which a descriptor's token ends its job at once, none where it is good: a DECOMPRESS job reads the header of the byte
block at its token, and that read can lie outside or be lost (R316, R357). -/
def State.tokenStatus (s : State) (d : JobDesc) : Option Nat × State :=
  if d.tokenBad then (some 6, s)
  else if d.resume && d.opcode == 2 && d.tokOff != d.total then
    match s.jobGet (d.src + d.tokOff) (min 16 (d.total - d.tokOff)) with
    | (.bytes b, s1) => (if blkHeaderOk b (d.total - d.tokOff) then none else some 6, s1)
    | (.range, s1) => (some 4, s1)
    | (.ecc, s1) => (some 3, s1)
  else (none, s)

/-! Completion. -/

/-- How a job ends. -/
structure JobEnd where
  status : Nat
  detail : Nat
  inUsed : Nat
  outMade : Nat
  turn0 : Nat
  turn1 : Nat
  blocks : Nat
  deriving DecidableEq, Repr

/-- A completion record (R356, R357). -/
def jobRecord (d : JobDesc) (e : JobEnd) : List Byte :=
  let token := if e.status = 1 then
      leBytes 5 e.inUsed ++ leBytes 3 e.blocks ++ leBytes 1 d.opcode ++ leBytes 1 d.tab ++ leBytes 2 0 ++ leBytes 4 d.id
    else List.replicate 16 0
  leBytes 4 d.id ++ leBytes 1 e.status ++ leBytes 1 e.detail ++ leBytes 2 0 ++ leBytes 8 (e.inUsed % 2 ^ 40) ++
  leBytes 8 (e.outMade % 2 ^ 40) ++ leBytes 4 e.turn0 ++ leBytes 4 e.turn1 ++ token ++ List.replicate 16 0

/-- Address of a ring's entry `i` (R353). -/
def State.ringEntry (s : State) (r i : Nat) : Nat :=
  s.fget (F.JOB_RING_BASE_BASE r) * 64 + 64 * (i % s.ringSize r)

/-- A CAPTURE service's job has ended: Heath reads its record at `a`, and its requester is answered (R347). -/
def State.captureAnswer (s : State) (r : Nat) (d : JobDesc) (e : JobEnd) (a : Nat) : State :=
  match s.heath.capture with
  | none => s
  | some (req, ring, id) =>
    if ring = r ∧ id = d.id then
      let (lost, s1) := s.heathGet a 64
      if lost then s1
      else
        let s2 := s1.modHeath (fun h => { h with capture := none })
        if e.status = 0 then s2.answerReq 0x0012 req 0 (leBytes 8 d.dst ++ leBytes 4 e.outMade)
        else s2.answerReq 0x0012 req 6 (leBytes 1 e.status)
    else s

/-- The LEDGER_SNAP job of a ledger save has ended: Heath reads its record at `a`, and the save goes on from it (R347). -/
def State.saveSnapped (s : State) (r : Nat) (d : JobDesc) (e : JobEnd) (turn0 a : Nat) : State :=
  match s.heath.ledgerSave with
  | none => s
  | some l =>
    if l.ring = r ∧ l.job = d.id ∧ l.snap.isNone then
      let (lost, s1) := s.heathGet a 64
      if lost then s1
      else s1.modHeath (fun h => { h with
        ledgerSave := some { l with snap := some (e.status, e.outMade, turn0) } })
    else s

/-- Jobs that run. -/
def State.jobsRunning (s : State) : Nat := (s.jobs.rings.filter (fun r => r.running.isSome)).length

/-- The events of a completed job, and its count where it was a DUP (R350, R356). -/
def State.jobEvents (s : State) (r : Nat) (d : JobDesc) (status : Nat) : State :=
  let s1 := if status = 7 then s.fadd (F.JOB_RING_CFG_DUPS r) 1 else s
  let s2 := if d.irq then s1.raise 17 else s1
  if 2 ≤ status then s2.raise 18 else s2

/-- A job completes: its record is written over its entry, HEAD advances, past the entries that completed early too, its id is kept with
its status, and the events of R350 are raised. The last job that STANDBY waited for lets it be entered (R404). -/
def State.jobEnd (s : State) (r : Nat) (d : JobDesc) (e : JobEnd) : State :=
  let head := s.fget (F.JOB_RING_HEAD_HEAD r)
  let turn0 := (((s.jring r).running.map Job.turn0).getD 0)
  let a := s.ringEntry r head
  let s1 := (s.jobWrite a (jobRecord d e)).2
  let s2 := s1.headTo r ((head + 1 + (s.jring r).early) % 65536)
  let s3 := s2.modRing r (fun x => { x with
    running := none
    early := 0
    ids := if e.status = 7 then x.ids else ((d.id, e.status) :: x.ids).take 256 })
  let s4 := ((s3.jobEvents r d e.status).captureAnswer r d e a).saveSnapped r d e turn0 a
  if s4.pwr.grace && s4.jobsRunning == 0 then s4.standbyEnter else s4

/-- A job that ends at once with a status. -/
def JobEnd.atOnce (status detail : Nat) : JobEnd := ⟨status, detail, 0, 0, 0, 0, 0⟩

/-! Starting. -/

/-- Whether a ring has a job to start (R354). -/
def State.ringReady (s : State) (r : Nat) : Bool :=
  s.flag (F.JOB_RING_CFG_EN r) && (s.jring r).running.isNone && s.fget (F.JOB_RING_HEAD_HEAD r) != s.fget (F.JOB_RING_TAIL_TAIL r)

/-- The ring that is served next: PRIO = 1 first, rings of equal priority round-robin (R354). -/
def State.nextJobRing (s : State) : Option Nat :=
  let pick := fun (prio : Bool) (from_ : Nat) =>
    ((List.range 8).map (fun i => (from_ + i) % 8)).find? (fun r => s.flag (F.JOB_RING_CFG_PRIO r) == prio && s.ringReady r)
  (pick true s.jobs.nextPrio).orElse (fun _ => pick false s.jobs.nextRing)

/-- The next ring of a priority's rotation is the one after `r`. -/
def State.servedRing (s : State) (r : Nat) : State :=
  s.modJobs (fun j => if s.flag (F.JOB_RING_CFG_PRIO r) then { j with nextPrio := (r + 1) % 8 } else { j with nextRing := (r + 1) % 8 })

/-- The entry of a ring after its running job and those that completed early, where the producer has filled it. -/
def State.entryAfter (s : State) (r : Nat) : Option Nat :=
  let i := (s.fget (F.JOB_RING_HEAD_HEAD r) + 1 + (s.jring r).early) % 65536
  if s.flag (F.JOB_RING_CFG_EN r) && i != s.fget (F.JOB_RING_TAIL_TAIL r) then some (s.ringEntry r i) else none

/-- Whether the next descriptor of a ring repeats the id of the job that runs there (R366). -/
def State.repeatsRunning (s : State) (r : Nat) : Bool :=
  match (s.jring r).running, s.entryAfter r with
  | some j, some a => (((s.jobRead a 64).1).map (fun b => (readDesc b).id == j.desc.id)).getD false
  | _, _ => false

/-- That descriptor completes at once with DUP, while the running job goes on: HEAD passes its entry with the running job's, and DETAIL,
which would hold the STATUS that the running job has not got yet, is a free value (log entry 65). A descriptor that this read loses is not
recognised, and is judged in its turn. -/
def State.dupEarly (s : State) (r : Nat) : State :=
  match s.entryAfter r with
  | none => s
  | some a =>
    match s.jobGet a 64 with
    | (.range, s1) => s1
    | (.ecc, s1) => s1
    | (.bytes b, s1) =>
      let (v, s2) := s1.fresh
      ((s2.jobWrite a (jobRecord (readDesc b) (.atOnce 7 (v % 256)))).2.modRing r (fun x => { x with early := x.early + 1 })).jobEvents r
        (readDesc b) 7

/-- A descriptor that could not be read completes at once; the id and the IRQ that it would have given are free values (log entry 60). -/
def State.jobUnread (s : State) (r status : Nat) : State :=
  let (v, s1) := s.fresh
  s1.jobEnd r (readDesc (leBytes 8 v)) (.atOnce status 0)

/-- JOB_START: the next descriptor of a ring runs, or completes at once. What its read reports is a free value (R316; log entry 10). -/
def jobStart (s : State) : State :=
  if !s.coreRuns || s.pwr.grace || s.boot.state == 8 then s
  else match (List.range 8).find? s.repeatsRunning with
  | some r => s.dupEarly r
  | none =>
    if 4 ≤ s.jobsRunning then s
    else match s.nextJobRing with
    | none => s
    | some r =>
      let (ecc, s1) := (s.servedRing r).freshEcc
      let a := s1.ringEntry r (s1.fget (F.JOB_RING_HEAD_HEAD r))
      if !s1.inRegions Client.job.reads a 64 then (s1.clientRead .job a 64 ecc).2.jobUnread r 4
      else
        match s1.clientRead .job a 64 ecc with
        | (true, s2) => s2.jobUnread r 3
        | (false, s2) =>
          let d := readDesc (s2.hbmRead a 64)
          if s2.descBad d then s2.jobEnd r d (.atOnce 5 0)
          else match (s2.jring r).ids.find? (fun e => e.1 == d.id) with
            | some e => s2.jobEnd r d (.atOnce 7 e.2)
            | none =>
              match s2.tokenStatus d with
              | (some k, s3) => s3.jobEnd r d (.atOnce k 0)
              | (none, s3) => s3.modRing r (fun x => { x with
                running := some { desc := d, turn0 := s3.lyr.turn, turn1 := s3.lyr.turn, capTurn := none, capSegs := [], capLost := false } })

/-! Running: block by block. -/

/-- A job in progress: the machine, the input offset, the bytes made, the blocks done, and how it ends. -/
structure JobRun where
  s : State
  off : Nat
  made : Nat
  blocks : Nat
  ended : Option (Nat × Nat)

/-- Write one output block: OUTFULL where it would exceed the capacity, RANGE where it lies outside (R356, R357). -/
def JobRun.put (x : JobRun) (d : JobDesc) (inLen : Nat) (out : List Byte) : JobRun :=
  if d.dstCap < x.made + out.length then { x with ended := some (1, 0) }
  else match x.s.jobWrite (d.dst + x.made) out with
    | (false, s1) => { x with s := s1, ended := some (4, 0) }
    | (true, s1) => { x with s := s1, off := x.off + inLen, made := x.made + out.length, blocks := x.blocks + 1 }

/-- An uncorrectable error at an address that a job reads (R309, R316): in the Heath data area it is also a fault inside Heath. -/
def State.jobEcc (s : State) (a : Nat) : State :=
  if bitOf a 63 then ((s.fadd F.SWD_ECC_CNT_UNCORR 1).raise 9).heathFault
  else (s.fadd F.MEM_ECC_CNT_UNCORR 1).eccCapture .job false a

/-- Read `n` input bytes at the offset: RANGE where they lie outside, ECC where an uncorrectable error falls in them. -/
def JobRun.take (x : JobRun) (a n : Nat) (ecc : Option Nat) (f : List Byte → JobRun → JobRun) : JobRun :=
  match x.s.jobRead a n with
  | (none, s1) => { x with s := s1, ended := some (4, 0) }
  | (some b, s1) =>
    match ecc.filter (fun o => decide (x.off ≤ o) && decide (o < x.off + n)) with
    | some o => { x with s := s1.jobEcc (a + (o - x.off)), ended := some (3, 0) }
    | none => f b { x with s := s1 }

/-- Blocks of a job whose input blocks have a fixed length, the last one shorter where the input ends (R362). -/
def fixedBlocks (d : JobDesc) (addr : JobRun → Nat) (ecc : Option Nat) (code : JobRun → List Byte → List Byte) :
    Nat → JobRun → JobRun
  | 0, x => x
  | fuel + 1, x =>
    if x.ended.isSome ∨ d.total ≤ x.off then x
    else
      let n := min d.blockLen (d.total - x.off)
      fixedBlocks d addr ecc code fuel (x.take (addr x) n ecc (fun b y => y.put d n (code y b)))

/-- Blocks of a DECOMPRESS job (R359): each block's header is read, then its CLEN bytes. -/
def decompBlocks (tabs : List (Nat × List Nat)) (d : JobDesc) (ecc : Option Nat) : Nat → JobRun → JobRun
  | 0, x => x
  | fuel + 1, x =>
    if x.ended.isSome ∨ d.total ≤ x.off then x
    else
      let left := d.total - x.off
      decompBlocks tabs d ecc fuel
        (x.take (d.src + x.off) (min 16 left) ecc (fun h y =>
          if !blkHeaderOk h left then { y with ended := some (2, 6) }
          else if d.dstCap < y.made + blkUlen h then { y with ended := some (1, 0) }
          else y.take (d.src + y.off) (blkClen h) ecc (fun b z =>
            match decodeByteBlock tabs b with
            | .err k => { z with ended := some (2, k) }
            | .ok out n => z.put d n out)))

/-- A job begins at its token, or at its source (R357); `ecc` counts the reads that were corrected (R309, R310). -/
def JobDesc.start (d : JobDesc) (ecc : JobEcc) (s : State) : JobRun :=
  let s1 := s.fadd (if bitOf d.src 63 && d.opcode != 3 then F.SWD_ECC_CNT_CORR else F.MEM_ECC_CNT_CORR) ecc.corrected.toNat
  if d.resume then ⟨s1, d.tokOff, 0, d.tokBlocks, none⟩ else ⟨s1, 0, 0, 0, none⟩

/-- A job that has run ends with DONE or as it stopped. -/
def JobRun.finish (x : JobRun) (r : Nat) (d : JobDesc) (t0 t1 : Nat) : State :=
  let e := x.ended.getD (0, 0)
  x.s.jobEnd r d ⟨e.1, e.2, x.off, x.made, t0 % 2 ^ 32, t1 % 2 ^ 32, x.blocks⟩

/-- Complete the job of ring `r` if it has the opcode. -/
def State.withJob (s : State) (r op : Nat) (f : Job → State → State) : State :=
  match (s.jring r).running with
  | none => s
  | some j => if j.desc.opcode = op ∧ s.coreRuns then f j s else s

/-- The source offset of an uncorrectable error. -/
def eccAt (ecc : JobEcc) : Option Nat := ecc.bad.map BitVec.toNat

/-- JOB_COPY_DONE. -/
def jobCopyDone (r : Fin 8) (ecc : JobEcc) (s : State) : State :=
  s.withJob r.val 0 (fun j s =>
    let d := j.desc
    (fixedBlocks d (fun x => d.src + x.off) (eccAt ecc) (fun _ b => b) (d.total + 1) (d.start ecc s)).finish r.val d 0 0)

/-- JOB_COMPRESS_DONE. -/
def jobCompressDone (r : Fin 8) (ecc : JobEcc) (s : State) : State :=
  s.withJob r.val 1 (fun j s =>
    let d := j.desc
    (fixedBlocks d (fun x => d.src + x.off) (eccAt ecc) (fun _ b => encodeByteBlock s.byteTabs d.effort d.tab b)
      (d.total + 1) (d.start ecc s)).finish r.val d 0 0)

/-- JOB_DECOMPRESS_DONE. -/
def jobDecompressDone (r : Fin 8) (ecc : JobEcc) (s : State) : State :=
  s.withJob r.val 2 (fun j s =>
    let d := j.desc
    (decompBlocks s.byteTabs d (eccAt ecc) (d.total + 1) (d.start ecc s)).finish r.val d 0 0)

/-- JOB_LEDGER_SNAP_DONE (R363). -/
def jobLedgerSnapDone (r : Fin 8) (ecc : JobEcc) (s : State) : State :=
  s.withJob r.val 3 (fun j s =>
    let d := j.desc
    (fixedBlocks d (fun x => s.ledgerRow d.row0 + x.off) (eccAt ecc) (fun _ b => encodeByteBlock s.byteTabs d.effort d.tab b)
      (d.total + 1) (d.start ecc s)).finish r.val d j.turn0 s.lyr.turn)

/-! CALPACK (R364). -/

/-- Gain of channel `c` of emitter record `e`. -/
def packGain (b : List Byte) (e c : Nat) : Nat := leAt b (12 * e + 2 * c) 2

/-- Offsets of emitter record `e`. -/
def packOfs (b : List Byte) (e : Nat) : Int × Int × Int :=
  let o := fun c => sInt 16 (leAt b (12 * e + 6 + 2 * c) 2)
  (o 0, o 1, o 2)

/-- GBASE of a channel. -/
def packBase (b : List Byte) (c : Nat) : Nat :=
  let gs := (List.range 480).map (fun e => packGain b e c)
  (gs.foldl min 65535 + gs.foldl max 0 + 1) / 2

/-- GD of a gain at a shift. -/
def packDelta (g base sh : Nat) : Int := roundDiv ((g : Int) - (base : Int)) ((2 ^ sh : Nat) : Int)

/-- GSH of a channel: the smallest shift at which every GD lies in −8 to +7. -/
def packShift (b : List Byte) (c : Nat) : Nat :=
  let base := packBase b c
  (findBelow 16 (fun sh => (List.range 480).all (fun e =>
    let d := packDelta (packGain b e c) base sh
    decide (-8 ≤ d) && decide (d ≤ (7 : Int))))).getD 15

/-- The distinct offset triples of a segment, in the order of their first emitter, each with its count. -/
def packTriples (b : List Byte) : List ((Int × Int × Int) × Nat) :=
  (List.range 480).foldl (fun l e =>
    let t := packOfs b e
    if l.any (fun x => x.1 == t) then l.map (fun x => if x.1 = t then (x.1, x.2 + 1) else x) else l ++ [(t, 1)]) []

/-- OFS: all of at most four distinct triples, else the four most frequent, ties to the earlier. -/
def packChosen (b : List Byte) : List (Int × Int × Int) :=
  let l := packTriples b
  if l.length ≤ 4 then (l.map (fun x => x.1)) ++ List.replicate (4 - l.length) (0, 0, 0)
  else ((sortBy (fun (x : (Int × Int × Int) × Nat) => 480 - x.2) l).take 4).map (fun x => x.1)

/-- Sum of absolute channel differences of two triples. -/
def tripleDist (a b : Int × Int × Int) : Nat :=
  (a.1 - b.1).natAbs + (a.2.1 - b.2.1).natAbs + (a.2.2 - b.2.2).natAbs

/-- OSEL of a triple: its own place, or the nearest triple, the lower on a tie. -/
def packSel (ofs : List (Int × Int × Int)) (t : Int × Int × Int) : Nat :=
  (List.range 4).foldl (fun k i =>
    if tripleDist (ofs.getD i (0, 0, 0)) t < tripleDist (ofs.getD k (0, 0, 0)) t then i else k) 0

/-- The 14-bit field of an emitter (R151). -/
def packField (b : List Byte) (base sh : List Nat) (ofs : List (Int × Int × Int)) (e : Nat) : Nat :=
  let g := fun c => uInt 4 (packDelta (packGain b e c) (base.getD c 0) (sh.getD c 0))
  g 0 + 16 * g 1 + 256 * g 2 + 4096 * packSel ofs (packOfs b e)

/-- A compact segment record of 480 emitter records (R149 to R151, R364). -/
def packSegment (b : List Byte) (row group : Nat) : List Byte :=
  let base := (List.range 3).map (packBase b)
  let sh := (List.range 3).map (packShift b)
  let ofs := packChosen b
  let o := (ofs.zipIdx).foldl (fun v t => v + (uInt 12 t.1.1 + uInt 12 t.1.2.1 * 2 ^ 12 + uInt 12 t.1.2.2 * 2 ^ 24) * 2 ^ (36 * t.2)) 0
  let bits := (List.range 480).foldl (fun v e => v + packField b base sh ofs e * 2 ^ (14 * e)) 0
  leBytes 2 (base.getD 0 0) ++ leBytes 2 (base.getD 1 0) ++ leBytes 2 (base.getD 2 0) ++
  leBytes 2 (sh.getD 0 0 + 16 * sh.getD 1 0 + 256 * sh.getD 2 0) ++ leBytes 20 o ++ leBytes 4 (group + row * 65536) ++
  leBytes 840 bits ++ List.replicate 24 0

/-- JOB_CALPACK_DONE: one record of 896 bytes for each row segment, in segment order. -/
def jobCalpackDone (r : Fin 8) (ecc : JobEcc) (s : State) : State :=
  s.withJob r.val 4 (fun j s =>
    let d := j.desc
    let ng := bitsOf d.arg 38 32 + 1
    (fixedBlocks d (fun x => d.src + x.off) (eccAt ecc)
      (fun x b => packSegment b (d.row0 + x.off / 5760 / ng) (x.off / 5760 % ng)) (d.total + 1) (d.start ecc s)).finish r.val d 0 0)

/-! CAPTURE (R365). -/

/-- The row segments that a CAPTURE names, in row order. -/
def captureList (d : JobDesc) : List (Nat × Nat) :=
  (List.range d.rows).flatMap (fun y => (List.range (bitsOf d.arg 46 40 + 1)).map (fun g => (d.row0 + y, bitsOf d.arg 38 32 + g)))

/-- Write the captured segments: LOST at the first that was not taken, OUTFULL at the end of capacity. -/
def captureBlocks (tabs : List (Nat × List Nat)) (j : Job) : List (Nat × Nat) → JobRun → JobRun
  | [], x => x
  | e :: l, x =>
    if x.ended.isSome then x
    else match j.capSegs.find? (fun g => g.row == e.1 && g.group == e.2) with
      | none => { x with ended := some (8, 0) }
      | some g =>
        captureBlocks tabs j l (x.put j.desc 1920
          (encodeByteBlock tabs j.desc.effort j.desc.tab (g.words.flatMap (fun w => leBytes 4 w.toNat))))

/-- JOB_CAPTURE_DONE: once its turn is over, every segment has been taken, or the engine has fallen behind. -/
def jobCaptureDone (r : Fin 8) (s : State) : State :=
  s.withJob r.val 5 (fun j s =>
    match j.capTurn with
    | none => s
    | some t =>
      if s.tim.run ∧ s.lyr.turn = t ∧
          !(captureList j.desc).all (fun e => j.capSegs.any (fun g => g.row == e.1 && g.group == e.2)) ∧ !j.capLost then s
      else (captureBlocks s.byteTabs j (captureList j.desc) (⟨s, 0, 0, 0, none⟩)).finish r.val j.desc t t)

/-! Abandoning. -/

/-- Running jobs are abandoned with no completion record (R402, R404); a CAPTURE service that waited for one answers FAILED, and a
ledger save that waited for one fails. -/
def State.abandonJobs (s : State) : State :=
  let s1 := (s.modJobs (fun j => { j with
    rings := j.rings.map (fun r => { r with
      running := none
      early := 0 }) })).modHeath (fun h => { h with
    ledgerSave := h.ledgerSave.map (fun l => if l.snap.isNone then { l with snap := some (8, 0, 0) } else l) })
  match s1.heath.capture with
  | none => s1
  | some (req, _, _) => (s1.modHeath (fun h => { h with capture := none })).answerReq 0x0012 req 6 [8]

/-! Jobs that the firmware submits. -/

/-- BASE of a ring that the firmware keeps in region HEATH, 1 KiB a ring (log entry 60). -/
def State.heathBase (s : State) (r : Nat) : Nat := s.regionBase 0 / 64 + 16 * r

/-- Whether the firmware can submit a job on a ring: it is stopped, or the firmware's already, with an entry free. -/
def State.heathTakes (s : State) (r : Nat) : Bool :=
  s.ringStopped r || (s.flag (F.JOB_RING_CFG_EN r) && s.fget (F.JOB_RING_BASE_BASE r) == s.heathBase r &&
    s.tailOk r ((s.fget (F.JOB_RING_TAIL_TAIL r) + 1) % 65536))

/-- The ring that the firmware uses for its own jobs, and the machine with it ready: the first it can of rings 0 to 5, which serve Heath's
services (log entry 60). -/
def State.heathRing (s : State) : Option (Nat × State) :=
  ((List.range 6).find? s.heathTakes).map (fun r =>
    (r, if s.ringStopped r then ((s.ringBase r (s.heathBase r)).fset (F.JOB_RING_CFG_LOG2 r) 4).fput (F.JOB_RING_CFG_EN r) true else s))

/-- A job that the firmware has submitted: its ring and its id, and the machine after it. -/
structure Submitted where
  ring : Nat
  id : Nat
  s : State

/-- The firmware submits a job whose descriptor is given for an id, which is a free value that the ring does not hold; none where software
uses every ring that serves Heath. -/
def State.heathSubmit (s : State) (desc : State → Nat → List Byte) : Option Submitted :=
  s.heathRing.map (fun e =>
    let (v, s2) := e.2.fresh
    let ring := s2.jring e.1
    let taken := ring.ids.map (fun e => e.1) ++ (ring.running.map (fun j => j.desc.id)).toList
    let id := (((List.range 258).map (fun k => (v + k) % 2 ^ 32)).find? (fun i => !taken.contains i)).getD 0
    let tail := s2.fget (F.JOB_RING_TAIL_TAIL e.1)
    let s3 := s2.clientWrite .heath (s2.ringEntry e.1 tail) (desc s2 id)
    ⟨e.1, id, s3.fset (F.JOB_RING_TAIL_TAIL e.1) ((tail + 1) % 65536)⟩)

/-- BLOCK_RESET_JOB: every ring empty and disabled, its record of ids cleared (R402). -/
def blockResetJob (s : State) : State :=
  let s1 := { s.abandonJobs with
    jobs := Jobs.reset }
  ({ s1 with
    regs := SMap.keep (fun a => decide (a < 0x60000) || decide (0x70000 ≤ a)) s1.regs }).flushXing 3

/-- JOB_TAIL_WRITE. -/
def execJobTailWrite (r : Fin 8) (tail : BitVec 16) (s : State) : Host.Outcome State Fault Refusal :=
  .next (s.onReg (R.JOB_RING_TAIL r) (jobTailWrite r tail))
/-- JOB_BASE_WRITE. -/
def execJobBaseWrite (r : Fin 8) (base : BitVec 29) (s : State) : Host.Outcome State Fault Refusal :=
  .next (s.onReg (R.JOB_RING_BASE r) (jobBaseWrite r base))
/-- JOB_START. -/
def execJobStart (s : State) : Host.Outcome State Fault Refusal := .next (jobStart s)
/-- JOB_COPY_DONE. -/
def execJobCopyDone (r : Fin 8) (ecc : JobEcc) (s : State) : Host.Outcome State Fault Refusal := .next (jobCopyDone r ecc s)
/-- JOB_COMPRESS_DONE. -/
def execJobCompressDone (r : Fin 8) (ecc : JobEcc) (s : State) : Host.Outcome State Fault Refusal :=
  .next (jobCompressDone r ecc s)
/-- JOB_DECOMPRESS_DONE. -/
def execJobDecompressDone (r : Fin 8) (ecc : JobEcc) (s : State) : Host.Outcome State Fault Refusal :=
  .next (jobDecompressDone r ecc s)
/-- JOB_LEDGER_SNAP_DONE. -/
def execJobLedgerSnapDone (r : Fin 8) (ecc : JobEcc) (s : State) : Host.Outcome State Fault Refusal :=
  .next (jobLedgerSnapDone r ecc s)
/-- JOB_CALPACK_DONE. -/
def execJobCalpackDone (r : Fin 8) (ecc : JobEcc) (s : State) : Host.Outcome State Fault Refusal :=
  .next (jobCalpackDone r ecc s)
/-- JOB_CAPTURE_DONE. -/
def execJobCaptureDone (r : Fin 8) (s : State) : Host.Outcome State Fault Refusal :=
  .next (jobCaptureDone r s)
/-- BLOCK_RESET_JOB. -/
def execBlockResetJob (s : State) : Host.Outcome State Fault Refusal :=
  .next (s.onReg R.PWR_RESET_CTL blockResetJob)

end Sys2Proof.Machine
end

