-- ==== Sys2Proof/Machine/Reset.lean ====
section
/-! DEFINITION. The reset classes and their release, block resets, and the thermal trip (15_clocks_resets_power.md R394, R400
to R402, R415; 07_panel_drive_and_ledger.md R180; 13_control_plane.md R342; 16_electrical_and_package.md R424, R427). -/

namespace Sys2Proof.Machine

/-! What a reset clears. -/

/-- Whether an address is in a window that pin and warm resets leave: CHIP, CLK, PWR, CAL, MBX, EVT and PWD (R400). -/
def resetKeeps (a : Nat) : Bool := decide (a < 0x60000) || (decide (0x500000 ≤ a) && decide (a < 0x510000))

/-- An ingest port's packet layer anew; what it has sent stays sent. -/
def IngPort.clear (q : IngPort) : IngPort := { IngPort.reset with
  wire := q.wire
  aligned := q.aligned }

/-- A cascade link anew. -/
def CasPort.clear (q : CasPort) : CasPort := { CasPort.reset with
  wire := q.wire
  aligned := q.aligned
  bursts := q.bursts }

/-- CAS anew. -/
def Cas.clear (k : Cas) : Cas := { Cas.reset with
  ports := k.ports.map CasPort.clear }

/-- The snapshots of the registers that `p` keeps. -/
def Snaps.keep (x : Snaps) (p : Nat → Bool) : Snaps :=
  { x with
    bus := SMap.keep p x.bus
    control := SMap.keep p x.control
    service := SMap.keep p x.service
    heath := SMap.keep p x.heath }

/-- The snapshots of the registers that a pin or warm reset keeps. -/
def Snaps.keepAon (x : Snaps) : Snaps := { x.keep resetKeeps with
  armed := [] }

/-- CAS_STAT.HEAD is the strap. -/
def State.strapHead (s : State) : State := s.fput F.CAS_STAT_HEAD s.straps.head

/-- The core domains at their reset state (R400). What stands in memory stays; so do what R400 keeps, the trim sets and the
write results stored since POR (R418), and the RAILS_UP requests counted since POR (R372). -/
def State.coreClear (s : State) : State :=
  ({ State.reset with
    pending := s.pending
    regs := SMap.keep resetKeeps s.regs
    snaps := s.snaps.keepAon
    rdata := s.rdata
    i2cOut := s.i2cOut
    i2cNack := s.i2cNack
    free := s.free
    time := s.time
    clock := s.clock
    asmSeq := s.asmSeq
    lyr := { Lyr.reset with
      count := s.lyr.count }
    hbm := s.hbm
    swd := s.swd
    ports := s.ports.map IngPort.clear
    cas := s.cas.clear
    pwd := s.pwd
    mem := { Mem.reset with
      dq := s.mem.dq
      stored := s.mem.stored }
    cal := s.cal
    pwr := s.pwr
    tap := s.tap
    boxes := s.boxes.map Box.forget
    heath := { Heath.reset with
      retries := s.heath.retries }
    straps := s.straps
    fuses := s.fuses
    nor := s.nor
    emmc := s.emmc
    evtTurn := s.evtTurn
    cyc := s.cyc } : State).strapHead.requeueOut

/-- The core stops: no clock, no loop, Heath not started. -/
def State.coreStop (s : State) : State :=
  ((s.fset F.MBX_HEATH_STAT_STATE 0).plls false).modPwr (fun p => { p with
    core := false
    due := none
    grace := false
    avsOn := false })

/-- PWR_STATE_STAT while bring-up is under way: IDLE with TARGET = RUN (R404). -/
def State.bringupState (s : State) : State :=
  (((s.fset F.PWR_STATE_STAT_STATE 1).fset F.PWR_STATE_STAT_TARGET 0).fput F.PWR_STATE_STAT_MOVING true).modPwr
    (fun p => { p with going := some 0 })

/-- A device that is reset, or whose CAS is, mirrors no lead any more: where its own sequencer is OFF, that is what reads, with SAFE = 1
(R300, R378). -/
def State.partnerOff (s : State) : State :=
  if s.pwd.pos = .off then (s.fset F.PWD_SEQ_STAT_STATE 0).fput F.PWD_SEQ_STAT_SAFE true else s

/-- A pin or warm reset: `last` for PWR_RESET_STAT, and the step at which bring-up restarts. A second one before the core
leaves reset changes only the restart point, to the earlier (R401). -/
def State.resetCore (s : State) (last step : Nat) : State :=
  match s.pwr.restart with
  | some r => s.modPwr (fun p => { p with restart := some (min r step) })
  | none =>
    let s1 := s.downNow.partnerOff.heathStop.epochNext
    let s2 := (s1.coreClear.calAbandon.coreStop.bringupState).flushXing 6
    ((s2.modPwr (fun p => { p with restart := some step })).fset F.PWR_RESET_STAT_LAST last).fadd F.PWR_RESET_STAT_RESETS 1

/-! Pin, warm and REF loss. -/

/-- A pin reset that waits for 110 °C takes effect once every on-die sensor reads below it (R415). -/
def State.tripSettle (s : State) : State :=
  if s.pwr.tripped && s.pwr.tripReset &&
      (List.range 16).all (fun n => decide (sInt 16 (s.fget (F.CAL_DIE_TEMP_TEMP n)) < 1760)) then
    (s.modPwr (fun p => { p with tripped := false, tripReset := false })).resetCore 1 1
  else s

/-- PIN_RESET: RESET_N has been low for 1 µs. While POR is asserted it is no reset, but step 1 waits for RESET_N high (R424, R447). -/
def pinReset (s : State) : State :=
  if s.pwr.por then s.modPwr (fun p => { p with resetLow := true })
  else if s.pwr.tripped then (s.modPwr (fun p => { p with tripReset := true })).tripSettle
  else s.resetCore 1 1

/-- Whether the AON domain runs with no trip in force. -/
def State.alive (s : State) : Bool := !s.pwr.por && !s.pwr.tripped

/-- WARM_RESET. -/
def warmReset (s : State) : State := if s.alive then s.resetCore 2 4 else s

/-- REF_LOSS (R394): in RUN and IDLE a warm reset. -/
def refLoss (s : State) : State :=
  if s.pwr.por || !s.flag F.CLK_STAT_REF_OK then s
  else
    let s1 := (s.fput F.CLK_STAT_REF_OK false).fadd F.CLK_STAT_REF_LOSS 1
    if s1.alive && decide (s1.pstate ≤ 1) then s1.resetCore 3 4 else s1

/-- Step 1 begins, in which CORE_SUP_EN goes high (R408, R424). -/
def State.stepOne (s : State) : State := (s.modPwr (fun p => { p with supEn := true })).bootTo 0 1

/-- CORE_RESET_RELEASE: SAFE = 1, RESET_N is high and REF has been present for 1 ms (R401). A warm reset's core leaves reset for
step 4; after a pin reset, and after a POR whose release found RESET_N low, step 1 begins. -/
def coreResetRelease (s : State) : State :=
  match s.pwr.restart with
  | none => s
  | some r =>
    if s.alive && s.flag F.PWD_SEQ_STAT_SAFE then
      let s1 := (s.fput F.CLK_STAT_REF_OK true).modPwr (fun p => { p with restart := none, bootAt := s.clock })
      if r ≤ 1 then s1.stepOne
      else ((s1.plls true).modPwr (fun p => { p with core := true, avsOn := true })).bootTo 2 4
    else s

/-! Power-on reset. -/

/-- PWD through a POR: what discharges goes on, and its registers reset at SAFE (R180). -/
def State.porPwd (s t : State) : State :=
  if t.pwd.pos = .off then s
  else { s with
    regs := SMap.keep (fun a => decide (0x500000 ≤ a) && decide (a < 0x510000)) t.regs
    pwd := { t.pwd with
      resetDue := true } }

/-- POR_ASSERT: everything resets; the supplies' fall has started the sequence of R179. The flash, the eMMC device and the
fuses keep what they hold. -/
def porAssert (s : State) : State :=
  let t := s.dieDown
  ({ State.reset with
    pending := s.pending
    free := s.free
    clock := s.clock
    rdata := s.rdata
    fuses := s.fuses
    nor := s.nor
    emmc := s.emmc
    straps := s.straps } : State).porPwd t

/-- POR_RELEASE: the straps are sampled, and step 1 begins, or waits for RESET_N high (R424, R428, R447). WARN resets to the grade's
value. -/
def porRelease (head addr1 addr0 : Bool) (s : State) : State :=
  if s.pwr.por then
    let s1 := { s with
      straps := ⟨head, addr1, addr0⟩ }
    let s2 := if s1.fuses.gradeX then s1.fset F.CAL_THERM_CFG_WARN 0x0640 else s1
    let low := s.pwr.resetLow
    let s3 := s2.strapHead.modPwr (fun p => { p with
      por := false
      restart := if low then some 1 else none
      bootAt := s.clock
      resetLow := false })
    if low then s3 else s3.stepOne
  else s

/-! Thermal trip. -/

/-- THERMAL_TRIP: a sensor reaches 125 °C (R415). -/
def thermalTrip (s : State) : State :=
  if s.alive then
    let s1 := (s.fput F.CAL_THERM_STAT_TRIPPED true).dieDown.partnerOff
    let s2 := ((s1.coreClear.calAbandon.coreStop).flushXing 6).modPwr (fun p => { p with
      restart := none
      going := none
      tripped := true
      tripReset := false })
    (((s2.fput F.PWR_STATE_STAT_MOVING false).fset F.PWR_STATE_STAT_STATE 4).fadd F.PWR_STATE_STAT_CHANGES 1).raise 21
  else s

/-- TEMP_MODEL_TICK: the 1 ms tick of the model; sensors below 110 °C let a waiting pin reset take effect. -/
def tempModelTick (die : List (BitVec 16)) (tpd : BitVec 16) (s : State) : State :=
  if s.pwr.por then s else (s.tempTick die tpd).tripSettle

/-! Block resets. -/

/-- The registers from `a` to before `b` return to their reset values. -/
def State.regsReset (s : State) (a b : Nat) : State :=
  { s with
    regs := SMap.keep (fun x => decide (x < a) || decide (b ≤ x)) s.regs }

/-- BLOCK_RESET_ING: the port goes DOWN with the effects of R234, and its registers reset, EN and those of its packet layer with them
(R402). -/
def blockResetIng (p : Fin 2) (s : State) : State :=
  let s1 := s.portDown p.val
  let s2 := s1.regsReset (0x100000 + 0x10000 * p.val) (0x110000 + 0x10000 * p.val)
  (s2.modPort p.val IngPort.clear).flushXing p.val

/-- BLOCK_RESET_CAS: every port goes DOWN, the registers reset, and a follower is in HOLDOVER (R402). -/
def blockResetCas (s : State) : State :=
  let s1 : State := (forBelow 5 (fun n s => s.casDown n) s).partnerOff
  let s2 := ({ s1.regsReset 0x140000 0x150000 with
    snaps := s1.snaps.keep (fun a => decide (a < 0x140000) || decide (0x150000 ≤ a))
    cas := s1.cas.clear } : State).strapHead.requeueOut
  (if s2.straps.head then s2 else s2.fset F.CAS_STAT_STATE 4).flushXing 2

/-- ING_ALIGN_PERIOD: every lane of an enabled port sends an ALIGN, and the back-channel takes one code step (R216, R419). -/
def ingAlignPeriod (p : Fin 2) (s : State) : State :=
  if s.fget (F.ING_STAT_STATE p.val) = 0 then s
  else (s.modPort p.val (fun q => { q with
      align := q.align + 1, aligned := q.aligned ++ [alignBlk 0 p.val q.align] })).modTx (136 + p.val) 1 TxEq.step

/-- PIN_RESET. -/
def execPinReset (s : State) : Host.Outcome State Fault Refusal := .next (pinReset s)
/-- WARM_RESET. -/
def execWarmReset (s : State) : Host.Outcome State Fault Refusal :=
  .next (s.onReg R.PWR_RESET_CTL warmReset)
/-- REF_LOSS. -/
def execRefLoss (s : State) : Host.Outcome State Fault Refusal := .next (refLoss s)
/-- CORE_RESET_RELEASE. -/
def execCoreResetRelease (s : State) : Host.Outcome State Fault Refusal := .next (coreResetRelease s)
/-- POR_ASSERT. -/
def execPorAssert (s : State) : Host.Outcome State Fault Refusal := .next (porAssert s)
/-- POR_RELEASE. -/
def execPorRelease (head addr1 addr0 : Bool) (s : State) : Host.Outcome State Fault Refusal :=
  .next (porRelease head addr1 addr0 s)
/-- THERMAL_TRIP. -/
def execThermalTrip (s : State) : Host.Outcome State Fault Refusal := .next (thermalTrip s)
/-- TEMP_MODEL_TICK. -/
def execTempModelTick (die : List (BitVec 16)) (tpd : BitVec 16) (s : State) : Host.Outcome State Fault Refusal :=
  .next (tempModelTick die tpd s)
/-- BLOCK_RESET_ING. -/
def execBlockResetIng (p : Fin 2) (s : State) : Host.Outcome State Fault Refusal :=
  .next (s.onReg R.PWR_RESET_CTL (blockResetIng p))
/-- BLOCK_RESET_CAS. -/
def execBlockResetCas (s : State) : Host.Outcome State Fault Refusal :=
  .next (s.onReg R.PWR_RESET_CTL blockResetCas)
/-- ING_ALIGN_PERIOD. -/
def execIngAlignPeriod (p : Fin 2) (s : State) : Host.Outcome State Fault Refusal := .next (ingAlignPeriod p s)

end Sys2Proof.Machine
end

