-- ==== Sys2Proof/Machine/PowerSteps.lean ====
section
/-! DEFINITION. Requests for power states and the steps of the chain (15_clocks_resets_power.md R403 to R406), with the ledger
save that comes before DEEP (14_boot_image_identity.md R382). -/

namespace Sys2Proof.Machine

/-- PWR_STATE_GO: a write of GO (R405). -/
def pwrStateGo (target : BitVec 2) (s : State) : State :=
  (s.fset F.PWR_STATE_REQ_TARGET target.toNat).pwrRequest .register target.toNat

/-! RUN, IDLE and STANDBY. -/

/-- RUN_TO_IDLE: at the next latch instant (R404). -/
def runToIdle (s : State) : State :=
  match s.pwrBegin .run .idle with
  | none => s
  | some s1 =>
    let s2 := (((s1.closeAll .shutdown).synAsk false true).drvAsk false true).downRequest
    if s2.pwd.pos = .off ∧ !s2.tim.run then s2.idleSettle else s2

/-- IDLE_TO_STANDBY: the loop of R410 stops, and jobs that run are given 100 ms. -/
def idleToStandby (s : State) : State :=
  match s.pwrBegin .idle .standby with
  | none => s
  | some s1 =>
    let s2 := s1.calAbandon.modPwr (fun p => { p with avsOn := false })
    if s2.jobsRunning = 0 then s2.standbyEnter else s2.modPwr (fun p => { p with grace := true })

/-- JOB_GRACE_EXPIRY. -/
def jobGraceExpiry (s : State) : State := if s.pwr.grace then s.abandonJobs.standbyEnter else s

/-- The enabled ports begin to come up, and the wake is forwarded (R218, R275, R299). -/
def State.portsOn (s : State) : State :=
  let s1 : State := forBelow 2 (fun p s => if s.flag (F.ING_CTL_EN p) then s.fset (F.ING_STAT_STATE p) 1 else s) s
  let s2 : State := forBelow 5 (fun n s => if s.casEnabled n then s.fset (F.CAS_PORT_STAT_STATE n) 1 else s) s1
  s2.wakeForward ((List.range 5).filter s.casEnabled)

/-- STANDBY_TO_IDLE: the step goes on to IDLE as training ends. -/
def standbyToIdle (s : State) : State :=
  match s.pwrBegin .standby .idle with
  | none => s
  | some s1 =>
    let s2 := ((s1.voutAsk s1.pwr.avsV).modPwr (fun p => { p with avsOn := true })).fput F.CLK_STAT_REF_OK true
    let s3 := ((s2.plls true).modMem (fun m => { m with selfRefresh := false })).hbmTraining
    s3.portsOn

/-- IDLE_TO_RUN: every panel-link port trains; START and UP follow as training ends. -/
def idleToRun (s : State) : State :=
  match s.pwrBegin .idle .run with
  | none => s
  | some s1 => forBelow 8 (fun p s => s.trainPort p) s1

/-! The ledger save. -/

/-- The descriptor of the LEDGER_SNAP job of a save: the whole ledger into SNAP, with EFFORT 1 and TAB 0 (R362, log entry 57). -/
def State.snapDesc (s : State) (id : Nat) : List Byte :=
  leBytes 4 id ++ leBytes 1 3 ++ leBytes 1 1 ++ leBytes 2 1 ++ leBytes 16 0 ++ leBytes 8 (s.regionBase 3) ++
  leBytes 8 (s.regionSize 3) ++ leBytes 16 0 ++ leBytes 8 (17280 * 65536)

/-- A ledger save begins: the header sector is zeroed, and a LEDGER_SNAP job is submitted (R347, R382); none where software uses
every ring that serves Heath. SEQ goes on from the area's last write, from 0 where its header was invalid (log entry 57). -/
def State.saveBegin (s : State) (req : Option ReqFrom) (n : Nat) (a : Area) : Option State :=
  let seq := if s.areaValid a then s.areaSeq a + 1 else 1
  ((s.areaZero a).heathSubmit State.snapDesc).map (fun e => e.s.modHeath (fun h => { h with
    ledgerSave := some { req := req, area := n, seq := seq, ring := e.ring, job := e.id, snap := none } }))

/-- The bytes in SNAP that a save stores, and the area's first sector; none where its job failed or the area cannot hold them. -/
def State.saveSize (s : State) (l : LedgerSave) : Option (Nat × Area × Nat) :=
  match s.area l.area, l.snap with
  | some a, some (0, made, turn0) => if made ≤ 512 * (a.sectors - 1) then some (made, a, turn0) else none
  | _, _ => none

/-- A ledger save writes the data that it has read from SNAP, and then the header (R382). -/
def State.saveWrite (s : State) (l : LedgerSave) (a : Area) (made turn0 : Nat) : State :=
  let data := s.hbmRead (s.regionBase 3) made
  (s.emmcWrite (512 * (a.start + 1)) data).emmcWrite (512 * a.start) (areaHeader 2 0 0 l.seq 0 17280 data turn0)

/-- The LEDGER area with the lowest SEQ, an invalid one counting lowest (R404). -/
def State.ledgerOldest (s : State) : Option (Nat × Area) :=
  let key := fun (a : Area) => if s.areaValid a then s.areaSeq a + 1 else 0
  ((s.areasOf 2).filterMap (fun n => (s.area n).map (fun a => (n, a)))).foldl (fun b e =>
    match b with
    | none => some e
    | some b' => if key e.2 < key b'.2 then some e else b) none

/-! DEEP. -/

/-- CORE_SUP_EN goes low: everything outside the AON domain, MBX, EVT and PWD is lost, memory with it (R403, R404). -/
def State.deepEnter (s : State) : State :=
  let s1 := s.abandonJobs.endMapLoad.portsOff
  let s2 := { s1.coreClear.coreStop with
    hbm := []
    swd := [] }
  (s2.modPwr (fun p => { p with supEn := false })).pwrReached .deep

/-- The save before DEEP begins; with no LEDGER area, or where software uses every ring that serves Heath, it is skipped (R404, log entry
60). -/
def State.deepSave (s : State) : State :=
  match s.ledgerOldest.bind (fun e => s.saveBegin none e.1 e.2) with
  | none => (s.raise 23).deepEnter
  | some s1 => s1

/-- IDLE_TO_DEEP. A save that a service runs is waited for. -/
def idleToDeep (s : State) : State :=
  match s.pwrBegin .idle .deep with
  | none => s
  | some s1 =>
    let s2 := s1.calAbandon
    if !s2.flag F.PWR_WAKE_CFG_SAVE_LEDGER then s2.deepEnter
    else if s2.heath.ledgerSave.isSome then s2 else s2.deepSave

/-- HEATH_RESTART_DONE (R342, R349). A save before DEEP that the fault broke off is made anew (DEDUCED, log entry 56). -/
def heathRestartDone (s : State) : State :=
  if s.fget F.MBX_HEATH_STAT_STATE = 3 then
    let s1 := (s.fset F.MBX_HEATH_STAT_STATE 1).epochNext
    if s1.pwr.going = some 3 then s1.deepSave else s1
  else s

/-- DEEP_TO_IDLE: CORE_SUP_EN is high again; steps 2 to 10 of R375 follow, and Heath's epoch advances (R404). -/
def deepToIdle (s : State) : State :=
  match s.pwrBegin .deep .idle with
  | none => s
  | some s1 => (s1.epochNext.modPwr (fun p => { p with supEn := true })).bootTo 0 2

/-! Wake sources (R406). -/

/-- WAKE_DETECT: 10 µs of transitions at a cascade port, or at an ingest port whose detector is on. -/
def wakeDetect (cas : Bool) (port : Fin 5) (s : State) : State :=
  if s.pstate ≠ 2 ∧ s.pstate ≠ 3 then s
  else if cas then s.pwrWake .cas F.PWR_WAKE_CFG_CAS
  else if bitOf s.pwr.ingDet port.val then s.pwrWake .ing F.PWR_WAKE_CFG_ING
  else s

/-- WAKE_TIMER_EXPIRY: PWR_WAKE_TIMER reaches 0 outside RUN. -/
def wakeTimerExpiry (s : State) : State :=
  if s.pstate ≠ 0 ∧ s.fget F.PWR_WAKE_TIMER_SECONDS ≠ 0 then
    let s1 := s.fset F.PWR_WAKE_TIMER_SECONDS 0
    if s1.pstate ≤ 3 then s1.pwrWake .timer F.PWR_WAKE_CFG_TIMER else s1
  else s

/-- PWR_STATE_GO. -/
def execPwrStateGo (target : BitVec 2) (s : State) : Host.Outcome State Fault Refusal :=
  .next (s.onReg R.PWR_STATE_REQ (pwrStateGo target))
/-- RUN_TO_IDLE. -/
def execRunToIdle (s : State) : Host.Outcome State Fault Refusal := .next (runToIdle s)
/-- IDLE_TO_STANDBY. -/
def execIdleToStandby (s : State) : Host.Outcome State Fault Refusal := .next (idleToStandby s)
/-- JOB_GRACE_EXPIRY. -/
def execJobGraceExpiry (s : State) : Host.Outcome State Fault Refusal := .next (jobGraceExpiry s)
/-- STANDBY_TO_IDLE. -/
def execStandbyToIdle (s : State) : Host.Outcome State Fault Refusal := .next (standbyToIdle s)
/-- IDLE_TO_RUN. -/
def execIdleToRun (s : State) : Host.Outcome State Fault Refusal := .next (idleToRun s)
/-- IDLE_TO_DEEP. -/
def execIdleToDeep (s : State) : Host.Outcome State Fault Refusal := .next (idleToDeep s)
/-- HEATH_RESTART_DONE. -/
def execHeathRestartDone (s : State) : Host.Outcome State Fault Refusal := .next (heathRestartDone s)
/-- DEEP_TO_IDLE. -/
def execDeepToIdle (s : State) : Host.Outcome State Fault Refusal := .next (deepToIdle s)
/-- WAKE_DETECT. -/
def execWakeDetect (cas : Bool) (port : Fin 5) (s : State) : Host.Outcome State Fault Refusal := .next (wakeDetect cas port s)
/-- WAKE_TIMER_EXPIRY. -/
def execWakeTimerExpiry (s : State) : Host.Outcome State Fault Refusal := .next (wakeTimerExpiry s)

end Sys2Proof.Machine
end

