-- ==== Sys2Proof/Machine/Nvm.lean ====
section
/-! DEFINITION. Services on the flash and the eMMC device: MAP_LOAD, LEDGER_SAVE and IMAGE_WRITE (13_control_plane.md R347;
14_boot_image_identity.md R382, R383), and the block reset of NVM (15_clocks_resets_power.md R402). -/

namespace Sys2Proof.Machine

/-! Calibration maps. -/

/-- SVC_MAP_LOAD: it fills the inactive generation, and waits while PEND = 1 (R147). -/
def svcMapLoad (box : Fin 8) (s : State) : State :=
  if s.flag F.EMC_MAP_CTL_PEND then s
  else s.runSvc box.val 0x0010 (fun dev body s =>
    let a := reqArgs body
    if a.length ≠ 4 ∨ 16 ≤ byteAt a 0 ∨ 2 ≤ byteAt a 1 ∨ leAt a 2 2 ≠ 0 then s.respond box.val dev body 2 []
    else if s.heath.mapLoad.isSome then s.respond box.val dev body 3 []
    else
      (s.fput (F.EMC_MAP_CFG_VALID s.spareGen) false).modHeath (fun h => { h with
        mapLoad := some { req := some ⟨box.val, dev, reqRid body⟩, area := byteAt a 0, gen := s.spareGen, swap := byteAt a 1 == 1 } }))

/-- Answer the request of a service, where it has one. -/
def State.answerTo (s : State) (svc : Nat) (r : Option ReqFrom) (result : Nat) (data : List Byte) : State :=
  match r with
  | none => s
  | some q => s.answerReq svc q result data

/-- MAP_LOAD_DONE: `ok` says that the eMMC reads completed (R382). The load waits while PEND = 1, and while the core's clocks stand
still (R147, R391). -/
def mapLoadDone (ok : Bool) (s : State) : State :=
  match s.heath.mapLoad with
  | none => s
  | some l =>
    if s.flag F.EMC_MAP_CTL_PEND || !s.coreRuns then s
    else
      let s1 := s.modHeath (fun h => { h with mapLoad := none })
      match s1.mapFill (s1.areaNgs l.area) l.area l.gen ok with
      | (some rows, s2) => (if l.swap then mapSwap s2 else s2).answerTo 0x0010 l.req 0 (leBytes 4 rows)
      | (none, s2) => s2.answerTo 0x0010 l.req 6 []

/-! The ledger. -/

/-- SVC_LEDGER_SAVE. -/
def svcLedgerSave (box : Fin 8) (s : State) : State :=
  s.runSvc box.val 0x0011 (fun dev body s =>
    let a := reqArgs body
    match s.area (byteAt a 0) with
    | none => s.respond box.val dev body 2 []
    | some ar =>
      if a.length ≠ 4 ∨ leAt a 1 3 ≠ 0 ∨ ar.ty ≠ 2 then s.respond box.val dev body 2 []
      else if s.heath.ledgerSave.isSome then s.respond box.val dev body 3 []
      else (s.saveBegin (some ⟨box.val, dev, reqRid body⟩) (byteAt a 0) ar).getD (s.respond box.val dev body 6 []))

/-- After a save that DEEP waited for: the save of its own, or DEEP (R404). -/
def State.saveNext (s : State) (r : Option ReqFrom) : State :=
  if s.pwr.going = some 3 then (if r.isSome then s.deepSave else s.deepEnter) else s

/-- LEDGER_SAVE_DONE: its job has ended, and `ok` says that the eMMC writes completed; the header is written last (R382). Where the read of
SNAP is lost, Heath faults, and the save ends without a response (R349). While the core's clocks stand still nothing ends (R391). -/
def ledgerSaveDone (ok : Bool) (s : State) : State :=
  match s.heath.ledgerSave with
  | none => s
  | some l =>
    if l.snap.isNone || !s.coreRuns then s
    else
      let done := fun (s : State) => s.modHeath (fun h => { h with ledgerSave := none })
      (match s.saveSize l with
        | none => ((done s).raise 23).answerTo 0x0011 l.req 6 []
        | some (n, a, turn0) =>
          let (lost, s1) := s.heathGet (s.regionBase 3) n
          if lost then s1
          else if ok then ((done s1).saveWrite l a n turn0).answerTo 0x0011 l.req 0 (leBytes 4 n)
          else ((done s1).emmcFail).answerTo 0x0011 l.req 6 []).saveNext l.req

/-! Image writes (R383). -/

/-- Read flash bytes; an erased byte reads 0xFF (log entry 50). -/
def State.norRead (s : State) (a n : Nat) : List Byte := SMap.getMany norDefault s.nor a n

/-- Write flash bytes. -/
def State.norWrite (s : State) (a : Nat) (bs : List Byte) : State :=
  { s with
    nor := SMap.setMany norDefault s.nor a bs }

/-- Flash address of a copy (R367). -/
def copyBase (b : Bool) : Nat := if b then 0x2000000 else 0

/-- The copy that is not running; with none running, NVM_BOOT_STAT.COPY stands (log entry 58). -/
def State.spareCopy (s : State) : Bool := !((s.img.map Image.copyB).getD false)

/-- Bytes of a target that are held back until END. -/
def heldBytes (target : Nat) : Nat := if target = 0 then 64 else if target = 1 then 512 else 0

/-- Where a target lies on its medium, and how long it is; none where the table has no such area. -/
def State.writeRange (s : State) (target area : Nat) : Option (Nat × Nat) :=
  match target with
  | 0 => some (copyBase s.spareCopy, 0x2000000)
  | 1 => (s.area area).map (fun a => (512 * a.start, 512 * a.sectors))
  | 2 => some (0, 1024)
  | _ => none

/-- Write bytes of a target, at a place on its medium. -/
def State.mediaWrite (s : State) (target a : Nat) (bs : List Byte) : State :=
  if target = 0 then s.norWrite a bs else s.emmcWrite a bs

/-- A target is erased: a copy to 0xFF, an area's header sector or the table to 0. -/
def State.eraseTarget (s : State) (target a : Nat) : State :=
  if target = 0 then
    { s with
      nor := SMap.keep (fun x => decide (x < a) || decide (a + 0x2000000 ≤ x)) s.nor }
  else s.emmcWrite a (List.replicate (if target = 1 then 512 else 1024) 0)

/-- A target is made invalid: the header of a copy or of an area is erased, or the table (R383). -/
def State.spoilTarget (s : State) (target a : Nat) : State :=
  if target = 0 then
    { s with
      nor := SMap.keep (fun x => decide (x < a) || decide (a + 64 ≤ x)) s.nor }
  else s.eraseTarget target a

/-- A command of the medium failed: counted, NVM_ERROR raised, the target left invalid, and FAILED with a first data byte that the manual
leaves open. -/
def State.mediaFail (s : State) (target a : Nat) (b dev : Nat) (body : List Byte) : State :=
  let s1 := if target = 0 then (s.fadd F.NVM_MEDIA_STAT_NOR_ERR 1).raise 23 else s.emmcFail
  let (v, s2) := (s1.spoilTarget target a).fresh
  s2.respond b dev body 6 [BitVec.ofNat 8 v]

/-- Close the image write that is open. -/
def State.closeWrite (s : State) : State := s.modHeath (fun h => { h with imgWrite := none })

/-- The OP of an IMAGE_WRITE request. -/
def writeOp (body : List Byte) : Nat := byteAt (reqArgs body) 0

/-- Run an IMAGE_WRITE request for this device whose OP is selected. -/
def State.runWrite (s : State) (b : Nat) (op : Nat → Bool) (f : Nat → List Byte → State → State) : State :=
  s.withReq b (fun body => decide (8 ≤ body.length) && reqSvc body == 0x0022 && !s.forwards body && op (writeOp body)) f

/-- The open write that a request goes on with. -/
def State.openWrite (s : State) (body : List Byte) : Option ImgWrite :=
  let a := reqArgs body
  match s.heath.imgWrite with
  | none => none
  | some w => if 4 ≤ a.length ∧ byteAt a 1 = w.target ∧ (w.target ≠ 1 ∨ byteAt a 2 = w.area) ∧ byteAt a 3 = 0 then some w else none

/-- IMAGE_WRITE_BEGIN; it also answers an OP that does not exist. -/
def imageWriteBegin (box : Fin 8) (ok : Bool) (s : State) : State :=
  s.runWrite box.val (fun op => op != 2 && op != 3 && op != 4) (fun dev body s =>
    let a := reqArgs body
    let target := byteAt a 1
    match s.writeRange target (byteAt a 2) with
    | none => s.respond box.val dev body 2 []
    | some (at_, size) =>
      if byteAt a 0 ≠ 1 ∨ a.length ≠ 8 ∨ byteAt a 3 ≠ 0 ∨ leAt a 4 4 = 0 ∨ size < leAt a 4 4 then s.respond box.val dev body 2 []
      else if s.heath.imgWrite.isSome then s.respond box.val dev body 3 []
      else if !ok then s.mediaFail target at_ box.val dev body
      else
        ((s.eraseTarget target at_).modHeath (fun h => { h with
          imgWrite := some { target := target, area := byteAt a 2, total := leAt a 4 4, held := [] } })).respond box.val dev body 0 [])

/-- The bytes of a string at an offset that are held back, and the rest with its offset. -/
def splitHeld (n off : Nat) (bs : List Byte) : List (Nat × Byte) × Nat × List Byte :=
  let k := n - off
  (((bs.take k).zipIdx).map (fun e => (off + e.2, e.1)), off + min k bs.length, bs.drop k)

/-- IMAGE_WRITE_DATA. -/
def imageWriteData (box : Fin 8) (ok : Bool) (s : State) : State :=
  s.runWrite box.val (· == 2) (fun dev body s =>
    let a := reqArgs body
    let bs := a.drop 8
    match s.openWrite body with
    | none => s.respond box.val dev body 2 []
    | some w =>
      match s.writeRange w.target w.area with
      | none => s.respond box.val dev body 2 []
      | some (at_, _) =>
        if a.length < 8 ∨ 992 < bs.length ∨ w.total < leAt a 4 4 + bs.length then s.respond box.val dev body 2 []
        else if !ok then (s.closeWrite).mediaFail w.target at_ box.val dev body
        else
          let (held, off, rest) := splitHeld (heldBytes w.target) (leAt a 4 4) bs
          ((s.mediaWrite w.target (at_ + off) rest).modHeath (fun h => { h with
            imgWrite := some { w with
              held := held.foldl (fun m e => SMap.put m e.1 e.2) w.held } })).respond box.val dev body 0 [])

/-- The bytes that were held back; those not given read as the erased medium. -/
def ImgWrite.heldData (w : ImgWrite) : List Byte :=
  SMap.getMany (if w.target = 0 then norDefault else emmcDefault) w.held 0 (heldBytes w.target)

/-- What END finds of a copy: 0, or the cause (R374, R383). -/
def State.endCopy (s : State) (w : ImgWrite) (at_ : Nat) : Nat :=
  let h := w.heldData
  let c := h ++ s.norRead (at_ + 64) (min 0x2000000 (leAt h 16 4) - 64)
  let k := s.stageCause c true true
  if k ≠ 0 then k
  else if applyCause c ≠ 0 then applyCause c
  else if (s.img.map (fun m => decide (copyVersion c ≤ m.version))).getD false then 13
  else 0

/-- What END finds: 0, or the cause. `t` has the held bytes written. -/
def State.endCause (s t : State) (w : ImgWrite) (at_ : Nat) : Nat :=
  if w.target = 0 then s.endCopy w at_
  else if w.target = 1 then
    match s.area w.area with
    | none => 14
    | some a => if t.areaValid a && t.areaCrcOk a then 0 else 14
  else if areaTableOk s.areaTable then 0 else 14

/-- IMAGE_WRITE_END. -/
def imageWriteEnd (box : Fin 8) (ok : Bool) (s : State) : State :=
  s.runWrite box.val (· == 3) (fun dev body s =>
    match s.openWrite body with
    | none => s.respond box.val dev body 2 []
    | some w =>
      match s.writeRange w.target w.area with
      | none => s.respond box.val dev body 2 []
      | some (at_, _) =>
        let s1 := s.closeWrite
        if !ok then s1.mediaFail w.target at_ box.val dev body
        else
          let t := s1.mediaWrite w.target at_ w.heldData
          let k := s1.endCause t w at_
          if k = 0 then t.respond box.val dev body 0 []
          else (if w.target = 2 then s1.eraseTarget 2 at_ else s1).respond box.val dev body 6 [BitVec.ofNat 8 k])

/-- IMAGE_WRITE_ABORT. -/
def imageWriteAbort (box : Fin 8) (s : State) : State :=
  s.runWrite box.val (· == 4) (fun dev body s =>
    match s.openWrite body with
    | none => s.respond box.val dev body 2 []
    | some w =>
      match s.writeRange w.target w.area with
      | none => s.respond box.val dev body 2 []
      | some (at_, _) => (s.closeWrite.eraseTarget w.target at_).respond box.val dev body 0 [])

/-! Block reset. -/

/-- BLOCK_RESET_NVM: a map load or a ledger save in progress fails (R402). -/
def blockResetNvm (s : State) : State :=
  let s1 := (s.regsReset 0x70000 0x80000).flushXing 5
  let s2 := match s1.heath.mapLoad with
    | none => s1
    | some l => (s1.endMapLoad.raise 23).answerTo 0x0010 l.req 6 []
  match s2.heath.ledgerSave with
  | none => s2
  | some l => ((s2.endLedgerSave.raise 23).answerTo 0x0011 l.req 6 []).saveNext l.req

/-- SVC_MAP_LOAD. -/
def execSvcMapLoad (box : Fin 8) (s : State) : Host.Outcome State Fault Refusal := .next (svcMapLoad box s)
/-- MAP_LOAD_DONE. -/
def execMapLoadDone (ok : Bool) (s : State) : Host.Outcome State Fault Refusal := .next (mapLoadDone ok s)
/-- SVC_LEDGER_SAVE. -/
def execSvcLedgerSave (box : Fin 8) (s : State) : Host.Outcome State Fault Refusal := .next (svcLedgerSave box s)
/-- LEDGER_SAVE_DONE. -/
def execLedgerSaveDone (ok : Bool) (s : State) : Host.Outcome State Fault Refusal := .next (ledgerSaveDone ok s)
/-- IMAGE_WRITE_BEGIN. -/
def execImageWriteBegin (box : Fin 8) (ok : Bool) (s : State) : Host.Outcome State Fault Refusal := .next (imageWriteBegin box ok s)
/-- IMAGE_WRITE_DATA. -/
def execImageWriteData (box : Fin 8) (ok : Bool) (s : State) : Host.Outcome State Fault Refusal := .next (imageWriteData box ok s)
/-- IMAGE_WRITE_END. -/
def execImageWriteEnd (box : Fin 8) (ok : Bool) (s : State) : Host.Outcome State Fault Refusal := .next (imageWriteEnd box ok s)
/-- IMAGE_WRITE_ABORT. -/
def execImageWriteAbort (box : Fin 8) (s : State) : Host.Outcome State Fault Refusal := .next (imageWriteAbort box s)
/-- BLOCK_RESET_NVM. -/
def execBlockResetNvm (s : State) : Host.Outcome State Fault Refusal :=
  .next (s.onReg R.PWR_RESET_CTL blockResetNvm)

end Sys2Proof.Machine
end

