-- ==== Sys2Proof/Machine/RegPeek.lean ====
section
/-! DEFINITION. What a register or RAM window holds as a read finds it (17_register_index.md R448 to R450): stored registers, and
those that report a structured part of the machine. -/

namespace Sys2Proof.Machine

/-- A register's stored value with bit `b` showing a condition. -/
def State.withBit (s : State) (a b : Nat) (v : Bool) : Nat := putBits (s.rget a).toNat b b (b2n v)

/-! Clocks, power, temperature. -/

/-- CLK_STAT: PLL T while TIM runs and is not retuning; the panel-link PLLs in RUN and while a port trains (R391; DEDUCED, log
entry 59). -/
def State.clkStat (s : State) : Nat :=
  let t := s.tim.run && s.lyr.mode != .retune
  let ptx := s.pstate == 0 || (List.range 8).any (fun p => s.fget (F.PL_STAT_STATE p) == 1)
  putBits (s.withBit R.CLK_STAT 25 t) 24 24 (b2n ptx)

/-! Control plane. -/

/-- Word `i` of the message in box 0's OUT; 0 while it is empty. -/
def State.outWord (s : State) (i : Nat) : Nat := (((s.box 0).outMsg).map (fun m => leAt m (4 * i) 4)).getD 0

/-- Whether Heath has work: an event that woke it and is still pending, a request taken, or a service in progress (R352; log entry
53). -/
def State.heathBusy (s : State) : Bool :=
  (List.range 2).any (fun w => ((s.rget (R.EVT_PEND w)) &&& (s.rget (R.EVT_MASK_HEATH w))) != 0) ||
  s.boxes.any (fun x => x.req.isSome) || s.heath.mapLoad.isSome || s.heath.ledgerSave.isSome || s.heath.capture.isSome

/-- MBX_HEATH_STAT: the stored state 1, firmware started, reads 2 while Heath has work and its clock can run. -/
def State.heathStat (s : State) : Nat :=
  let v := (s.rget R.MBX_HEATH_STAT).toNat
  if s.fget F.MBX_HEATH_STAT_STATE = 1 ∧ s.heathBusy ∧ s.coreRuns then putBits v 15 14 2 else v

/-- MBX_BOX_STAT. -/
def State.boxStat (s : State) (b : Nat) : Nat :=
  putBits (s.withBit (R.MBX_BOX_STAT b) 31 (s.box b).inMsg.isSome) 29 29 (b2n (s.box b).outMsg.isSome)

/-- JOB_STAT. -/
def State.jobStat (s : State) : Nat :=
  256 * s.jobsRunning + ((List.range 8).filter (fun r => (s.jring r).running.isSome)).foldl (fun m r => m + 2 ^ r) 0

/-! Identity. -/

/-- SEC_UNIT_ID. -/
def unitId : Nat := beNat ((sha384Bytes leafPublic).take 4)

/-- SEC registers that report fuses and the running copy (R386). -/
def State.secWord (s : State) (a : Nat) : Nat :=
  if a = R.SEC_SERIAL_LO then s.fuses.num 0 4
  else if a = R.SEC_SERIAL_HI then s.fuses.num 4 4
  else if a = R.SEC_UNIT_ID then unitId
  else if a = R.SEC_ROLLBACK then ((s.img.map Image.rollback).getD 0) % 128 * 256 + s.fuses.level
  else if a = R.SEC_ROOT_STAT then ((s.img.map Image.rootSlot).getD 0) * 256 + s.fuses.num 0x110 1
  else s.withBit R.SEC_DEBUG_STAT 0 (bitOf (s.fuses.num 0x38 4) 1)

/-! Ingest and session. -/

/-- Registers of an ingest port that report its packet layer. -/
def State.ingWord (s : State) (p o : Nat) : Option Nat :=
  let q := s.port p
  match o with
  | 0x08 => some q.rxNext
  | 0x0C => some q.txNext
  | 0x10 => some (min 256 q.unacked.length)
  | 0x14 => some (min 256 q.pages)
  | 0x104 => if p = 0 then some s.ctxFree else none
  | _ => none

/-- The attachment that holds port `p`. -/
def State.attOn (s : State) (p : Nat) : Option Att := s.ses.atts.find? (fun a => a.ports.contains p)

/-- Ports of an attachment, bit p for port p. -/
def Att.portMask (a : Att) : Nat := a.ports.foldl (fun m p => m ||| 2 ^ p) 0

/-- SES_STAT. -/
def State.sesStat (s : State) : Nat :=
  let pri := (s.primary.bind s.att)
  let stb := (s.anyStandby.bind s.att)
  2 ^ 31 * b2n s.ses.active + 2 ^ 30 * b2n ((pri.map Att.enc).getD false) +
  2 ^ 29 * b2n ((pri.map (fun a => a.ports.length == 2)).getD false) + 2 ^ 26 * ((pri.map Att.portMask).getD 0) +
  2 ^ 24 * ((stb.map Att.portMask).getD 0) + 2 ^ 16 * s.ses.failovers

/-- SES_ATT_STAT of port `p`. -/
def State.attStat (s : State) (p : Nat) : Nat :=
  let c := s.ses.closeInfo.getD p (0, 0)
  let v := match s.attOn p with
    | none => 0
    | some a => 2 ^ 28 * a.state.code + 2 ^ 26 * a.role.code + 2 ^ 24 * (a.rx.phase % 4) + 2 ^ 22 * (a.tx.phase % 4) +
        2 ^ 21 * b2n a.retx + 2 ^ 20 * b2n a.bond + 2 ^ 19 * b2n a.silent
  v + 2 ^ 12 * c.1 + c.2

/-- SES registers that report attachments. -/
def State.sesWord (s : State) (a : Nat) : Option Nat :=
  if a = R.SES_STAT then some s.sesStat
  else if a = R.SES_SID then some (if s.ses.active then s.ses.sid else 0)
  else if a = R.SES_ATT_STAT 0 then some (s.attStat 0)
  else if a = R.SES_ATT_STAT 1 then some (s.attStat 1)
  else if a = R.SES_PEER_ID 0 ∨ a = R.SES_PEER_ID 1 then
    some (match s.attOn ((a - R.SES_PEER_ID 0) / 4) with
      | none => 0
      | some t => if t.keyedUp then t.peerId else 0)
  else none

/-! Cascade. -/

/-- CAS_BOVL_STAT of channel `c`. A row counts once it is as wide as the rows before it, the first once it is as wide as the channel or the
next has begun; on a follower rows are arriving from the first cell of a copy to the last row of the channel, while none is missed (R294,
R295; log entry 40). -/
def State.bovlStat (s : State) (c : Nat) : Nat :=
  let b := s.cas.chans.getD c ⟨0, 0, 0, none, false, none, none, 0⟩
  let rows := if b.width.getD (s.fget (F.CAS_BOVL_CFG_W c)) = b.x ∧ 0 < b.x then b.rows + 1 else b.rows
  let arriving := !s.isHead && decide (0 < b.x) && b.whole && rows != s.fget (F.CAS_BOVL_CFG_H c)
  2 ^ 31 * (b.active % 2) + 2 ^ 30 * b2n (b.copy.isSome || arriving) +
  2 ^ 29 * b2n b.queued.isSome + 2 ^ 16 * (rows % 2 ^ 13) + b.lastTurn % 65536

/-! Frame slots. -/

/-- SWD_SLOT_STAT of slot `n`. -/
def State.slotStat (s : State) (n : Nat) : Nat :=
  let shows := s.lyr.groups.any (fun g => (g.map (fun x => x.slot == n)).getD false)
  2 ^ 30 * s.slotCode n + 2 ^ 29 * b2n (s.slotCode n != 0 && s.slotComplete n) + 2 ^ 28 * b2n shows +
  ((s.slot n).decl.map Decl.groupMask).getD 0

/-- SWD registers that report the slots. -/
def State.swdWord (s : State) (a : Nat) : Option Nat :=
  (List.range 3).findSome? (fun n =>
    if a = R.SWD_SLOT_STAT n then some (s.slotStat n)
    else if a = R.SWD_SLOT_USED n then some (s.slot n).units
    else if a = R.SWD_DIR_USED n then some (s.slot n).dirUsed
    else none)

/-- A word of the ring table of slot `t` (R57, R226). -/
def ringWord (t : Slot) (o : Nat) : Nat :=
  let r := o / 16
  match t.ringPlane r with
  | none => 0
  | some _ =>
    let x := t.ring r
    match o / 4 % 4 with
    | 0 => 2 ^ 31 * b2n x.alloc + 2 ^ 30 * b2n (t.ringComplete r) + 2 ^ 29 + 2 ^ 24 * t.ncol r + (if x.alloc then x.dirBase else 0)
    | 1 => 65536 * x.zmask + x.rcvd
    | 2 => x.bytes
    | _ => 65536 * min 65535 x.repl + 256 * (x.limit % 256) + x.used % 256

/-- A word of the block directory of slot `t` (R56). -/
def dirWord (t : Slot) (o : Nat) : Nat :=
  match t.dir.find? (fun e => e.1 == o / 16) with
  | none => 0
  | some (_, e) =>
    let h := e.hdr
    match o / 4 % 4 with
    | 0 => 2 ^ 31 + 2 ^ 30 * b2n e.zero + 2 ^ 29 * b2n e.derr + (if e.zero then 0 else e.addr % 2 ^ 25)
    | 1 => 2 ^ 27 * h.ctab + 2 ^ 22 * h.atab + 2 ^ 21 * b2n h.dyna + 2 ^ 20 * b2n h.dync + h.len
    | 2 => h.tag
    | _ => 2 ^ 26 * h.plane + 2 ^ 18 * h.band + 2 ^ 14 * h.col + 2 ^ 13 * e.port

/-- The slot that the windows show; an empty one for SLOT = 3. -/
def State.winSlot (s : State) : Slot :=
  let n := s.fget F.SWD_WIN_SEL_SLOT
  if n = 3 then Slot.empty else s.slot n

/-! Layers and geometry. -/

/-- SYN_GEOM_GRID (R27). -/
def State.geomGrid (s : State) : Nat :=
  let g := s.geom
  if g.valid then 65536 * (g.hp / g.h) + 480 * g.ng / g.w else 2 ^ 31

/-- LYR_FALLOW_STAT. -/
def State.fallowStat (s : State) : Nat :=
  2 ^ 31 * b2n (s.lyr.jobs.any (fun j => j.started && !j.ended)) +
  65536 * min 64 (s.lyr.jobs.filter (fun j => !j.started)).length +
  min 64 (s.lyr.entries.filter (fun e => e.cur.isSome)).length

/-- LYR registers that report the turn. -/
def State.lyrWord (s : State) (a : Nat) : Option Nat :=
  if a = R.LYR_TURN_LO then some (s.lyr.turn % 2 ^ 32)
  else if a = R.LYR_TURN_HI then some (s.lyr.turn / 2 ^ 32)
  else if a = R.LYR_FLIP_TIME_LO then some (s.lyr.flipTime % 2 ^ 32)
  else if a = R.LYR_FLIP_TIME_HI then some (s.lyr.flipTime / 2 ^ 32)
  else if a = R.LYR_FALLOW_STAT then some s.fallowStat
  else none

/-! The whole map. -/

/-- The value of a register that reports a structured part of the machine; none for a stored one. -/
def State.computed (s : State) (a : Nat) : Option Nat :=
  match a / 65536 with
  | 0x00 => if a = R.CHIP_STEPPING then some (0x20 + 256 * b2n s.fuses.gradeX) else none
  | 0x01 => if a = R.CLK_STAT then some s.clkStat else none
  | 0x02 => if a = R.PWR_AVS_STAT then some (s.withBit a 30 s.avsActive) else none
  | 0x03 =>
    if a = R.CAL_STAT then some (s.withBit a 29 s.applying)
    else if R.CAL_ZONE_TEMP s.geom.ng ≤ a ∧ a < R.CAL_ZONE_TEMP 128 then some 0
    else none
  | 0x04 =>
    if a = R.MBX_HEATH_STAT then some s.heathStat
    else if R.MBX_BOX_STAT 0 ≤ a ∧ a < R.MBX_BOX_STAT 8 then some (s.boxStat ((a - R.MBX_BOX_STAT 0) / 4))
    else if R.MBX_OUT_DATA 0 ≤ a ∧ a < R.MBX_OUT_DATA 254 then some (s.outWord ((a - R.MBX_OUT_DATA 0) / 4))
    else none
  | 0x06 => if a = R.JOB_STAT then some s.jobStat else none
  | 0x08 => some (s.secWord a)
  | 0x10 => s.ingWord 0 (a % 65536)
  | 0x11 => s.ingWord 1 (a % 65536)
  | 0x12 => s.sesWord a
  | 0x14 =>
    if a = R.CAS_TIME_LO then some (s.nowNs % 2 ^ 32)
    else if a = R.CAS_TIME_HI then some (s.nowNs / 2 ^ 32)
    else if R.CAS_BOVL_STAT 0 ≤ a ∧ a < R.CAS_BOVL_STAT 8 then some (s.bovlStat ((a - R.CAS_BOVL_STAT 0) / 4))
    else none
  | 0x20 => s.swdWord a
  | 0x22 => if a = R.DEC_CTAB_PRESENT then some (0xFFFF + s.codeTabs.foldl (fun m t => m ||| 2 ^ t.1) 0 / 65536 * 65536) else none
  | 0x30 => if a = R.SYN_GEOM_GRID then some s.geomGrid else none
  | 0x34 => s.lyrWord a
  | _ => none

/-- What a read of a register finds, apart from snapshots. -/
def State.peek (s : State) (a : Nat) : W32 :=
  match regDesc a with
  | none => 0
  | some _ => ((s.computed a).map (BitVec.ofNat 32)).getD (s.rget a)

/-- A RAM window's word (R449). -/
def State.ramPeek (s : State) (a : Nat) : W32 :=
  if a < 0x2000000 then BitVec.ofNat 32 (ringWord s.winSlot (a - 0x1000000))
  else if a < 0x3000000 then BitVec.ofNat 32 (dirWord s.winSlot (a - 0x2000000))
  else if a < 0x3100000 then
    let o := a - 0x3000000
    let act := s.flag F.SYN_COEF_CTL_ACTIVE
    if o < 0x2000 then SMap.get coefDefault (if act then s.coef0 else s.coef1) (o / 4)
    else if o < 0x4000 then SMap.get coefDefault s.coefPage ((o - 0x2000) / 4)
    else 0
  else
    let o := a - 0x3100000
    let act := s.flag F.COL_LUT_CTL_ACTIVE
    if o < 0x40000 then SMap.get lutDefault (if act then s.lut0 else s.lut1) (o / 4)
    else if o < 0x80000 then SMap.get lutDefault s.lutPage ((o - 0x40000) / 4)
    else 0

/-! Windows. -/

/-- Whether an address lies in a RAM window. -/
def inRam (a : Nat) : Bool :=
  (decide (0x1000000 ≤ a) && decide (a < 0x1040000)) || (decide (0x2000000 ≤ a) && decide (a < 0x2200000)) ||
  (decide (0x3000000 ≤ a) && decide (a < 0x3010000)) || (decide (0x3100000 ≤ a) && decide (a < 0x3200000))

/-- Whether an address lies in a block window (R448). -/
def inBlock (a : Nat) : Bool :=
  [0x00, 0x01, 0x02, 0x03, 0x04, 0x05, 0x06, 0x07, 0x08, 0x10, 0x11, 0x12, 0x14, 0x20, 0x22, 0x30, 0x34, 0x36, 0x38, 0x3A, 0x3C,
    0x50, 0x60, 0x61].contains (a / 65536) || (decide (0x400000 ≤ a) && decide (a < 0x408000))

/-- Whether an address can be reached: in a window, bits [1:0] 0 (R328). -/
def addrOk (a : Nat) : Bool := (inBlock a || inRam a) && a % 4 == 0

end Sys2Proof.Machine
end

