-- ==== Sys2Proof/Machine/RegAccess.lean ====
section
/-! DEFINITION. Reads and writes of registers and RAM windows with their effects (00_scope.md R8 to R11; 13_control_plane.md R326
to R334; 15_clocks_resets_power.md R396; 17_register_index.md R451), and the management bus. -/

namespace Sys2Proof.Machine

/-! Snapshots. -/

/-- Snapshots of a path. -/
def Snaps.of (x : Snaps) : Path → SMap W32
  | .bus => x.bus
  | .control => x.control
  | .service => x.service
  | .heath => x.heath

/-- Change the snapshots of a path. -/
def Snaps.mod (x : Snaps) (p : Path) (f : SMap W32 → SMap W32) : Snaps :=
  match p with
  | .bus => { x with bus := f x.bus }
  | .control => { x with control := f x.control }
  | .service => { x with service := f x.service }
  | .heath => { x with heath := f x.heath }

/-- What a snapshot reads as before the first (R396): the register's reset value, for the serial the fuses' (R450). -/
def snapReset (a : Nat) : W32 :=
  if a = R.SEC_SERIAL_HI then BitVec.ofNat 32 (Config.unitSerial.toNat / 2 ^ 32) else regReset a

/-- The snapshot of a register on a path. -/
def State.snap (s : State) (p : Path) (a : Nat) : W32 := SMap.get snapReset (s.snaps.of p) a

/-- Take a value as the snapshot of a register on a path. -/
def State.snapSet (s : State) (p : Path) (a : Nat) (v : W32) : State :=
  { s with
    snaps := s.snaps.mod p (fun m => SMap.set snapReset m a v) }

/-- Take the snapshots of a group. -/
def State.snapTake (s : State) (p : Path) (as_ : List Nat) : State := as_.foldl (fun s a => s.snapSet p a (s.peek a)) s

/-- The other registers of the group that a register begins (R451). -/
def snapGroup (a : Nat) : List Nat :=
  if a = R.LYR_TURN_LO then [R.LYR_TURN_HI, R.LYR_FLIP_TIME_LO, R.LYR_FLIP_TIME_HI]
  else if a = R.CAS_TIME_LO then [R.CAS_TIME_HI]
  else if a = R.SEC_SERIAL_LO then [R.SEC_SERIAL_HI]
  else if a = R.SYN_PASS_HIST 0 then ((List.range 9).map (fun n => R.SYN_PASS_HIST (n + 1))) ++ [R.SYN_PEFF_MAX]
  else if a = R.COL_ZONE_STAT 0 then (List.range 127).map (fun n => R.COL_ZONE_STAT (n + 1))
  else []

/-- Whether a register is always read from its snapshot. -/
def snapMember (a : Nat) : Bool :=
  a == R.LYR_TURN_HI || a == R.LYR_FLIP_TIME_HI || a == R.CAS_TIME_HI || a == R.SEC_SERIAL_HI || a == R.SYN_PEFF_MAX ||
  (decide (R.SYN_PASS_HIST 0 < a) && decide (a ≤ R.SYN_PASS_HIST 9)) ||
  (decide (R.COL_ZONE_STAT 0 < a) && decide (a ≤ R.COL_ZONE_STAT 127)) || a == R.CAS_EVT_FIFO1 || a == R.CAS_EVT_FIFO2

/-- Arm or disarm the snapshot of LYR_FLIP_TIME_LO on a path (R123). -/
def State.arm (s : State) (p : Path) (on : Bool) : State :=
  let l := s.snaps.armed.filter (fun q => q != p)
  { s with
    snaps := { s.snaps with
      armed := if on then p :: l else l } }

/-! Reads. -/

/-- The RC bits of a layout. -/
def RegDesc.rcMask (d : RegDesc) : Nat :=
  d.fields.foldl (fun m f => if f.acc = .rc then m ||| ((2 ^ (f.hi + 1 - f.lo) - 1) * 2 ^ f.lo) else m) 0

/-- Whether a field is an RC field of the register at `a`. -/
def RegDesc.rcField (d : RegDesc) (a : Nat) (f : Fld) : Bool := d.fields.any (fun g => g.acc == .rc && f == ⟨a, g.hi, g.lo⟩)

/-- A register's value with other contents in its RC fields. -/
def RegDesc.withRc (d : RegDesc) (g : Fld → Nat) (a v : Nat) : Nat :=
  d.fields.foldl (fun v f => if f.acc = .rc then putBits v f.hi f.lo (g ⟨a, f.hi, f.lo⟩) else v) v

/-- What a read of a register returns: a field that it clears as it was before hardware's additions in this cycle (R11). -/
def State.readNow (s : State) (a : Nat) : W32 :=
  match regDesc a with
  | none => s.peek a
  | some d => if d.rcMask = 0 then s.peek a else BitVec.ofNat 32 (d.withRc (fun f => s.beforeOf f) a (s.peek a).toNat)

/-- A read of a register with RC fields clears them but for hardware's additions in this cycle (R9, R11); PEAK reloads the present Tj. -/
def State.rcClear (s : State) (a : Nat) : State :=
  match regDesc a with
  | none => s
  | some d =>
    if d.rcMask = 0 then s
    else
      let s1 := { s.rset a (BitVec.ofNat 32 (d.withRc (fun f => s.aloneOf f) a (s.rget a).toNat)) with
        cyc := { s.cyc with adds := s.cyc.adds.map (fun e => if d.rcField a e.1 then (e.1, 0, e.2.2) else e) } }
      if a = R.CAL_THERM_STAT then s1.fset F.CAL_THERM_STAT_PEAK (s1.fget F.CAL_TJ_TJ) else s1

/-- LYR_FLIP_TIME_LO (R123). -/
def State.readFlip (s : State) (p : Path) : W32 × State :=
  if s.snaps.armed.contains p then (s.snap p R.LYR_FLIP_TIME_LO, s.arm p false)
  else (s.peek R.LYR_FLIP_TIME_LO, s.snapTake p [R.LYR_FLIP_TIME_HI])

/-- CAS_EVT_FIFO0 (R298): the oldest record is removed, and its other fields are snapshot; 0 with none. -/
def State.readFifo (s : State) (p : Path) : W32 × State :=
  match s.cas.fifo with
  | [] => (0, (s.snapSet p R.CAS_EVT_FIFO1 0).snapSet p R.CAS_EVT_FIFO2 0)
  | e :: l =>
    let s1 := s.modCas (fun k => { k with fifo := l })
    (BitVec.ofNat 32 (2 ^ 31 + 2 ^ 23 * (e.count % 256) + e.src % 2 ^ 18),
      (s1.snapSet p R.CAS_EVT_FIFO1 (BitVec.ofNat 32 (e.source % 65536))).snapSet p R.CAS_EVT_FIFO2 (BitVec.ofNat 32 e.turn))

/-- Whether an address is that of a MEM_CLIENT_STAT. -/
def isClientStat (a : Nat) : Bool := decide (R.MEM_CLIENT_STAT 0 ≤ a) && decide (a ≤ R.MEM_CLIENT_STAT 8) && a % 4 == 0

/-- A read of a register without snapshots, with its RC effects. -/
def State.readStored (s : State) (a : Nat) : W32 × State := (s.readNow a, s.rcClear a)

/-- A read of MEM_CLIENT_STAT: once clients are served the FIFO has moved since it was last looked at; WORST is reloaded with the present
level (R314; log entry 20). -/
def State.readClient (s : State) (a : Nat) : W32 × State :=
  let n := (a - R.MEM_CLIENT_STAT 0) / 4
  let s1 := if s.mem.served then s.clientMove n else s
  ((s1.readStored a).1, (s1.readStored a).2.fset (F.MEM_CLIENT_STAT_WORST n) (s1.level n))

/-- A read at an address in a window, with its effects: the value and the machine after it. -/
def State.regRead (s : State) (p : Path) (a : Nat) : W32 × State :=
  if s.isOff a then (0, s)
  else if inRam a then (s.ramPeek a, s)
  else if snapMember a then (s.snap p a, s)
  else if a = R.LYR_FLIP_TIME_LO then s.readFlip p
  else if a = R.CAS_EVT_FIFO0 then s.readFifo p
  else if isClientStat a then s.readClient a
  else
    let s1 := s.snapTake p (snapGroup a)
    (if a = R.LYR_TURN_LO then s1.arm p true else s1).readStored a

/-! Writes. -/

/-- Give the fields of one access code the values that a write holds for them. -/
def RegDesc.take (d : RegDesc) (acc : Access) (c v : Nat) : Nat :=
  d.fields.foldl (fun c f => if f.acc = acc then putBits c f.hi f.lo (bitsOf v f.hi f.lo) else c) c

/-- The RWL fields of a register take the values of a write. -/
def State.takeLocked (s : State) (a v : Nat) : State :=
  match regDesc a with
  | none => s
  | some d => s.rset a (BitVec.ofNat 32 (d.take .rwl (s.rget a).toNat v))

/-- The block that owns the RWL fields of a register (R10). -/
def ownerOf (a : Nat) : Option Owner :=
  if a = R.CLK_TIME_CFG then some .tim
  else match a / 65536 with
    | 0x06 => some (.jobRing ((a - R.JOB_RING_BASE 0) / 16))
    | 0x14 => some .cas
    | 0x20 => some .swd
    | 0x30 => some .syn
    | 0x3A => some .drv
    | 0x3C => some .tim
    | 0x50 => some .pwd
    | 0x60 => some .mem
    | _ => none

/-- Whether a block counts as stopped (R10, R97, R312); TIM and DRV do not during a mode change (R132). -/
def State.stopped (s : State) : Owner → Bool
  | .syn => !s.flag F.SYN_CTL_RUN
  | .drv => !s.flag F.DRV_CTL_RUN && !s.modeQuiet
  | .tim => !s.tim.run && !s.modeQuiet
  | .swd => decide (s.boot.step < 7)
  | .mem => decide (s.boot.step < 8) || s.pstate == 2 || s.pwr.going == some 2 || s.pwr.going == some 3
  | .cas => !s.flag F.CAS_CTL_EN
  | .pwd => s.pwd.pos == .off
  | .jobRing r => s.ringStopped r

/-- What a write came to: done, refused under R10, a SEND refused under R338, or a block that is off. -/
inductive WriteRes where
  | ok | refused | full | off
  deriving DecidableEq, Repr

/-- STATUS of a write for CONTROL and the services (R335, R347). -/
def WriteRes.status : WriteRes → Nat
  | .ok => 0
  | .refused => 1
  | .full => 1
  | .off => 2

/-- The value of a register after a write, by the access codes of its fields (R9): `set` holds the W1C bits that hardware sets in the same
cycle, which the write leaves set (R11). -/
def RegDesc.written (d : RegDesc) (stopped : Bool) (set c v : Nat) : Nat :=
  d.fields.foldl (fun c f =>
    let n := bitsOf v f.hi f.lo
    let o := bitsOf c f.hi f.lo
    match f.acc with
    | .rw => putBits c f.hi f.lo n
    | .rwl => if stopped then putBits c f.hi f.lo n else c
    | .w1c => putBits c f.hi f.lo ((o &&& (2 ^ (f.hi + 1 - f.lo) - 1 - n)) ||| bitsOf set f.hi f.lo)
    | .w1s => putBits c f.hi f.lo (o ||| n)
    | _ => c) c

/-- A value without the bits that are reserved in this element of an array: PANIC of a background client and SHARE of a real-time
client (R314). -/
def unreserved (a v : Nat) : Nat :=
  if R.MEM_CLIENT_CFG 0 ≤ a ∧ a ≤ R.MEM_CLIENT_CFG 4 then v % 65536
  else if R.MEM_CLIENT_CFG 5 ≤ a ∧ a ≤ R.MEM_CLIENT_CFG 8 then v / 65536 * 65536
  else v

/-- The W1C bits of a register that hardware has set in this cycle. -/
def State.setNow (s : State) (a : Nat) : Nat := SMap.get (fun _ => 0) s.cyc.sets a

/-- Whether the RWL fields of a register take a write: their owner is stopped, or was started in this cycle (R10). -/
def State.unlocked (s : State) (a : Nat) : Bool :=
  ((ownerOf a).map (fun o => s.stopped o || s.cyc.starts.contains o)).getD true

/-- One more than the rank of the last path that has written a register in this cycle. -/
def State.wroteNow (s : State) (a : Nat) : Nat := SMap.get (fun _ => 0) s.cyc.wrote a

/-- What a write leaves in a register: a path that comes before one that has written it in this cycle leaves its RW and RWL fields to that
one (R327). -/
def State.stored (s : State) (d : RegDesc) (a v : Nat) : Nat :=
  let c := (s.rget a).toNat
  let w := d.written (s.unlocked a) (s.setNow a) c (unreserved a v)
  if s.cyc.rank + 1 < s.wroteNow a then d.take .rwl (d.take .rw w c) c else w

/-- A plain write of a register: its fields by their codes, and the refusal of its RWL fields while their owner runs (R10). A clear
of a VALID bit finds an event of the same moment (R11). -/
def State.storeReg (s : State) (a v : Nat) : WriteRes × State :=
  match regDesc a with
  | none => (.ok, s)
  | some d =>
    let s0 := (s.rset a (BitVec.ofNat 32 (s.stored d a v))).modCyc (fun c => { c with
      wrote := SMap.put c.wrote a (max (c.rank + 1) (s.wroteNow a)) })
    let s1 := if bitOf v 31 && captureRegs.contains a then s0.recapture a else s0
    if d.fields.any (fun f => f.acc == .rwl) && !s.unlocked a then
      (.refused, (s1.fadd F.CHIP_WRITE_REFUSED_COUNT 1).modCyc (fun c => { c with refused := c.refused ++ [(a, v)] }))
    else (.ok, s1)

/-- A block's stop comes before the writes of its RWL fields that reached it in the same cycle: they are made, and were not refused
(R10). -/
def State.release (s : State) (o : Owner) : State :=
  if !s.stopped o then s
  else
    let mine := fun (e : Nat × Nat) => ownerOf e.1 == some o
    (s.cyc.refused.filter mine).foldl (fun s e =>
      let s1 := s.uncount F.CHIP_WRITE_REFUSED_COUNT
      match o with
      | .jobRing r => if e.1 = R.JOB_RING_BASE r then s1.ringBase r e.2 else s1.takeLocked e.1 e.2
      | _ => s1.takeLocked e.1 e.2)
      (s.modCyc (fun c => { c with refused := c.refused.filter (fun e => !mine e) }))

/-- A stopped block starts: the writes of this cycle come before it (R10). -/
def State.started (s : State) (o : Owner) : State := s.modCyc (fun c => { c with starts := o :: c.starts })

/-- The level-sensitive sources set their bit again while their condition holds (R350, R351): CAS_TREE and MBX_HOST. -/
def State.levels (s : State) : State :=
  let m := (if s.cas.fifo.isEmpty then 0 else 2 ^ 11) + (if (s.box 0).outMsg.isSome then 2 ^ 14 else 0)
  s.rset (R.EVT_PEND 0) (s.rget (R.EVT_PEND 0) ||| BitVec.ofNat 32 m)

/-- Whether a bit of a field is written 1. -/
def asks (f : Fld) (v : Nat) : Bool := bitOf v f.lo

/-- Apply an action where its bit is written 1. -/
def State.act (s : State) (f : Fld) (v : Nat) (g : State → State) : State := if asks f v then g s else s

/-- PWR_RESET_CTL (R400, R402): the block resets in bit order, then the warm reset; a reset of PL while TIM runs is refused. -/
def State.resetCtl (s : State) (v : Nat) : WriteRes × State :=
  let b := fun (k : Nat) (g : State → State) (s : State) => if bitOf v k then g s else s
  let s1 := b 3 blockResetJob (b 2 blockResetCas (b 1 (blockResetIng 1) (b 0 (blockResetIng 0) s)))
  (if bitOf v 4 && s1.plHeld then .refused else .ok,
    (b 5 blockResetNvm (b 4 blockResetPl s1)).act F.PWR_RESET_CTL_WARM v warmReset)

/-- MBX_HOST_CTL: RESET, DONE, SEND in this order. -/
def State.hostCtl (s : State) (v : Nat) : WriteRes × State :=
  let s1 := (s.act F.MBX_HOST_CTL_RESET v mbxHostReset).act F.MBX_HOST_CTL_DONE v mbxDone
  if asks F.MBX_HOST_CTL_SEND v then (if s1.hostSend.1 then .full else .ok, s1.hostSend.2) else (.ok, s1)

/-- CAS_CTL: a stop comes before the write of the RWL fields, a start after it (R10). -/
def State.casCtl (s : State) (v : Nat) : WriteRes × State :=
  let en := asks F.CAS_CTL_EN v
  let starts := en && !s.flag F.CAS_CTL_EN
  let s1 := if en then s else (s.casEnable false).release .cas
  let (r, s2) := s1.storeReg R.CAS_CTL (putBits v 30 30 (b2n (s1.flag F.CAS_CTL_EN)))
  let s3 := if en then s2.casEnable true else s2
  (r, (if starts then s3.started .cas else s3).act F.CAS_CTL_ENUM v casEnum)

/-- JOB_RING_CFG of ring `r`: a stop comes before the write of LOG2 (R10). -/
def State.ringCfg (s : State) (r v : Nat) : WriteRes × State :=
  let starts := asks (F.JOB_RING_CFG_EN r) v && s.ringStopped r
  let s1 := if asks (F.JOB_RING_CFG_EN r) v then s else (s.fput (F.JOB_RING_CFG_EN r) false).release (.jobRing r)
  let (w, s2) := s1.storeReg (R.JOB_RING_CFG r) v
  (w, if starts then s2.started (.jobRing r) else s2)

/-- A JOB register. -/
def State.jobReg (s : State) (a v : Nat) : WriteRes × State :=
  let r := (a - R.JOB_RING_BASE 0) / 16 % 8
  let i : Fin 8 := Fin.ofNat 8 r
  if a < R.JOB_RING_BASE 0 then (.ok, s)
  else if a = R.JOB_RING_BASE r then
    (if s.ringOpen r then .ok else .refused, jobBaseWrite i (BitVec.ofNat 29 v) s)
  else if a = R.JOB_RING_TAIL r then (.ok, jobTailWrite i (BitVec.ofNat 16 v) s)
  else if a = R.JOB_RING_CFG r then s.ringCfg r v
  else (.ok, s)

/-- EMC_MAP_BASE and EMC_MAP_CFG of generation `n`, under R146. -/
def State.emcMap (s : State) (n a v : Nat) : WriteRes × State :=
  let active := (n == 1) == s.flag F.EMC_MAP_CTL_ACTIVE
  if s.flag F.DRV_CTL_RUN && (active || s.flag F.EMC_MAP_CTL_PEND) then (.ok, s.fadd F.EMC_MAP_CTL_REFUSED 1) else s.storeReg a v

/-- Writes to registers of CHIP to SEC that do more than store. -/
def State.writeAon (s : State) (a v : Nat) : WriteRes × State :=
  if a = R.PWR_STATE_REQ then
    (.ok, (s.storeReg a v).2.act ⟨R.PWR_STATE_REQ, 31, 31⟩ v (fun s => s.pwrRequest .register (v % 4)))
  else if a = R.PWR_RESET_CTL then s.resetCtl v
  else if a = R.CAL_CTL then (.ok, (s.storeReg a v).2.act ⟨R.CAL_CTL, 31, 31⟩ v calGo)
  else if a = R.MBX_HOST_CTL then s.hostCtl v
  else if h : R.MBX_IN_DATA 0 ≤ a ∧ (a - R.MBX_IN_DATA 0) / 4 < 254 then
    (.ok, mbxInDataWrite ⟨(a - R.MBX_IN_DATA 0) / 4, h.2⟩ (BitVec.ofNat 32 v) s)
  else if a = R.EVT_PEND 0 then (.ok, (s.storeReg a v).2.levels)
  else if a / 65536 = 6 then s.jobReg a v
  else s.storeReg a v

/-- Writes to registers of ING, SES and CAS that do more than store. -/
def State.writeLinks (s : State) (a v : Nat) : WriteRes × State :=
  if a = R.ING_CTL 0 then (.ok, (ingEnable 0 (asks (F.ING_CTL_EN 0) v) s).act (F.ING_CTL_RETRAIN 0) v (ingRetrain 0))
  else if a = R.ING_CTL 1 then (.ok, (ingEnable 1 (asks (F.ING_CTL_EN 1) v) s).act (F.ING_CTL_RETRAIN 1) v (ingRetrain 1))
  else if a = R.SES_CTL then
    (.ok, ((s.storeReg a v).2.act F.SES_CTL_KILL v sesKill).act F.SES_CTL_FAILOVER v sesFailover)
  else if a = R.CAS_CTL then s.casCtl v
  else if a = R.CAS_TIME_SET_LO then (.ok, casTimeSet (BitVec.ofNat 32 v) s)
  else if a = R.CAS_TIME_SET_HI then (.ok, if s.isHead then (s.storeReg a v).2 else s)
  else s.storeReg a v

/-- Writes to the other registers that do more than store. -/
def State.writeCore (s : State) (a v : Nat) : WriteRes × State :=
  if a = R.SYN_CTL then (.ok, s.synWrite (asks F.SYN_CTL_START v) (asks F.SYN_CTL_STOP v))
  else if a = R.DRV_CTL then (.ok, s.drvWrite (asks F.DRV_CTL_START v) (asks F.DRV_CTL_STOP v))
  else if a = R.SYN_COEF_CTL then (.ok, s.act F.SYN_COEF_CTL_SWAP v coefSwap)
  else if a = R.COL_LUT_CTL then (.ok, s.act F.COL_LUT_CTL_SWAP v lutSwap)
  else if a = R.EMC_MAP_CTL then (.ok, s.act F.EMC_MAP_CTL_SWAP v mapSwap)
  else if a = R.EMC_MAP_BASE 0 ∨ a = R.EMC_MAP_CFG 0 then s.emcMap 0 a v
  else if a = R.EMC_MAP_BASE 1 ∨ a = R.EMC_MAP_CFG 1 then s.emcMap 1 a v
  else if a = R.SYN_GEOM_PROBE_CTL then
    (.ok, (s.storeReg a v).2.act F.SYN_GEOM_PROBE_CTL_GO v (geomProbeGo (BitVec.ofNat 7 v)))
  else if a = R.LYR_FALLOW_DROP then (.ok, fallowDrop (BitVec.ofNat 32 v) s)
  else if R.LYR_FENCE_VAL 0 ≤ a ∧ a ≤ R.LYR_FENCE_VAL 63 then (.ok, s.fenceUpdate ((a - R.LYR_FENCE_VAL 0) / 4) v)
  else if a = R.TIM_MODE_REQ then
    (.ok, (s.storeReg a v).2.act F.TIM_MODE_REQ_GO v (modeRequest (BitVec.ofNat 3 (bitsOf v F.TIM_MODE_REQ_TSET.hi F.TIM_MODE_REQ_TSET.lo))))
  else if 0x400000 ≤ a ∧ a < 0x408000 ∧ a % 0x1000 = 0 then
    let p := (a - 0x400000) / 0x1000
    let i : Fin 8 := Fin.ofNat 8 p
    (.ok, ((s.storeReg a v).2.act (F.PL_CTL_TRAIN p) v (plTrain i)) |> plForce i (BitVec.ofNat 17 v))
  else if a = R.PWD_SEQ_CTL then
    let up := asks F.PWD_SEQ_CTL_UP v
    let down := asks F.PWD_SEQ_CTL_DOWN v
    (.ok, if up ∧ !down then s.upRequest else if down ∧ !up then s.downRequest else s)
  else if a = R.MPHY_TRAIN_CTL then (.ok, s.act F.MPHY_TRAIN_CTL_GO v mphyTrainGo)
  else s.storeReg a v

/-- A write to a RAM window (R67, R84, R136): only the inactive pages take it, and not while PEND = 1. -/
def State.ramWrite (s : State) (a : Nat) (v : W32) : State :=
  if 0x3000000 ≤ a ∧ a < 0x3002000 then
    if s.flag F.SYN_COEF_CTL_PEND then s.fadd F.SYN_COEF_CTL_REFUSED 1
    else
      let i := (a - 0x3000000) / 4
      if s.flag F.SYN_COEF_CTL_ACTIVE then { s with
        coef0 := SMap.set coefDefault s.coef0 i v }
      else { s with
        coef1 := SMap.set coefDefault s.coef1 i v }
  else if 0x3100000 ≤ a ∧ a < 0x3140000 then
    if s.flag F.COL_LUT_CTL_PEND then s.fadd F.COL_LUT_CTL_REFUSED 1
    else
      let o := a - 0x3100000
      let w := BitVec.ofNat 32 (v.toNat &&& lutMask o)
      if s.flag F.COL_LUT_CTL_ACTIVE then { s with
        lut0 := SMap.set lutDefault s.lut0 (o / 4) w }
      else { s with
        lut1 := SMap.set lutDefault s.lut1 (o / 4) w }
  else s

/-- The order of the access paths in one cycle (R327): 0 Heath and the services, 1 and 2 CONTROL of ING0 and ING1, 3 the management
bus. -/
def pathRank : Path → Nat
  | .heath => 0
  | .service => 0
  | .control => 1
  | .bus => 3

/-- A write at an address in a window by the path of a rank, with its effects, and what it came to. -/
def State.regWrite (s : State) (k a : Nat) (v : W32) : WriteRes × State :=
  let s := s.modCyc (fun c => { c with rank := k })
  if s.isOff a then (.off, s)
  else if inRam a then (.ok, s.ramWrite a v)
  else if (regDesc a).isNone then (.ok, s)
  else if a < 0x100000 then s.writeAon a v.toNat
  else if a < 0x200000 then s.writeLinks a v.toNat
  else s.writeCore a v.toNat

/-! Accesses by path. -/

/-- Count a management-bus error in MBX_I2C_STAT; a count that advances raises MGMT_ERROR (R350). -/
def State.mgmtError (s : State) (f : Fld) : State := if s.fget f = 255 then s else (s.fadd f 1).raise 24

/-- An access outside every window, or misaligned (R328). -/
def State.badAccess (s : State) (p : Path) : State :=
  match p with
  | .bus => s.mgmtError F.MBX_I2C_STAT_BADADDR
  | .heath => s.heathFault
  | _ => s

/-- Keep the value that a read returned. -/
def State.gave (x : W32 × State) : State := { x.2 with rdata := x.1 }

/-- A read on a path. -/
def State.pathRead (s : State) (p : Path) (a : W32) : State :=
  if addrOk a.toNat then State.gave (s.regRead p a.toNat)
  else State.gave (0xFFFFFFFF, s.badAccess p)

/-- REGISTER_WRITE. -/
def registerWrite (p : Path) (a v : W32) (s : State) : State :=
  if addrOk a.toNat then (s.regWrite (pathRank p) a.toNat v).2 else s.badAccess p

/-- READ_CLEAR_REGISTER: a read of any register, with its RC effects (R11). -/
def readClearRegister (p : Path) (a : W32) (s : State) : State := s.pathRead p a

/-- SNAPSHOT_READ: a read of a register that begins a snapshot group, or of one of its members (R396, R451). -/
def snapshotRead (p : Path) (a : W32) (s : State) : State := s.pathRead p a

/-- TURN_LO_READ. -/
def turnLoRead (p : Path) (s : State) : State := State.gave (s.regRead p R.LYR_TURN_LO)

/-- FLIP_TIME_LO_READ. -/
def flipTimeLoRead (p : Path) (s : State) : State := State.gave (s.regRead p R.LYR_FLIP_TIME_LO)

/-- EVT_FIFO_READ. -/
def evtFifoRead (p : Path) (s : State) : State := State.gave (s.regRead p R.CAS_EVT_FIFO0)

/-! The management bus (R330 to R334). -/

/-- Whether the target answers an address (R330). -/
def State.i2cMine (s : State) (dev : BitVec 7) : Bool :=
  !s.pwr.por && dev.toNat == 0x5C + 2 * b2n s.straps.addr1 + b2n s.straps.addr0

/-- The register address of a transaction, and its NOINC and PEC bits (R331). -/
structure I2cAddr where
  reg : Nat
  noinc : Bool
  pec : Bool
  deriving DecidableEq, Repr

/-- The address bytes. -/
def readI2cAddr (b : List Byte) : I2cAddr := ⟨leAt b 0 4 % 2 ^ 30, bitOf (leAt b 0 4) 30, bitOf (leAt b 0 4) 31⟩

/-- The address after one register. -/
def I2cAddr.next (x : I2cAddr) : I2cAddr := if x.noinc then x else { x with reg := (x.reg + 4) % 2 ^ 30 }

/-- CRC-8 of R333. -/
def crc8 (b : List Byte) : Nat := crcMsb 8 0x07 0 (byteBitsMsb b)

/-- The byte at a place was not acknowledged. -/
def State.nacked (s : State) (i : Nat) : State := { s with i2cNack := some i }

/-- Write the groups of a transaction one by one (R331): `i` is the place of the first byte of the next group. -/
def State.i2cGroups (s : State) (x : I2cAddr) (i : Nat) : Nat → List Byte → State
  | 0, _ => s
  | fuel + 1, b =>
    if b.isEmpty then s
    else if b.length < 4 then s.mgmtError F.MBX_I2C_STAT_PARTIAL
    else if !addrOk x.reg then (s.mgmtError F.MBX_I2C_STAT_BADADDR).nacked (i + 3)
    else match s.regWrite 3 x.reg (BitVec.ofNat 32 (leAt b 0 4)) with
      | (.full, s1) => s1.nacked (i + 3)
      | (_, s1) => s1.i2cGroups x.next (i + 4) fuel (b.drop 4)

/-- Apply held groups, or nothing where one of them would be refused (R333). -/
def State.i2cHeld (s : State) (x : I2cAddr) : Nat → List Byte → Option State
  | 0, _ => some s
  | fuel + 1, b =>
    if b.isEmpty then some s
    else if !addrOk x.reg then none
    else match s.regWrite 3 x.reg (BitVec.ofNat 32 (leAt b 0 4)) with
      | (.full, _) => none
      | (_, s1) => s1.i2cHeld x.next fuel (b.drop 4)

/-- Count in BADADDR each of `n` groups whose address lies outside every window (R328). -/
def State.badGroups (s : State) (x : I2cAddr) : Nat → State
  | 0 => s
  | n + 1 => (if addrOk x.reg then s else s.mgmtError F.MBX_I2C_STAT_BADADDR).badGroups x.next n

/-- A write with PEC (R333): `b` is the whole transaction after the target's address byte. -/
def State.i2cPec (s : State) (dev : BitVec 7) (x : I2cAddr) (b : List Byte) : State :=
  let n := b.length - 4
  let last := b.length - 1
  if 68 ≤ n then s.nacked 71
  else if n % 4 = 1 then
    let ok := crc8 (BitVec.ofNat 8 (2 * dev.toNat) :: b.take last) == byteAt b last
    match s.i2cHeld x 17 ((b.drop 4).take (n - 1)), ok with
    | some t, true => t
    | _, _ => ((s.mgmtError F.MBX_I2C_STAT_PECERR).badGroups x (n / 4)).nacked last
  else if n % 4 = 0 then s
  else s.mgmtError F.MBX_I2C_STAT_PARTIAL

/-- I2C_WRITE: START, the target's address, `bytes`, and STOP or a repeated START. -/
def i2cWrite (dev : BitVec 7) (bytes : List Byte) (s : State) : State :=
  if !s.i2cMine dev then s
  else
    let s0 := { s with i2cNack := none }
    let x := readI2cAddr bytes
    if bytes.length < 4 then s0.mgmtError F.MBX_I2C_STAT_PARTIAL
    else if x.reg % 4 ≠ 0 then (s0.mgmtError F.MBX_I2C_STAT_BADADDR).nacked 3
    else if x.pec then s0.i2cPec dev x bytes
    else s0.i2cGroups x 4 bytes.length (bytes.drop 4)

/-- Read registers one by one: each value goes to the host, and with PEC its check byte (R332, R333). -/
def State.i2cRegs (s : State) (x : I2cAddr) (raw : List Byte) : Nat → State
  | 0 => s
  | n + 1 =>
    let s1 := s.pathRead .bus (BitVec.ofNat 32 x.reg)
    let v := leBytes 4 s1.rdata.toNat
    let addr := leBytes 4 (x.reg + leAt raw 0 4 / 2 ^ 30 * 2 ^ 30)
    let s2 := { s1 with i2cOut := s1.i2cOut ++ v ++ (if x.pec then [BitVec.ofNat 8 (crc8 (addr ++ v))] else []) }
    s2.i2cRegs x.next raw n

/-- I2C_READ: START, the target's address, `addr`, a repeated START, and `n` registers of which the host takes all bytes. -/
def i2cRead (dev : BitVec 7) (addr : List Byte) (n : Nat) (s : State) : State :=
  if !s.i2cMine dev then s
  else
    let s0 := { s with
      i2cNack := none
      i2cOut := [] }
    let x := readI2cAddr addr
    if addr.length < 4 then s0.mgmtError F.MBX_I2C_STAT_PARTIAL
    else if x.reg % 4 ≠ 0 then
      { (s0.mgmtError F.MBX_I2C_STAT_BADADDR).nacked 3 with
        rdata := 0xFFFFFFFF
        i2cOut := List.replicate ((if x.pec then 5 else 4) * n) 0xFF }
    else if 4 < addr.length then i2cWrite dev addr s0
    else s0.i2cRegs x addr n

/-- I2C_BUS_TIMEOUT: SCL, or SDA of an idle bus, low for 35 ms in the transaction whose bytes are given: an incomplete group and
groups held for a check byte are discarded (R334). A misaligned address was found at its fourth byte (R331). -/
def i2cBusTimeout (dev : BitVec 7) (bytes : List Byte) (s : State) : State :=
  if s.pwr.por then s
  else
    let n := bytes.length / 4 * 4
    let x := readI2cAddr bytes
    let s1 := if s.i2cMine dev ∧ 4 ≤ n ∧ (x.reg % 4 ≠ 0 ∨ !x.pec) then i2cWrite dev (bytes.take n) s else s
    s1.mgmtError F.MBX_I2C_STAT_TIMEOUT

/-! CONTROL packets (R335 to R337). -/

/-- The bit of POLICY's CTL_CLOSED for the window of an address (R372). -/
def closedBit (a : Nat) : Nat :=
  if inRam a then 11
  else match a / 65536 with
    | 0x00 => 0
    | 0x01 => 0
    | 0x02 => 0
    | 0x03 => 1
    | 0x04 => 2
    | 0x05 => 2
    | 0x06 => 3
    | 0x07 => 4
    | 0x08 => 4
    | 0x14 => 5
    | 0x20 => 6
    | 0x22 => 6
    | 0x30 => 6
    | 0x34 => 6
    | 0x36 => 7
    | 0x38 => 7
    | 0x3A => 7
    | 0x3C => 8
    | 0x40 => 8
    | 0x50 => 9
    | 0x60 => 10
    | 0x61 => 10
    | _ => 12

/-- Whether POLICY closes a window to CONTROL writes. -/
def State.ctlClosed (s : State) (a : Nat) : Bool :=
  ((s.img.map (fun m => bitOf (leAt m.policy 56 2) (closedBit a)))).getD false

/-- The operations of a CONTROL payload. -/
def ctlOps (payload : List Byte) (n : Nat) : List (List Byte) := (List.range n).map (fun i => sliceB payload (16 * i) 16)

/-- ADDR of an operation. -/
def opAddr (o : List Byte) : Nat := leAt o 4 4

/-- The form of an operation (R336, check 1). -/
def opForm (o : List Byte) : Bool :=
  decide (1 ≤ byteAt o 0) && decide (byteAt o 0 ≤ 3) && byteAt o 1 == 0 && leAt o 2 2 == 0 && opAddr o % 4 == 0 &&
  (byteAt o 0 == 3 || leAt o 12 4 == 0)

/-- The first operation that fails a check. -/
def firstBad (f : List Byte → Bool) (ops : List (List Byte)) : Option Nat := ops.findIdx? (fun o => !f o)

/-- What R336 finds of a CONTROL packet. -/
def State.ctlCheck (s : State) (a : Att) (t payload : List Byte) : Option Nak :=
  let n := byteAt t 0
  let ops := ctlOps payload n
  if n = 0 ∨ payload.length ≠ 16 * n ∨ byteAt t 1 ≠ 0 ∨ leAt t 2 2 ≠ 0 ∨ leAt t 8 4 ≠ 0 then some ⟨0x19, 0xFF⟩
  else match firstBad opForm ops with
    | some i => some ⟨0x19, i⟩
    | none => match firstBad (fun o => addrOk (opAddr o)) ops with
      | some i => some ⟨0x1A, i⟩
      | none => match firstBad (fun o => byteAt o 0 == 1 || !(a.role == .standby || s.ctlClosed (opAddr o))) ops with
        | some i => some ⟨0x1B, i⟩
        | none => none

/-- An operation with STATUS and VALUE filled in. -/
def opAnswer (o : List Byte) (status : Nat) (v : W32) : List Byte :=
  [BitVec.ofNat 8 (byteAt o 0), BitVec.ofNat 8 status, 0, 0] ++ sliceB o 4 4 ++ leBytes 4 v.toNat ++ sliceB o 12 4

/-- Run one operation, by the path of a rank (R335). -/
def State.ctlOp (s : State) (k : Nat) (o : List Byte) : List Byte × State :=
  let a := opAddr o
  let v := BitVec.ofNat 32 (leAt o 8 4)
  if byteAt o 0 = 2 then
    let (r, s1) := s.regWrite k a v
    (opAnswer o r.status v, s1)
  else
    let off := s.isOff a
    let (old, s1) := s.regRead .control a
    if byteAt o 0 = 1 then (opAnswer o (if off then 2 else 0) old, s1)
    else
      let m := BitVec.ofNat 32 (leAt o 12 4)
      let (r, s2) := s1.regWrite k a ((old &&& ~~~m) ||| (v &&& m))
      (opAnswer o r.status old, s2)

/-- Run the operations in order. -/
def State.ctlRun (s : State) (k : Nat) : List (List Byte) → List Byte × State
  | [] => ([], s)
  | o :: l =>
    let (a, s1) := s.ctlOp k o
    let (b, s2) := s1.ctlRun k l
    (a ++ b, s2)

/-- CONTROL. -/
def control (p : Fin 2) (page : EccResult) (s : State) : State :=
  s.processWith p .control page (fun i a h s =>
    let t := h.pkt.hdr.tsf
    match s.ctlCheck a t h.pkt.payload with
    | some n => s.refusePkt ⟨p, h.pkt.hdr.seq⟩ n
    | none =>
      let (ans, s1) := s.ctlRun (1 + p.val) (ctlOps h.pkt.payload (byteAt t 0))
      match s1.att i with
      | none => s1
      | some a1 =>
        if a1.state = .closed then s1
        else s1.sendSeq i p .control (leBytes 1 (byteAt t 0) ++ leBytes 1 1 ++ leBytes 2 0 ++ sliceB t 4 4) ans)

/-- REGISTER_WRITE. -/
def execRegisterWrite (p : Path) (a v : W32) (s : State) : Host.Outcome State Fault Refusal := .next (registerWrite p a v s)
/-- READ_CLEAR_REGISTER. -/
def execReadClearRegister (p : Path) (a : W32) (s : State) : Host.Outcome State Fault Refusal := .next (readClearRegister p a s)
/-- SNAPSHOT_READ. -/
def execSnapshotRead (p : Path) (a : W32) (s : State) : Host.Outcome State Fault Refusal := .next (snapshotRead p a s)
/-- TURN_LO_READ. -/
def execTurnLoRead (p : Path) (s : State) : Host.Outcome State Fault Refusal := .next (turnLoRead p s)
/-- FLIP_TIME_LO_READ. -/
def execFlipTimeLoRead (p : Path) (s : State) : Host.Outcome State Fault Refusal := .next (flipTimeLoRead p s)
/-- EVT_FIFO_READ. -/
def execEvtFifoRead (p : Path) (s : State) : Host.Outcome State Fault Refusal := .next (evtFifoRead p s)
/-- I2C_WRITE. -/
def execI2cWrite (dev : BitVec 7) (bytes : List Byte) (s : State) : Host.Outcome State Fault Refusal := .next (i2cWrite dev bytes s)
/-- I2C_READ. -/
def execI2cRead (dev : BitVec 7) (addr : List Byte) (n : Nat) (s : State) : Host.Outcome State Fault Refusal :=
  .next (i2cRead dev addr n s)
/-- I2C_BUS_TIMEOUT. -/
def execI2cBusTimeout (dev : BitVec 7) (bytes : List Byte) (s : State) : Host.Outcome State Fault Refusal :=
  .next (i2cBusTimeout dev bytes s)
/-- CONTROL. -/
def execControl (p : Fin 2) (page : EccResult) (s : State) : Host.Outcome State Fault Refusal := .next (control p page s)

end Sys2Proof.Machine
end

