-- ==== Sys2Proof/Machine/Boot.lean ====
section
/-! DEFINITION. Bring-up, steps 1 to 10 (14_boot_image_identity.md R367, R368, R374 to R378, R382), and the boundary-scan port
(R388). -/

namespace Sys2Proof.Machine

/-! Steps 1 to 4. -/

/-- Whether bring-up stands at a step in a state. -/
def State.bootAtStep (s : State) (st step : Nat) : Bool := s.boot.state == st && s.boot.step == step

/-- BOOT_CLOCKS_READY: the supplies are good and the PLLs lock; the core domains leave reset at VDD_CORE nominal. -/
def bootClocksReady (voutMode : Option (BitVec 8)) (s : State) : State :=
  if s.alive && !s.pwr.core && s.pwr.restart.isNone && s.boot.state == 0 && (s.boot.step == 1 || s.boot.step == 2) then
    let s1 := ((s.fput F.CLK_STAT_REF_OK true).plls true).modPwr (fun p => { p with
      core := true
      avsOn := true
      avsV := 750
      avsHi := 0 })
    ((s1.fset F.PWR_AVS_STAT_VOUT 750).voutModeRead voutMode).bootTo 1 3
  else s

/-- BOOT_SELFTEST_DONE. -/
def bootSelftestDone (ok : Bool) (s : State) : State :=
  if s.bootAtStep 1 3 then (if ok then s.bootTo 2 4 else s.bootHalt 2) else s

/-- The read mode that a flash is given, by the codes of NOR_MODE: the fastest that its tables advertise, or 1-1-1 where it has none
that can be read (R367). -/
def norMode (t : NorTables) : Nat :=
  if !t.sfdp || !t.readOk then 1 else if t.octal then 3 else if t.quad then 2 else 1

/-- NOR_DISCOVERY_DONE: no flash answers, or what its discovery found. A flash without SFDP, or with a discovery read that failed, raises
NVM_ERROR; the failed read counts (R367). -/
def norDiscoveryDone (flash : Option NorTables) (s : State) : State :=
  if s.bootAtStep 2 4 then
    match flash with
    | none => s.bootHalt 3
    | some t =>
      let s1 := (s.fset F.NVM_MEDIA_STAT_NOR_MODE (norMode t)).fput F.NVM_MEDIA_STAT_SFDP t.sfdp
      let s2 := if t.sfdp && !t.readOk then s1.fadd F.NVM_MEDIA_STAT_NOR_ERR 1 else s1
      (if t.sfdp && t.readOk then s2 else s2.raise 23).bootTo 2 5
  else s

/-! Step 5. -/

/-- Record the cause of a copy. -/
def State.setCause (s : State) (b : Bool) (k : Nat) : State :=
  if b then s.fset F.NVM_BOOT_STAT_CAUSE_B k else s.fset F.NVM_BOOT_STAT_CAUSE_A k

/-- The header of a copy in the flash. -/
def State.copyHdr (s : State) (b : Bool) : List Byte := s.norRead (copyBase b) 64

/-- The cause, 1 or 2, of a header that does not pass; 0 for one that does. -/
def State.hdrCause (s : State) (b : Bool) : Nat :=
  if !headerOk (s.copyHdr b) then 1 else if !s.partOk (s.copyHdr b) then 2 else 0

/-- The next candidate, by falling IMAGE_VERSION, copy A first of equals (R376). -/
def State.nextCopy (s : State) : Option Bool :=
  let ok := fun b => !s.boot.tried.contains b && s.hdrCause b == 0
  match ok false, ok true with
  | true, true => some (decide (copyVersion (s.copyHdr false) < copyVersion (s.copyHdr true)))
  | true, false => some false
  | false, true => some true
  | false, false => none

/-- The causes of headers that fail are recorded. -/
def State.noteHeaders (s : State) : State :=
  [false, true].foldl (fun s b => if s.hdrCause b = 0 then s else s.setCause b (s.hdrCause b)) s

/-- Goes on at step 5 with what remains, or enters RECOVERY (R377). -/
def State.copyOrRecovery (s : State) : State := if s.nextCopy.isSome then s.bootTo 2 5 else (s.bootTo 8 5).bootOff

/-- A copy has failed with a cause. -/
def State.copyFailed (s : State) (b : Bool) (k : Nat) : State :=
  let s1 := s.setCause b k
  { s1 with
    boot := { s1.boot with
      staged := none
      tried := s1.boot.tried ++ [b] } }.copyOrRecovery

/-- A copy is tried: after another has failed, FALLBACK is set and BOOT_COPY raised (R376). -/
def State.tryCopy (s : State) : State :=
  if s.boot.tried.isEmpty then s else (s.fput F.NVM_BOOT_STAT_FALLBACK true).raise 22

/-- IMAGE_COPY_STAGED: `readOk` says that every flash read of the copy completed. -/
def imageCopyStaged (readOk : Bool) (s : State) : State :=
  if s.bootAtStep 2 5 then
    let s0 := s.noteHeaders
    match s0.nextCopy with
    | none => s0.copyOrRecovery
    | some b =>
      let s1 := s0.tryCopy
      let s2 := if readOk then s1 else (s1.fadd F.NVM_MEDIA_STAT_NOR_ERR 1).raise 23
      let c := s2.norRead (copyBase b) (copyLen (s2.copyHdr b))
      let k := s2.stageCause c readOk true
      if k ≠ 0 then s2.copyFailed b k
      else { s2 with
        boot := { s2.boot with
          staged := some (b, c) } }.bootTo 3 6
  else s

/-! Step 6. -/

/-- POLICY bit `n` of BOOT. -/
def State.bootBit (s : State) (n : Nat) : Bool := (s.img.map (fun m => bitOf (byteAt m.policy 10) n)).getD false

/-- The running image of a copy that passed. -/
def State.readImage (s : State) (b : Bool) (c : List Byte) : Image :=
  let fw := (copyRecs c 8).headD []
  { copyB := b
    version := copyVersion c
    rollback := byteAt c 12
    bootTset := byteAt c 24
    rootSlot := (s.rootSlot c).getD 0
    fwVersion := leAt fw 8 4
    firmware := (leAt fw 0 4, leAt fw 4 4, fw.drop 12)
    policy := (copyRecs c 10).headD []
    certs := (copyRecs c 9).map (fun r => (byteAt r 0, byteAt r 1, sliceB r 4 (leAt r 2 2)))
    byteTabs := ((copyRecs c 7).filter (fun r => byteAt r 0 == 1)).map (fun r => (byteAt r 1, byteLens (sliceB r 4 136))) }

/-- The check of R312 is made of a copy's masks, and its result recorded, whatever becomes of the copy (log entry 51). -/
def State.mapChecked (s : State) (c : List Byte) : State :=
  (s.fput F.MEM_MAP_STAT_DONE true).fput F.MEM_MAP_STAT_OK (masksOk (copyMasks c))

/-- DRAMMAP: masks, regions and page policy. -/
def State.loadDram (s : State) (c : List Byte) : State :=
  match copyRecs c 11 with
  | r :: _ => s.loads (loadsAt r R.MEM_MAP_MASK 0 9 ++ loadsAt r R.MEM_REGION 36 10 ++ [loadAt r R.MEM_PAGE_CFG 76])
  | [] => s

/-- TIMING, GEOMETRY and CALSET: the timing sets, and the live registers of BOOT_TSET. -/
def State.loadTiming (s : State) (c : List Byte) : State :=
  let sets := copyTSets c
  let s1 := { s with
    tsets := sets }
  match sets.find? (fun t => t.tset == byteAt c 24) with
  | none => s1
  | some t =>
    let s2 := (s1.loads (t.timLoads ++ t.synLoads ++ t.drvLoads)).fset F.DRV_LEDGER_CFG_ROW0 t.row0
    (s2.fset F.TIM_MODE_STAT_ACTIVE t.tset).fset F.TIM_MODE_STAT_TARGET t.tset

/-- The coefficient page that COEF gives (R86). -/
def coefOf (c : List Byte) : SMap W32 :=
  (copyRecs c 4).foldl (fun m r =>
    SMap.setMany coefDefault m (256 * byteAt r 0) ((List.range 256).map (fun i => BitVec.ofNat 32 (leAt r (4 + 4 * i) 4)))) []

/-- The LUT page that LUTS gives (R138). -/
def lutOf (c : List Byte) : SMap W32 :=
  (copyRecs c 5).foldl (fun m r =>
    let o := leAt r 0 4
    SMap.setMany lutDefault m (o / 4) ((List.range (leAt r 4 4 / 4)).map (fun i =>
      BitVec.ofNat 32 (leAt r (8 + 4 * i) 4 &&& lutMask (o + 4 * i))))) []

/-- The TBC tables that CODETAB gives, by index (R47). -/
def codeTabsOf (c : List Byte) : List (Nat × List Nat) :=
  ((copyRecs c 7).filter (fun r => byteAt r 0 == 0)).map (fun r => (byteAt r 1, dynLens (sliceB r 4 17)))

/-- COEF, LUTS and CODETAB. -/
def State.loadTables (s : State) (c : List Byte) : State :=
  { s with
    coef0 := coefOf c
    coef1 := coefOf c
    lut0 := lutOf c
    lut1 := lutOf c
    codeTabs := codeTabsOf c }

/-- POLICY: the registers that it loads (R372); CAS_CTL.EN follows once the registers of REGS are loaded. -/
def State.loadPolicy (s : State) (c : List Byte) : State :=
  match copyRecs c 10 with
  | [] => s
  | r :: _ =>
    let s1 := s.loads ([loadAt r R.SWD_SLOT_CFG 0, loadAt r R.LYR_REPEAT_CFG 4] ++ loadsAt r R.EVT_MASK_PIN 16 2 ++
      loadsAt r R.EVT_MASK_SES 24 2 ++ loadsAt r R.EVT_MASK_CAS 32 2 ++ loadsAt r R.EVT_MASK_HEATH 40 2)
    s1.rset R.CAS_CTL (BitVec.ofNat 32 (leAt r 12 4 &&& regMask R.CAS_CTL &&& (2 ^ 30 - 1)))

/-- REGS, in record order, as Heath's accesses. -/
def State.loadRegs (s : State) (c : List Byte) : State :=
  (copyRecs c 1).foldl (fun s r => (s.regWrite 0 (leAt r 0 4) (BitVec.ofNat 32 (leAt r 4 4))).2) s

/-- CAS starts where POLICY says so, unless REGS has written CAS_CTL. -/
def State.startCas (s : State) (c : List Byte) : State :=
  if (copyRecs c 1).any (fun r => leAt r 0 4 == R.CAS_CTL) then s
  else s.casEnable (bitOf (leAt ((copyRecs c 10).headD []) 12 4) 30)

/-- Whether the debug functions are open in this boot (R389). -/
def State.debugOpen (s : State) : Bool :=
  !s.fuses.debugLock ||
  ((s.img.map (fun m => bitOf (byteAt m.policy 10) 4 && leAt m.policy 60 8 == Config.unitSerial.toNat)).getD false)

/-- The firmware starts. -/
def State.firmwareStart (s : State) (b : Bool) (version : Nat) : State :=
  let s1 := (s.fput F.NVM_BOOT_STAT_COPY b).fset F.NVM_IMAGE_VER_VERSION version
  let ms := (s1.clock - s1.pwr.bootAt) / 65536 / 1000000
  let s2 := ((s1.fset F.NVM_BOOT_MS_FW (min 0xFFFF ms)).setCause b 0).fput F.SEC_DEBUG_STAT_OPEN s1.debugOpen
  s2.fset F.MBX_HEATH_STAT_STATE 1

/-- SECTIONS_APPLIED: causes 8 to 12, then the sections in the order of R375, and step 7. -/
def sectionsApplied (s : State) : State :=
  if s.bootAtStep 3 6 then
    match s.boot.staged with
    | none => s
    | some (b, c) =>
      let k := applyCause c
      let s0 := s.mapChecked c
      if k ≠ 0 then s0.copyFailed b k
      else
        let s1 := { ((s0.loadDram c).loadTiming c).loadTables c with
          img := some (s.readImage b c) }
        let s2 := (((s1.loadPolicy c).loadRegs c).startCas c).firmwareStart b (copyVersion c)
        let s3 : State := { s2 with
          boot := { s2.boot with
            staged := none } }
        let s4 := if s3.pstate = 3 then s3.wakeForward ((List.range 5).filter s3.casEnabled) else s3
        (s4.bootTo 4 7).hbmTraining
  else s

/-! Steps 7 to 10. -/

/-- A calibration run starts at the end of step 7, whichever state bring-up comes from (R416). -/
def State.calBegin (s : State) : State :=
  if s.flag F.CAL_STAT_RUNNING then s.fput F.CAL_STAT_QUEUED true
  else (s.fput F.CAL_STAT_RUNNING true).modCal (fun c => { c with starting := true })

/-- HBM_TRAINING_DONE: at boot, at a wake from STANDBY, or after a write of GO (R319). -/
def hbmTrainingDone (failPc : Option (Fin 32)) (s : State) : State :=
  if s.fget F.MPHY_TRAIN_STAT_STATE ≠ 1 then s
  else
    let s1 := s.hbmTrained (failPc.map Fin.val)
    if s1.bootAtStep 4 7 then (if failPc.isSome then s1.bootHalt 4 else (s1.bootTo 4 8).calBegin)
    else if s1.pwr.going = some 1 ∧ s1.pstate = 2 then (s1.pwrReached .idle).calAsk
    else s1

/-- READY, and step 9. -/
def State.ledgerReady (s : State) : State := (s.fput F.DRV_LEDGER_CFG_READY true).bootTo 4 9

/-- LEDGER_RESTORE_DONE: the eMMC device answered in HS200 or only in SDR, or not at all; `ok` says that its reads completed
(R368, R380, R382). -/
def ledgerRestoreDone (emmc : Option Bool) (ok : Bool) (s : State) : State :=
  if s.bootAtStep 4 8 then
    let s1 := s.fset F.NVM_MEDIA_STAT_EMMC_MODE ((emmc.map (fun h => if h then 2 else 1)).getD 0)
    let s2 := if emmc = some true ∧ areaTableOk s1.areaTable then s1 else s1.raise 23
    if !s.bootBit 2 then s2.ledgerClear.ledgerReady
    else if emmc.isNone then s2.ledgerClear.ledgerReady
    else if !ok then s2.emmcFail.ledgerClear.ledgerReady
    else match s2.ledgerNewest with
      | none => s2.ledgerClear.ledgerReady
      | some a => (s2.ledgerFrom a).ledgerReady
  else s

/-- Step 10: every port trains. -/
def State.bootPanel (s : State) : State := forBelow 8 (fun p s => s.trainPort p) (s.bootTo 4 10)

/-- The boot map was not loaded. -/
def State.calmapMissing (s : State) : State := if s.bootBit 1 then s.bootHalt 5 else s.bootPanel

/-- CALMAP_LOAD_DONE: the area of BOOT_TSET's CALSET record into generation 0, whose NG is that of BOOT_TSET's geometry (R381); with
none, nothing is loaded. -/
def calmapLoadDone (ok : Bool) (s : State) : State :=
  if s.bootAtStep 4 9 then
    match (s.img.map Image.bootTset).bind s.tsetOf with
    | none => s.bootPanel
    | some t =>
      if t.calGen ≠ some 0 then s.bootPanel
      else match s.mapFill [t.geom.ng] t.calArea 0 ok with
        | (some _, s1) => s1.bootPanel
        | (none, s1) => s1.calmapMissing
  else s

/-- BOOT_STEP_TIMEOUT: the step in progress exceeds its limit (R375). The cause that a copy then shows is a free value from 1 to
12. -/
def bootStepTimeout (s : State) : State :=
  if s.pwr.restart.isSome || !s.alive then s
  else match s.boot.state, s.boot.step with
    | 0, 1 => (s.bootTo 0 2).bootHalt 1
    | 0, 2 => s.bootHalt 1
    | 1, 3 => s.bootHalt 2
    | 2, 4 => s.bootHalt 3
    | 2, 5 =>
      let s0 := s.noteHeaders
      match s0.nextCopy with
      | none => s0.copyOrRecovery
      | some b =>
        let (v, s1) := s0.tryCopy.fresh
        s1.copyFailed b (1 + v % 12)
    | 3, 6 =>
      match s.boot.staged with
      | none => s
      | some (b, _) =>
        let (v, s1) := s.fresh
        s1.copyFailed b (1 + v % 12)
    | 4, 7 => s.bootHalt 4
    | 4, 8 => (s.raise 23).ledgerClear.ledgerReady
    | 4, 9 => ((s.fput (F.EMC_MAP_CFG_VALID 0) false).raise 23).calmapMissing
    | _, _ => s

/-! Boundary scan. -/

/-- IDCODE (R388). -/
def idcode : W32 := 0x28200FFD

/-- The device's signal pins (16_electrical_and_package.md R430, R431). -/
inductive Pin where
  | panel | ingest | cascade | refClk | nor | emmc | tap | mgmt | strap | resetN | eventN | pmbus | xtal | coreSupEn | ntc | emitSup
  | gout (n : Fin 16)
  | rail (n : Fin 4)
  deriving DecidableEq, Repr

/-- Whether the boundary register holds a pin: GOUT0 to GOUT15 and the rail pins are outside it (R388), and so are the TAP's own, as
IEEE 1149.1 has it. -/
def Pin.inBoundary : Pin → Bool
  | .gout _ => false
  | .rail _ => false
  | .tap => false
  | _ => true

/-- Whether a pin is under the boundary register's control: EXTEST, CLAMP, HIGHZ, EXTEST_PULSE or EXTEST_TRAIN is in effect. The first
three have effect only with SAFE = 1, so an UP ends their effect. -/
def State.pinHeld (s : State) (p : Pin) : Bool :=
  p.inBoundary && decide (3 ≤ s.tap.ir) && decide (s.tap.ir ≤ 7) && (decide (6 ≤ s.tap.ir) || s.flag F.PWD_SEQ_STAT_SAFE)

/-- What the TAP shifts out on TDO, bit 0 first: IDCODE's register, or the one bit of BYPASS; what the boundary register samples is not
modelled (log entry 59). -/
def State.tapOut (s : State) : Option (List Bool) :=
  if s.tap.ir = 1 then some (List.ofFn (fun i : Fin 32 => idcode.getLsbD i)) else if s.tap.ir = 0 then some [false] else none

/-- TAP_INSTRUCTION_LOAD: instructions are numbered in the order of R388 from 0 for BYPASS; EXTEST, CLAMP and HIGHZ, 3 to 5,
loaded while SAFE = 0 first run the power-down of R180, which a twin's partner has its lead run. -/
def tapInstructionLoad (op : BitVec 8) (s : State) : State :=
  let i := if op.toNat ≤ 7 then op.toNat else 0
  if (i = 3 ∨ i = 4 ∨ i = 5) ∧ !s.flag F.PWD_SEQ_STAT_SAFE then
    ({ s with
      tap := ⟨s.tap.ir, some i⟩ } : State).downForSafe
  else { s with
    tap := ⟨i, none⟩ }

/-- BOOT_CLOCKS_READY. -/
def execBootClocksReady (voutMode : Option (BitVec 8)) (s : State) : Host.Outcome State Fault Refusal :=
  .next (bootClocksReady voutMode s)
/-- BOOT_SELFTEST_DONE. -/
def execBootSelftestDone (ok : Bool) (s : State) : Host.Outcome State Fault Refusal := .next (bootSelftestDone ok s)
/-- NOR_DISCOVERY_DONE. -/
def execNorDiscoveryDone (flash : Option NorTables) (s : State) : Host.Outcome State Fault Refusal := .next (norDiscoveryDone flash s)
/-- IMAGE_COPY_STAGED. -/
def execImageCopyStaged (readOk : Bool) (s : State) : Host.Outcome State Fault Refusal := .next (imageCopyStaged readOk s)
/-- SECTIONS_APPLIED. -/
def execSectionsApplied (s : State) : Host.Outcome State Fault Refusal := .next (sectionsApplied s)
/-- HBM_TRAINING_DONE. -/
def execHbmTrainingDone (failPc : Option (Fin 32)) (s : State) : Host.Outcome State Fault Refusal := .next (hbmTrainingDone failPc s)
/-- LEDGER_RESTORE_DONE. -/
def execLedgerRestoreDone (emmc : Option Bool) (ok : Bool) (s : State) : Host.Outcome State Fault Refusal :=
  .next (ledgerRestoreDone emmc ok s)
/-- CALMAP_LOAD_DONE. -/
def execCalmapLoadDone (ok : Bool) (s : State) : Host.Outcome State Fault Refusal := .next (calmapLoadDone ok s)
/-- BOOT_STEP_TIMEOUT. -/
def execBootStepTimeout (s : State) : Host.Outcome State Fault Refusal := .next (bootStepTimeout s)
/-- TAP_INSTRUCTION_LOAD. -/
def execTapInstructionLoad (op : BitVec 8) (s : State) : Host.Outcome State Fault Refusal := .next (tapInstructionLoad op s)

end Sys2Proof.Machine
end

