-- ==== Sys2Proof/Machine/Services.lean ====
section
/-! DEFINITION. The services that act on registers, jobs, rails and power states (13_control_plane.md R346, R347). -/

namespace Sys2Proof.Machine

/-- SVC_INFO. The boot ROM's own version is a free value (R377). -/
def svcInfo (box : Fin 8) (s : State) : State :=
  s.runSvc box.val 0x0001 (fun dev body s =>
    if (reqArgs body).length ≠ 0 then s.respond box.val dev body 2 []
    else
      let num := if s.numbered then s.devNum else 2 ^ 32 - 1
      let data := fun (fw v : Nat) (s : State) => leBytes 4 fw ++ leBytes 4 v ++ leBytes 2 s.epoch ++ leBytes 2 0 ++ leBytes 4 num
      match s.img with
      | some m => s.respond box.val dev body 0 (data m.fwVersion m.version s)
      | none =>
        let (v, s1) := s.fresh
        s1.respond box.val dev body 0 (data v 0 s1))

/-- Read `n` registers from an address. -/
def State.readRun (s : State) (noinc : Bool) : Nat → Nat → List Byte × State
  | _, 0 => ([], s)
  | a, n + 1 =>
    let (v, s1) := s.regRead .service a
    let (l, s2) := s1.readRun noinc (if noinc then a else a + 4) n
    (leBytes 4 v.toNat ++ l, s2)

/-- SVC_REG_READ. -/
def svcRegRead (box : Fin 8) (s : State) : State :=
  s.runSvc box.val 0x0002 (fun dev body s =>
    let a := reqArgs body
    let n := leAt a 4 2
    let noinc := leAt a 6 2 == 1
    let at_ := fun i => if noinc then leAt a 0 4 else leAt a 0 4 + 4 * i
    if a.length ≠ 8 ∨ n = 0 ∨ 250 < n ∨ 1 < leAt a 6 2 then s.respond box.val dev body 2 []
    else if !(List.range n).all (fun i => addrOk (at_ i)) then s.respond box.val dev body 7 []
    else
      let (l, s1) := s.readRun noinc (leAt a 0 4) n
      s1.respond box.val dev body 0 l)

/-- Write pairs in order; a status byte for each. -/
def State.writeRun (s : State) : List (Nat × Nat) → List Byte × State
  | [] => ([], s)
  | e :: l =>
    let (r, s1) := s.regWrite 0 e.1 (BitVec.ofNat 32 e.2)
    let (b, s2) := s1.writeRun l
    (BitVec.ofNat 8 r.status :: b, s2)

/-- SVC_REG_WRITE. A write that resets the core leaves Heath unable to answer. -/
def svcRegWrite (box : Fin 8) (s : State) : State :=
  s.runSvc box.val 0x0003 (fun dev body s =>
    let a := reqArgs body
    let n := leAt a 0 2
    let pairs := (List.range n).map (fun i => (leAt a (4 + 8 * i) 4, leAt a (8 + 8 * i) 4))
    if n = 0 ∨ 124 < n ∨ a.length ≠ 4 + 8 * n ∨ leAt a 2 2 ≠ 0 then s.respond box.val dev body 2 []
    else if !pairs.all (fun e => addrOk e.1) then s.respond box.val dev body 7 []
    else
      let (l, s1) := s.writeRun pairs
      if s1.heathServes box.val then s1.respond box.val dev body 0 l else s1)

/-! CAPTURE. -/

/-- The descriptor of a CAPTURE job into DIAG (R355, R365). -/
def State.captureDesc (s : State) (id : Nat) (arg : List Byte) : List Byte :=
  leBytes 4 id ++ leBytes 1 5 ++ leBytes 19 0 ++ leBytes 8 (s.regionBase 9) ++ leBytes 8 (s.regionSize 9) ++
  leBytes 16 0 ++ arg

/-- SVC_CAPTURE: the job is submitted; its end answers the request. -/
def svcCapture (box : Fin 8) (s : State) : State :=
  s.runSvc box.val 0x0012 (fun dev body s =>
    let a := reqArgs body
    if a.length ≠ 8 then s.respond box.val dev body 2 []
    else if s.heath.capture.isSome then s.respond box.val dev body 3 []
    else match s.heathSubmit (fun s id => s.captureDesc id a) with
      | none => s.respond box.val dev body 6 []
      | some x => x.s.modHeath (fun h => { h with capture := some (⟨box.val, dev, reqRid body⟩, x.ring, x.id) }))

/-! RAILS_UP and POWER. -/

/-- Whether POLICY honours another RAILS_UP after a fault (R372). -/
def State.retryLeft (s : State) : Bool :=
  (s.img.map (fun m => byteAt m.policy 11 == 0xFF || decide (s.heath.retries < byteAt m.policy 11))).getD false

/-- SVC_RAILS_UP. -/
def svcRailsUp (box : Fin 8) (s : State) : State :=
  s.runSvc box.val 0x0020 (fun dev body s =>
    let fault := s.rget R.PWD_FAULT != 0 || s.flag F.PWD_SEQ_STAT_FAULT
    if (reqArgs body).length ≠ 0 then s.respond box.val dev body 2 []
    else if fault && !s.retryLeft then s.respond box.val dev body 4 []
    else
      let s1 := if fault then s.modHeath (fun h => { h with retries := h.retries + 1 }) else s
      ((s1.wclear R.PWD_FAULT).upRequest).respond box.val dev body 0 [])

/-- SVC_POWER. -/
def svcPower (box : Fin 8) (s : State) : State :=
  s.runSvc box.val 0x0021 (fun dev body s =>
    let a := reqArgs body
    if a.length ≠ 4 ∨ 3 < byteAt a 0 ∨ leAt a 1 3 ≠ 0 then s.respond box.val dev body 2 []
    else (s.respond box.val dev body 0 []).pwrRequest .service (byteAt a 0))

/-- SVC_INFO. -/
def execSvcInfo (box : Fin 8) (s : State) : Host.Outcome State Fault Refusal := .next (svcInfo box s)
/-- SVC_REG_READ. -/
def execSvcRegRead (box : Fin 8) (s : State) : Host.Outcome State Fault Refusal := .next (svcRegRead box s)
/-- SVC_REG_WRITE. -/
def execSvcRegWrite (box : Fin 8) (s : State) : Host.Outcome State Fault Refusal := .next (svcRegWrite box s)
/-- SVC_CAPTURE. -/
def execSvcCapture (box : Fin 8) (s : State) : Host.Outcome State Fault Refusal := .next (svcCapture box s)
/-- SVC_RAILS_UP. -/
def execSvcRailsUp (box : Fin 8) (s : State) : Host.Outcome State Fault Refusal := .next (svcRailsUp box s)
/-- SVC_POWER. -/
def execSvcPower (box : Fin 8) (s : State) : Host.Outcome State Fault Refusal := .next (svcPower box s)

end Sys2Proof.Machine
end

