-- ==== Sys2Proof/Machine/Dispatch.lean ====
section
/-! DEFINITION. One arm for each command: a direct call of its meaning. -/

namespace Sys2Proof.Machine

/-- What a command does to everything but the queue. -/
def exec (i : Instr) (s : State) : Host.Outcome State Fault Refusal :=
  match i with
  | .registerWrite p a v => Sys2Proof.Machine.execRegisterWrite p a v s
  | .readClearRegister p a => Sys2Proof.Machine.execReadClearRegister p a s
  | .snapshotRead p a => Sys2Proof.Machine.execSnapshotRead p a s
  | .turnLoRead p => Sys2Proof.Machine.execTurnLoRead p s
  | .flipTimeLoRead p => Sys2Proof.Machine.execFlipTimeLoRead p s
  | .evtFifoRead p => Sys2Proof.Machine.execEvtFifoRead p s
  | .i2cWrite dev bytes => Sys2Proof.Machine.execI2cWrite dev bytes s
  | .i2cRead dev addr n => Sys2Proof.Machine.execI2cRead dev addr n s
  | .i2cBusTimeout dev bytes => Sys2Proof.Machine.execI2cBusTimeout dev bytes s
  | .geomProbeGo layer => Sys2Proof.Machine.execGeomProbeGo layer s
  | .geomProbeDone => Sys2Proof.Machine.execGeomProbeDone s
  | .coefSwap => Sys2Proof.Machine.execCoefSwap s
  | .lutSwap => Sys2Proof.Machine.execLutSwap s
  | .mapSwap => Sys2Proof.Machine.execMapSwap s
  | .synStart stop => Sys2Proof.Machine.execSynStart stop s
  | .synStop start => Sys2Proof.Machine.execSynStop start s
  | .drvStart stop => Sys2Proof.Machine.execDrvStart stop s
  | .drvStop start => Sys2Proof.Machine.execDrvStop start s
  | .fenceValueWrite n v => Sys2Proof.Machine.execFenceValueWrite n v s
  | .fallowDrop fid => Sys2Proof.Machine.execFallowDrop fid s
  | .modeRequest tset => Sys2Proof.Machine.execModeRequest tset s
  | .railUpRequest down => Sys2Proof.Machine.execRailUpRequest down s
  | .railDownRequest up => Sys2Proof.Machine.execRailDownRequest up s
  | .plTrain p => Sys2Proof.Machine.execPlTrain p s
  | .plForce p mask => Sys2Proof.Machine.execPlForce p mask s
  | .ingEnable p en => Sys2Proof.Machine.execIngEnable p en s
  | .ingRetrain p => Sys2Proof.Machine.execIngRetrain p s
  | .sesKill => Sys2Proof.Machine.execSesKill s
  | .sesFailover => Sys2Proof.Machine.execSesFailover s
  | .casEnum => Sys2Proof.Machine.execCasEnum s
  | .casTimeSet lo => Sys2Proof.Machine.execCasTimeSet lo s
  | .mbxSend => Sys2Proof.Machine.execMbxSend s
  | .mbxDone => Sys2Proof.Machine.execMbxDone s
  | .mbxHostReset => Sys2Proof.Machine.execMbxHostReset s
  | .mbxInDataWrite k v => Sys2Proof.Machine.execMbxInDataWrite k v s
  | .jobTailWrite r tail => Sys2Proof.Machine.execJobTailWrite r tail s
  | .jobBaseWrite r base => Sys2Proof.Machine.execJobBaseWrite r base s
  | .pwrStateGo target => Sys2Proof.Machine.execPwrStateGo target s
  | .warmReset => Sys2Proof.Machine.execWarmReset s
  | .blockResetIng p => Sys2Proof.Machine.execBlockResetIng p s
  | .blockResetCas => Sys2Proof.Machine.execBlockResetCas s
  | .blockResetJob => Sys2Proof.Machine.execBlockResetJob s
  | .blockResetPl => Sys2Proof.Machine.execBlockResetPl s
  | .blockResetNvm => Sys2Proof.Machine.execBlockResetNvm s
  | .calGo => Sys2Proof.Machine.execCalGo s
  | .mphyTrainGo => Sys2Proof.Machine.execMphyTrainGo s
  | .ingPortUp p lanes => Sys2Proof.Machine.execIngPortUp p lanes s
  | .ingPortDown p bad => Sys2Proof.Machine.execIngPortDown p bad s
  | .ingAlignPeriod p => Sys2Proof.Machine.execIngAlignPeriod p s
  | .packetReceive p bytes => Sys2Proof.Machine.execPacketReceive p bytes s
  | .hello p page => Sys2Proof.Machine.execHello p page s
  | .cert p page => Sys2Proof.Machine.execCert p page s
  | .keyshare p page => Sys2Proof.Machine.execKeyshare p page s
  | .finish p page => Sys2Proof.Machine.execFinish p page s
  | .declare p page => Sys2Proof.Machine.execDeclare p page s
  | .block p head ring => Sys2Proof.Machine.execBlock p head ring s
  | .overlay p page => Sys2Proof.Machine.execOverlay p page s
  | .fence p page => Sys2Proof.Machine.execFence p page s
  | .commit p page => Sys2Proof.Machine.execCommit p page s
  | .commitCompletion => Sys2Proof.Machine.execCommitCompletion s
  | .control p page => Sys2Proof.Machine.execControl p page s
  | .mailMessage p page => Sys2Proof.Machine.execMailMessage p page s
  | .mailReport p page => Sys2Proof.Machine.execMailReport p page s
  | .close p page => Sys2Proof.Machine.execClose p page s
  | .ackSend p => Sys2Proof.Machine.execAckSend p s
  | .nakRepeat p => Sys2Proof.Machine.execNakRepeat p s
  | .deviceRetransmit p seq => Sys2Proof.Machine.execDeviceRetransmit p seq s
  | .retxLimit p seq => Sys2Proof.Machine.execRetxLimit p seq s
  | .creditSend p => Sys2Proof.Machine.execCreditSend p s
  | .eventSend p => Sys2Proof.Machine.execEventSend p s
  | .handshakeTimeout p => Sys2Proof.Machine.execHandshakeTimeout p s
  | .keepaliveSend p => Sys2Proof.Machine.execKeepaliveSend p s
  | .primarySilence => Sys2Proof.Machine.execPrimarySilence s
  | .standbySilence => Sys2Proof.Machine.execStandbySilence s
  | .degradedTimeout => Sys2Proof.Machine.execDegradedTimeout s
  | .drainComplete => Sys2Proof.Machine.execDrainComplete s
  | .closeTimeout p => Sys2Proof.Machine.execCloseTimeout p s
  | .deviceRekey p => Sys2Proof.Machine.execDeviceRekey p s
  | .serverKeyExpiry p => Sys2Proof.Machine.execServerKeyExpiry p s
  | .latch => Sys2Proof.Machine.execLatch s
  | .fenceTimeout g => Sys2Proof.Machine.execFenceTimeout g s
  | .fadeStart => Sys2Proof.Machine.execFadeStart s
  | .timeRetuneDone => Sys2Proof.Machine.execTimeRetuneDone s
  | .newTimingStart => Sys2Proof.Machine.execNewTimingStart s
  | .fallowJobStart => Sys2Proof.Machine.execFallowJobStart s
  | .fallowCopyDone => Sys2Proof.Machine.execFallowCopyDone s
  | .fallowFlattenDone => Sys2Proof.Machine.execFallowFlattenDone s
  | .slotStart mismatch => Sys2Proof.Machine.execSlotStart mismatch s
  | .laneRetrainPhase p lane terminated => Sys2Proof.Machine.execLaneRetrainPhase p lane terminated s
  | .wakeBurst => Sys2Proof.Machine.execWakeBurst s
  | .synthRowStart g d => Sys2Proof.Machine.execSynthRowStart g d s
  | .decodeAssign ring => Sys2Proof.Machine.execDecodeAssign ring s
  | .blockDecodeDone d ecc => Sys2Proof.Machine.execBlockDecodeDone d ecc s
  | .overlayPrefetchDone k band ecc => Sys2Proof.Machine.execOverlayPrefetchDone k band ecc s
  | .bcFrameReceive p drv bits => Sys2Proof.Machine.execBcFrameReceive p drv bits s
  | .bcSlotMissed p drv badCrc => Sys2Proof.Machine.execBcSlotMissed p drv badCrc s
  | .laneFailureApply p => Sys2Proof.Machine.execLaneFailureApply p s
  | .laneRestoreApply p => Sys2Proof.Machine.execLaneRestoreApply p s
  | .plPresenceDone p terminated => Sys2Proof.Machine.execPlPresenceDone p terminated s
  | .plTsaDone p => Sys2Proof.Machine.execPlTsaDone p s
  | .plTsbDone p => Sys2Proof.Machine.execPlTsbDone p s
  | .plStageLimit p => Sys2Proof.Machine.execPlStageLimit p s
  | .railGood n => Sys2Proof.Machine.execRailGood n s
  | .seqStepDelay => Sys2Proof.Machine.execSeqStepDelay s
  | .railPgTimeout n => Sys2Proof.Machine.execRailPgTimeout n s
  | .emitSupPgHigh => Sys2Proof.Machine.execEmitSupPgHigh s
  | .extHandshakeTimeout => Sys2Proof.Machine.execExtHandshakeTimeout s
  | .seqRunEntry => Sys2Proof.Machine.execSeqRunEntry s
  | .downEffect => Sys2Proof.Machine.execDownEffect s
  | .emitSupPgLow => Sys2Proof.Machine.execEmitSupPgLow s
  | .emitSupPgFall => Sys2Proof.Machine.execEmitSupPgFall s
  | .railDischarged n => Sys2Proof.Machine.execRailDischarged n s
  | .dischargeTimeout n => Sys2Proof.Machine.execDischargeTimeout n s
  | .railLoss n => Sys2Proof.Machine.execRailLoss n s
  | .railOvercurrent n => Sys2Proof.Machine.execRailOvercurrent n s
  | .powerDieOt => Sys2Proof.Machine.execPowerDieOt s
  | .vinUndervoltage => Sys2Proof.Machine.execVinUndervoltage s
  | .aonSupplyLoss => Sys2Proof.Machine.execAonSupplyLoss s
  | .porAssert => Sys2Proof.Machine.execPorAssert s
  | .porRelease head addr1 addr0 => Sys2Proof.Machine.execPorRelease head addr1 addr0 s
  | .pinReset => Sys2Proof.Machine.execPinReset s
  | .refLoss => Sys2Proof.Machine.execRefLoss s
  | .coreResetRelease => Sys2Proof.Machine.execCoreResetRelease s
  | .bootClocksReady voutMode => Sys2Proof.Machine.execBootClocksReady voutMode s
  | .bootSelftestDone ok => Sys2Proof.Machine.execBootSelftestDone ok s
  | .norDiscoveryDone flash => Sys2Proof.Machine.execNorDiscoveryDone flash s
  | .imageCopyStaged readOk => Sys2Proof.Machine.execImageCopyStaged readOk s
  | .sectionsApplied => Sys2Proof.Machine.execSectionsApplied s
  | .hbmTrainingDone failPc => Sys2Proof.Machine.execHbmTrainingDone failPc s
  | .ledgerRestoreDone emmc ok => Sys2Proof.Machine.execLedgerRestoreDone emmc ok s
  | .calmapLoadDone ok => Sys2Proof.Machine.execCalmapLoadDone ok s
  | .bootStepTimeout => Sys2Proof.Machine.execBootStepTimeout s
  | .runToIdle => Sys2Proof.Machine.execRunToIdle s
  | .idleToStandby => Sys2Proof.Machine.execIdleToStandby s
  | .jobGraceExpiry => Sys2Proof.Machine.execJobGraceExpiry s
  | .standbyToIdle => Sys2Proof.Machine.execStandbyToIdle s
  | .idleToRun => Sys2Proof.Machine.execIdleToRun s
  | .idleToDeep => Sys2Proof.Machine.execIdleToDeep s
  | .deepToIdle => Sys2Proof.Machine.execDeepToIdle s
  | .wakeDetect cas port => Sys2Proof.Machine.execWakeDetect cas port s
  | .wakeTimerExpiry => Sys2Proof.Machine.execWakeTimerExpiry s
  | .avsWindow slack ack => Sys2Proof.Machine.execAvsWindow slack ack s
  | .avsLower ack => Sys2Proof.Machine.execAvsLower ack s
  | .avsRetry ack => Sys2Proof.Machine.execAvsRetry ack s
  | .tempModelTick die tpd => Sys2Proof.Machine.execTempModelTick die tpd s
  | .ntcSample n code => Sys2Proof.Machine.execNtcSample n code s
  | .thermalTick => Sys2Proof.Machine.execThermalTick s
  | .thermalTrip => Sys2Proof.Machine.execThermalTrip s
  | .calRunStart => Sys2Proof.Machine.execCalRunStart s
  | .calRunEnd => Sys2Proof.Machine.execCalRunEnd s
  | .convTrimStep n => Sys2Proof.Machine.execConvTrimStep n s
  | .aonfTrim => Sys2Proof.Machine.execAonfTrim s
  | .aonsTick => Sys2Proof.Machine.execAonsTick s
  | .xtalStart => Sys2Proof.Machine.execXtalStart s
  | .refreshDue pc hot panic idle => Sys2Proof.Machine.execRefreshDue pc hot panic idle s
  | .scrubRead r => Sys2Proof.Machine.execScrubRead r s
  | .pageIdleClose pc sid bank => Sys2Proof.Machine.execPageIdleClose pc sid bank s
  | .casPortUp n partner => Sys2Proof.Machine.execCasPortUp n partner s
  | .casPortDown n => Sys2Proof.Machine.execCasPortDown n s
  | .turnTick n cell => Sys2Proof.Machine.execTurnTick n cell s
  | .turnSeqst n cell => Sys2Proof.Machine.execTurnSeqst n cell s
  | .echoRequestSend => Sys2Proof.Machine.execEchoRequestSend s
  | .echoRequest n cell => Sys2Proof.Machine.execEchoRequest n cell s
  | .echoReply n cell => Sys2Proof.Machine.execEchoReply n cell s
  | .echoReplyMissing => Sys2Proof.Machine.execEchoReplyMissing s
  | .cellIdleEcho n => Sys2Proof.Machine.execCellIdleEcho n s
  | .cellRetransmit n => Sys2Proof.Machine.execCellRetransmit n s
  | .enumAssign n cell => Sys2Proof.Machine.execEnumAssign n cell s
  | .enumDone n cell => Sys2Proof.Machine.execEnumDone n cell s
  | .bcommitReceive n cell => Sys2Proof.Machine.execBcommitReceive n cell s
  | .bcommitFence => Sys2Proof.Machine.execBcommitFence s
  | .bcommitMode => Sys2Proof.Machine.execBcommitMode s
  | .bcommitSwap => Sys2Proof.Machine.execBcommitSwap s
  | .fenceRequest n cell => Sys2Proof.Machine.execFenceRequest n cell s
  | .dataCell n cell => Sys2Proof.Machine.execDataCell n cell s
  | .bcastCopyStart c => Sys2Proof.Machine.execBcastCopyStart c s
  | .bcastCopyDone c => Sys2Proof.Machine.execBcastCopyDone c s
  | .mailCell n cell => Sys2Proof.Machine.execMailCell n cell s
  | .mailCellResponse n cell => Sys2Proof.Machine.execMailCellResponse n cell s
  | .eventCell n cell => Sys2Proof.Machine.execEventCell n cell s
  | .wakeCell n cell => Sys2Proof.Machine.execWakeCell n cell s
  | .mailboxTake box => Sys2Proof.Machine.execMailboxTake box s
  | .svcInfo box => Sys2Proof.Machine.execSvcInfo box s
  | .svcRegRead box => Sys2Proof.Machine.execSvcRegRead box s
  | .svcRegWrite box => Sys2Proof.Machine.execSvcRegWrite box s
  | .svcMapLoad box => Sys2Proof.Machine.execSvcMapLoad box s
  | .mapLoadDone ok => Sys2Proof.Machine.execMapLoadDone ok s
  | .svcLedgerSave box => Sys2Proof.Machine.execSvcLedgerSave box s
  | .ledgerSaveDone ok => Sys2Proof.Machine.execLedgerSaveDone ok s
  | .svcCapture box => Sys2Proof.Machine.execSvcCapture box s
  | .svcRailsUp box => Sys2Proof.Machine.execSvcRailsUp box s
  | .svcPower box => Sys2Proof.Machine.execSvcPower box s
  | .imageWriteBegin box ok => Sys2Proof.Machine.execImageWriteBegin box ok s
  | .imageWriteData box ok => Sys2Proof.Machine.execImageWriteData box ok s
  | .imageWriteEnd box ok => Sys2Proof.Machine.execImageWriteEnd box ok s
  | .imageWriteAbort box => Sys2Proof.Machine.execImageWriteAbort box s
  | .forwardRequest box => Sys2Proof.Machine.execForwardRequest box s
  | .forwardTimeout => Sys2Proof.Machine.execForwardTimeout s
  | .heathResponsePlace box => Sys2Proof.Machine.execHeathResponsePlace box s
  | .heathWatchdogExpiry => Sys2Proof.Machine.execHeathWatchdogExpiry s
  | .heathRestartDone => Sys2Proof.Machine.execHeathRestartDone s
  | .jobStart => Sys2Proof.Machine.execJobStart s
  | .jobCopyDone r ecc => Sys2Proof.Machine.execJobCopyDone r ecc s
  | .jobCompressDone r ecc => Sys2Proof.Machine.execJobCompressDone r ecc s
  | .jobDecompressDone r ecc => Sys2Proof.Machine.execJobDecompressDone r ecc s
  | .jobLedgerSnapDone r ecc => Sys2Proof.Machine.execJobLedgerSnapDone r ecc s
  | .jobCalpackDone r ecc => Sys2Proof.Machine.execJobCalpackDone r ecc s
  | .jobCaptureDone r => Sys2Proof.Machine.execJobCaptureDone r s
  | .serverRekeyDue p => Sys2Proof.Machine.execServerRekeyDue p s
  | .cascadeAlignPeriod n => Sys2Proof.Machine.execCascadeAlignPeriod n s
  | .tapInstructionLoad op => Sys2Proof.Machine.execTapInstructionLoad op s

end Sys2Proof.Machine
end

