-- ==== Sys2Proof/Machine/Idle.lean ====
section
/-! DEFINITION. What passes when no command waits: one CORE cycle of the time base (R393, R285). -/

namespace Sys2Proof.Machine

/-- A level source whose condition holds is raised in this cycle (R350): its pending bit, the turn's count, and one DEVICE record for
its first raising in a turn that the SES mask forwards; EVT_COUNT counts the starts only (R351). -/
def State.levelRaised (s : State) (n : Nat) : State :=
  let s1 := s.rset (R.EVT_PEND 0) (s.rget (R.EVT_PEND 0) ||| BitVec.ofNat 32 (2 ^ n))
  let s2 := { s1 with evtTurn := modNth s1.evtTurn n (fun k => satAdd 255 k 1) }
  if s1.evtTurn.getD n 0 = 0 ∧ bitOf (s2.rget (R.EVT_MASK_SES 0)).toNat n then s2.queueAll (.device n s2.lyr.turn) else s2

/-- The level sources in a cycle: CAS_TREE and MBX_HOST (R350). -/
def State.levelCycle (s : State) : State :=
  let s1 := if s.cas.fifo.isEmpty then s else s.levelRaised 11
  if (s1.box 0).outMsg.isSome then s1.levelRaised 14 else s1

/-- One CORE cycle: 0.625 ns of the time base in 2^-16 ns, while the core's clocks run (R391, R393). A backward correction
that is still owed holds the count instead (R285). What the cycle before brought is past. -/
def State.timeCycle (s : State) : State :=
  if s.coreRuns then
    if 40960 ≤ s.cas.hold then { s with
      cyc := Cyc.reset
      clock := s.clock + 40960
      cas := { s.cas with hold := s.cas.hold - 40960 } }
    else { s with
      cyc := Cyc.reset
      clock := s.clock + 40960
      time := (s.time + (40960 - s.cas.hold)) % 2 ^ 80
      cas := { s.cas with hold := 0 } }
  else { s with cyc := Cyc.reset }

/-- What a CORE cycle does when no command waits. -/
def coreCycle (s : State) : State := s.timeCycle.levelCycle

end Sys2Proof.Machine
end

