-- ==== Sys2Proof/WellFormed.lean ====
section
/-! DEFINITION. Which commands the world outside can give: the lengths and ranges of operands that a constructor's types do
not bound. The machine is total on the others; the manual describes nothing that gives one. -/

namespace Sys2Proof

/-- No two of a list's members are equal. -/
def distinct {α : Type} [BEq α] : List α → Bool
  | [] => true
  | x :: xs => !xs.contains x && distinct xs

/-- What arrives between two frames of a link: whole data blocks of 8 bytes (R219, R277). -/
def blockBytes (b : List Byte) : Bool := b.length % 8 == 0

/-- Well-formed commands. -/
def Instr.wf : Instr → Bool
  | .readClearRegister _ a => a.toNat % 4 == 0
  | .snapshotRead _ a => a.toNat % 4 == 0
  | .registerWrite _ a _ => a.toNat % 4 == 0
  | .i2cRead _ _ n => decide (1 ≤ n)
  | .ingPortUp _ lanes => lanes.length == 8
  | .ingPortDown _ bad => bad.length == 8
  | .packetReceive _ bytes => blockBytes bytes
  | .slotStart ms => ms.all (fun m => decide (1 ≤ m.2.2) && decide (m.2.2 ≤ 1049)) && distinct (ms.map (fun m => (m.1, m.2.1)))
  | .bcFrameReceive _ _ bits => bits.length == 56
  | .tempModelTick die _ => die.length == 16
  | .turnTick _ c => blockBytes c
  | .turnSeqst _ c => blockBytes c
  | .echoRequest _ c => blockBytes c
  | .echoReply _ c => blockBytes c
  | .enumAssign _ c => blockBytes c
  | .enumDone _ c => blockBytes c
  | .bcommitReceive _ c => blockBytes c
  | .fenceRequest _ c => blockBytes c
  | .dataCell _ c => blockBytes c
  | .mailCell _ c => blockBytes c
  | .mailCellResponse _ c => blockBytes c
  | .eventCell _ c => blockBytes c
  | .wakeCell _ c => blockBytes c
  | .turnLoRead .. | .flipTimeLoRead .. | .evtFifoRead .. | .i2cWrite .. | .i2cBusTimeout .. | .geomProbeGo ..
  | .geomProbeDone | .coefSwap | .lutSwap | .mapSwap | .synStart .. | .synStop .. | .drvStart .. | .drvStop ..
  | .fenceValueWrite .. | .fallowDrop .. | .modeRequest .. | .railUpRequest .. | .railDownRequest .. | .plTrain ..
  | .plForce .. | .ingEnable .. | .ingRetrain .. | .sesKill | .sesFailover | .casEnum | .casTimeSet .. | .mbxSend
  | .mbxDone | .mbxHostReset | .mbxInDataWrite .. | .jobTailWrite .. | .jobBaseWrite .. | .pwrStateGo .. | .warmReset
  | .blockResetIng .. | .blockResetCas | .blockResetJob | .blockResetPl | .blockResetNvm | .calGo | .mphyTrainGo
  | .ingAlignPeriod .. | .hello .. | .cert .. | .keyshare .. | .finish .. | .declare .. | .block .. | .overlay ..
  | .fence .. | .commit .. | .commitCompletion | .control .. | .mailMessage .. | .mailReport .. | .close ..
  | .ackSend .. | .nakRepeat .. | .deviceRetransmit .. | .retxLimit .. | .creditSend .. | .eventSend ..
  | .handshakeTimeout .. | .keepaliveSend .. | .primarySilence | .standbySilence | .degradedTimeout | .drainComplete
  | .closeTimeout .. | .deviceRekey .. | .serverKeyExpiry .. | .latch | .fenceTimeout .. | .fadeStart
  | .timeRetuneDone | .newTimingStart | .fallowJobStart | .fallowCopyDone | .fallowFlattenDone | .laneRetrainPhase ..
  | .wakeBurst | .synthRowStart .. | .decodeAssign .. | .blockDecodeDone .. | .overlayPrefetchDone ..
  | .bcSlotMissed .. | .laneFailureApply .. | .laneRestoreApply .. | .plPresenceDone .. | .plTsaDone ..
  | .plTsbDone .. | .plStageLimit .. | .railGood .. | .seqStepDelay | .railPgTimeout .. | .emitSupPgHigh
  | .extHandshakeTimeout | .seqRunEntry | .downEffect | .emitSupPgLow | .emitSupPgFall | .railDischarged ..
  | .dischargeTimeout .. | .railLoss .. | .railOvercurrent .. | .powerDieOt | .vinUndervoltage | .aonSupplyLoss
  | .porAssert | .porRelease .. | .pinReset | .refLoss | .coreResetRelease | .bootClocksReady ..
  | .bootSelftestDone .. | .norDiscoveryDone .. | .imageCopyStaged .. | .sectionsApplied | .hbmTrainingDone ..
  | .ledgerRestoreDone .. | .calmapLoadDone .. | .bootStepTimeout | .runToIdle | .idleToStandby | .jobGraceExpiry
  | .standbyToIdle | .idleToRun | .idleToDeep | .deepToIdle | .wakeDetect .. | .wakeTimerExpiry | .avsWindow ..
  | .avsLower .. | .avsRetry .. | .ntcSample .. | .thermalTick | .thermalTrip | .calRunStart | .calRunEnd
  | .convTrimStep .. | .aonfTrim | .aonsTick | .xtalStart | .refreshDue .. | .scrubRead .. | .pageIdleClose ..
  | .casPortUp .. | .casPortDown .. | .echoRequestSend | .echoReplyMissing | .cellIdleEcho .. | .cellRetransmit ..
  | .bcommitFence | .bcommitMode | .bcommitSwap | .bcastCopyStart .. | .bcastCopyDone .. | .mailboxTake ..
  | .svcInfo .. | .svcRegRead .. | .svcRegWrite .. | .svcMapLoad .. | .mapLoadDone .. | .svcLedgerSave ..
  | .ledgerSaveDone .. | .svcCapture .. | .svcRailsUp .. | .svcPower .. | .imageWriteBegin .. | .imageWriteData ..
  | .imageWriteEnd .. | .imageWriteAbort .. | .forwardRequest .. | .forwardTimeout | .heathResponsePlace ..
  | .heathWatchdogExpiry | .heathRestartDone | .jobStart | .jobCopyDone .. | .jobCompressDone ..
  | .jobDecompressDone .. | .jobLedgerSnapDone .. | .jobCalpackDone .. | .jobCaptureDone .. | .serverRekeyDue ..
  | .cascadeAlignPeriod .. | .tapInstructionLoad .. => true

end Sys2Proof
end

