-- ==== Sys2Proof/Safety.lean ====
section
/-! DEFINITION. The terms claims use: canonical forms, what a set of registers left alone means, and a pending event. -/

namespace Sys2Proof.Machine

/-- The addressed memories are in their canonical form: HBM, the Heath data area of Sward, the boot NOR and the eMMC. -/
def Memory.wf (s : State) : Bool :=
  SMap.wf hbmDefault s.hbm && SMap.wf swdDefault s.swd && SMap.wf norDefault s.nor && SMap.wf emmcDefault s.emmc

/-- Each of `n` bytes of HBM from an address lies at a place of its own, as the check of the masks makes it (R311, R312). -/
def State.ownPlaces (s : State) (a n : Nat) : Prop :=
  ∀ i < n, ∀ j < n, hbmPlace s.mapMasks (a + i) = hbmPlace s.mapMasks (a + j) → i = j

/-- No place holds one of `n` bytes of HBM from `a` and one of `m` bytes from `b` (R311). -/
def State.apartPlaces (s : State) (a n b m : Nat) : Prop :=
  ∀ i < n, ∀ j < m, hbmPlace s.mapMasks (a + i) ≠ hbmPlace s.mapMasks (b + j)

/-- No byte of HBM outside the blocks of a generation differs (R324). -/
def State.genOnly (s t : State) (g : FallowGen) : Prop :=
  ∀ k, (∀ e ∈ g.blocks, ∀ q ∈ s.genBlock g.table e.2.2, ∀ i < q.2, hbmPlace s.mapMasks (q.1 + i) ≠ k) →
    SMap.get hbmDefault t.hbm k = SMap.get hbmDefault s.hbm k

/-- The registers are in their canonical form. -/
def Registers.wf (s : State) : Bool := SMap.wf regReset s.regs

/-- Every register but those at the addresses given holds what it held. -/
def State.regsBut (s t : State) (l : List Nat) : Prop := ∀ a, a ∉ l → t.rget a = s.rget a

/-- Registers whose write does more than store their fields by their codes: those with a WO field (R9), and those whose write a rule
gives an effect of its own: EVT_PEND 0, the job rings, MBX_IN_DATA, CAS_TIME_SET, EMC_MAP_BASE, EMC_MAP_CFG and LYR_FENCE_VAL. -/
def actsOnWrite (a : Nat) : Bool :=
  ((regDesc a).map (fun d => d.fields.any (fun f => f.acc == .wo))).getD false || a == R.EVT_PEND 0 ||
  (decide (R.JOB_RING_BASE 0 ≤ a) && decide (a ≤ R.JOB_RING_TAIL 7)) || (decide (R.MBX_IN_DATA 0 ≤ a) && decide (a ≤ R.MBX_IN_DATA 253)) ||
  [R.CAS_TIME_SET_LO, R.CAS_TIME_SET_HI, R.EMC_MAP_BASE 0, R.EMC_MAP_BASE 1, R.EMC_MAP_CFG 0, R.EMC_MAP_CFG 1].contains a ||
  (decide (R.LYR_FENCE_VAL 0 ≤ a) && decide (a ≤ R.LYR_FENCE_VAL 63))

/-- Event source `n` is pending (R351). -/
def State.pendingEvt (s : State) (n : Nat) : Bool := bitOf (s.rget (R.EVT_PEND (n / 32))).toNat (n % 32)

/-- The registers that raising source `n` may change: its pending bit, its count or overflow, and the count of records a full
queue drops (R351, R352, R270). -/
def evtRegs (n : Nat) : List Nat := [R.EVT_PEND (n / 32), R.EVT_OVF (n / 32), R.EVT_COUNT n, R.SES_EVT_LOST]

/-- `t` is `s` with the registers at the addresses given changed, and nothing else but the account of the cycle (log entry 2). -/
def State.regsOnly (s t : State) (l : List Nat) : Prop := t = { s with regs := t.regs, cyc := t.cyc } ∧ s.regsBut t l

/-- `t` is `s` with field `f` holding `n`: no other field of its register, no other register and nothing else differs. -/
def State.fieldOnly (s t : State) (f : Fld) (n : Nat) : Prop :=
  s.regsOnly t [f.addr] ∧ t.fget f = n ∧
  ∀ g : Fld, g.addr = f.addr → g.lo ≤ g.hi → g.hi < 32 → (g.hi < f.lo ∨ f.hi < g.lo) → t.fget g = s.fget g

/-- The sets of like things that the machine has a fixed number of hold that number. -/
structure State.Shaped (s : State) : Prop where
  slots : s.slots.length = 3
  ports : s.ports.length = 2
  pl : s.pl.length = 8
  boxes : s.boxes.length = 8
  casPorts : s.cas.ports.length = 5
  chans : s.cas.chans.length = 8
  rings : s.jobs.rings.length = 8
  decoders : s.syn.decoders.length = 32
  clusters : s.syn.clusters.length = 128
  groups : s.lyr.groups.length = 16
  evtTurn : s.evtTurn.length = 64

/-- What port `p` has sent since `s` is one NAK entry of the kind given, 1 RESEND, 2 REFUSE or 3 WINDOW, for `count` packets from
`first`, with a reason and its context (R236): in a NAK packet of its own, or at the end of one sent in the same microsecond of
the clock (R237). -/
def State.nakSent (s t : State) (p first count kind : Nat) (n : Nak) : Prop :=
  ∃ a b w pre, (t.port p).wire = a ++ w :: b ∧ w.hdr.ty = 0x31 ∧
    w.payload = pre ++ (leBytes 4 first ++ leBytes 2 count ++ leBytes 1 kind ++ leBytes 1 n.reason ++ leBytes 4 n.ctx) ∧
    ((pre = [] ∧ b = [] ∧ (s.port p).wire = a) ∨
      ∃ v, (s.port p).wire = a ++ v :: b ∧ v.hdr.ty = 0x31 ∧ v.payload = pre ∧ (s.port p).nakAt = some (s.ageNs / 1000))

/-- Port `p` sent one packet more, of a type and with a TSF and payload in the clear. -/
def State.sentOne (s t : State) (p ty : Nat) (tsf payload : List Byte) : Prop :=
  ∃ w, (t.port p).wire = (s.port p).wire ++ [w] ∧ w.hdr.ty = ty ∧ w.hdr.tsf = padTo 12 tsf ∧ w.payload = payload

/-- The fields of a packet are those a packet on a link can have: each within its width, a TSF of 12 bytes, LEN the payload's
length, and a tag of 16 bytes exactly where AUTH is 1 (R219, R221). -/
def Pkt.wf (k : Pkt) : Prop :=
  k.hdr.ty < 256 ∧ k.hdr.keyph < 4 ∧ k.hdr.len = k.payload.length ∧ k.payload.length < 2 ^ 13 ∧ k.hdr.seq < 2 ^ 32 ∧
  k.hdr.xdep < 2 ^ 32 ∧ k.hdr.sid < 2 ^ 32 ∧ k.hdr.tsf.length = 12 ∧ k.hdr.stamp < 2 ^ 32 ∧
  k.tag.length = if k.hdr.auth then 16 else 0

/-- What outlasts a session and stands apart from the picture: flash, eMMC, fuses, straps, the image, bring-up, power and rails. -/
def State.keepsBase (s t : State) : Prop :=
  t.nor = s.nor ∧ t.emmc = s.emmc ∧ t.fuses = s.fuses ∧ t.straps = s.straps ∧ t.img = s.img ∧ t.boot = s.boot ∧ t.pwr = s.pwr ∧
  t.pwd = s.pwd

/-- The rails are neither up nor on their way there, and the ingest ports are disabled, as in HALTED and RECOVERY (R377). -/
def State.stoodDown (s : State) : Prop := s.pwd.pos.upOrRun = false ∧ ∀ p : Fin 2, s.flag (F.ING_CTL_EN p) = false

/-- A cell framed on cascade port `n` is sound, of a type, and the one expected next there (R277, R279); an excluded device takes
only ECHO, ENUM and WAKE cells (R284). -/
def State.arrives (s : State) (n : Nat) (ty : CType) (bytes : List Byte) (c : Cell) : Prop :=
  s.casUp n = true ∧ readCell bytes = some c ∧ c.ty = ty.code ∧ cellFormOk c = true ∧
  (cellSequenced c.ty = true → c.seq = (s.casPort n).rxNext) ∧ (s.casState = 7 → ty = .echo ∨ ty = .enum ∨ ty = .wake)

/-- Port `n` holds a sequenced cell, waiting or not yet acknowledged. -/
def State.cellOn (t : State) (n ty : Nat) (payload : List Byte) : Prop :=
  ∃ d ∈ (t.casPort n).unacked ++ (t.casPort n).waiting, d.ty = ty ∧ d.payload = payload

/-- Port `n` of `t` has sent an unsequenced cell since `s`. -/
def State.cellSent (s t : State) (n ty : Nat) (payload : List Byte) : Prop :=
  ∃ l, (t.casPort n).wire = (s.casPort n).wire ++ l ∧ ∃ d ∈ l, d.ty = ty ∧ d.payload = payload

/-- Only what the cascade ports hold differs. -/
def State.portsOnly (s t : State) : Prop := t = { s with cas := { s.cas with ports := t.cas.ports } }

/-- Heath has taken a request for this device from box `b`, and it waits to run (R346, R347). -/
def State.holdsReq (s : State) (b dev svc : Nat) (body : List Byte) : Prop :=
  s.heathServes b = true ∧ (s.box b).req = some (dev, body) ∧ 8 ≤ body.length ∧ reqSvc body = svc ∧ s.forwards body = false

/-- Box `b`'s request has run and its response stands last among those that wait for OUT. -/
def State.answers (s t : State) (b dev : Nat) (body : List Byte) (result : Nat) (data : List Byte) : Prop :=
  (t.box b).req = none ∧
  (t.box b).responses = (s.box b).responses ++ [(dev, responseBody (reqSvc body) (reqRid body) result data)]

/-- The job at the head of ring `r` has ended with a status (R353, R350): HEAD has advanced, past the entries that
completed early too, the ring runs no job, its record of ids
has the job's, and the events are raised. The other rings stand. -/
def State.jobEnded (s t : State) (r : Nat) (d : JobDesc) (status : Nat) : Prop :=
  t.fget (F.JOB_RING_HEAD_HEAD r) = (s.fget (F.JOB_RING_HEAD_HEAD r) + 1 + (s.jring r).early) % 65536 ∧
  (t.jring r).running = none ∧ (t.jring r).early = 0 ∧
  (t.jring r).ids = (if status = 7 then (s.jring r).ids else ((d.id, status) :: (s.jring r).ids).take 256) ∧
  (d.irq = true → t.pendingEvt 17 = true) ∧ (2 ≤ status → t.pendingEvt 18 = true) ∧
  ∀ k, k ≠ r → t.jobs.rings[k]? = s.jobs.rings[k]?

/-- The count of SWD_BLK_REFUSED for the reason of a refusal (R63). -/
def refusedFld (reason : Nat) : Fld :=
  if reason = 0x24 then F.SWD_BLK_REFUSED_BLOCKFMT
  else if reason = 0x25 then F.SWD_BLK_REFUSED_BLOCKPOS
  else if reason = 0x26 then F.SWD_BLK_REFUSED_CODETAB
  else F.SWD_BLK_REFUSED_SLOTFULL

/-- A field of a register as a layout gives it. -/
def FieldDesc.of (f : FieldDesc) (v : W32) : Nat := bitsOf v.toNat f.hi f.lo

end Sys2Proof.Machine
end

