-- ==== Sys2Proof/Certificates/Slice0/Obligations.lean ====
section
/-! DEFINITION. The statements for the provers. -/

open Sys2Proof Sys2Proof.Machine

/-! The queue. -/

/-- A step runs the command at the front of the queue, with the rest of the queue behind it.
Choices of the model it rests on: log entry 9. -/
def Obligations.StepRunsFrontCommand : Prop :=
  ∀ (c : Instr) (rest : List Instr) (s : State), s.pending = c :: rest → step s = exec c { s with pending := rest }

/-! Registers, snapshots and the management bus (00_scope.md, 13_control_plane.md, 15_clocks_resets_power.md). -/

/-- R175: PWD_RAIL_CFG and PWD_SEQ_CFG are RWL registers of PWD, which counts as stopped only in OFF. R10: a write to a register of RWL
fields is ignored and counted while the owning block runs, and kept for a stop of the same cycle; it sets every field while the block is
stopped, or was started in the same cycle; and one that comes before another path's write of the cycle (R327) leaves the fields to that
one. Nothing else changes. When a block counts as stopped, and that a refused write is counted once, is the model's choice.
Choices of the model it rests on: log entries 2, 8. -/
def Obligations.LockedRegisterWrite : Prop :=
  (∀ a ∈ R.PWD_SEQ_CFG :: (List.range 4).map R.PWD_RAIL_CFG, ownerOf a = some .pwd ∧
    ∃ d, regDesc a = some d ∧ ∀ f ∈ d.fields, f.acc = .rwl) ∧
  (∀ s : State, s.stopped .pwd = true ↔ s.pwd.pos = .off) ∧
  ∀ (p : Path) (a v : W32) (s : State) (d : RegDesc) (o : Owner),
    addrOk a.toNat = true → inRam a.toNat = false → s.isOff a.toNat = false → regDesc a.toNat = some d →
    ownerOf a.toNat = some o → (∀ r, o ≠ .jobRing r) → (∀ f ∈ d.fields, f.acc = .rwl) →
    ∃ t, exec (.registerWrite p a v) s = .next t ∧ t = { s with regs := t.regs, cyc := t.cyc } ∧
      (s.stopped o = false → o ∉ s.cyc.starts → (∀ f ∈ d.fields, f.of (t.rget a.toNat) = f.of (s.rget a.toNat)) ∧
        t.fget F.CHIP_WRITE_REFUSED_COUNT = min (s.fget F.CHIP_WRITE_REFUSED_COUNT + 1) 0xFFFFFFFF ∧
        t.cyc.refused = s.cyc.refused ++ [(a.toNat, v.toNat)] ∧ s.regsBut t [a.toNat, R.CHIP_WRITE_REFUSED]) ∧
      (s.stopped o = true ∨ o ∈ s.cyc.starts →
        (s.wroteNow a.toNat ≤ pathRank p + 1 → ∀ f ∈ d.fields, f.of (t.rget a.toNat) = f.of v) ∧
        (pathRank p + 1 < s.wroteNow a.toNat → ∀ f ∈ d.fields, f.of (t.rget a.toNat) = f.of (s.rget a.toNat)) ∧
        s.regsBut t [a.toNat])

/-- R9, R11: a write of a register without an action of its own sets each RW field, and each RWL field whose owner is stopped; each 1
clears a W1C bit, but for one that hardware sets in the same cycle, and sets a W1S bit; RO, RC and reserved bits stay. R10: RWL fields of a
running owner stay, and the write is counted. R327: a path that comes before one that has written the register in this cycle leaves its RW
and RWL fields to that one. R350, R351: a bit of EVT_PEND stays set while its level holds. R68: a clear of VALID with an event of the
same moment captures that event. A WO field causes its action, that of the command, and a 0 in it none. R8: a write at a reserved offset,
and R329: of a block that is off, has no effect. R328: one outside every window counts BADADDR on the management bus, faults Heath on its
path, and does nothing on the others.
Choices of the model it rests on: log entries 2, 8. -/
def Obligations.RegisterWriteByCode : Prop :=
  (∀ (p : Path) (a v : W32) (s : State) (d : RegDesc),
    addrOk a.toNat = true → inRam a.toNat = false → s.isOff a.toNat = false → regDesc a.toNat = some d →
    let old := (s.rget a.toNat).toNat
    let open_ := decide (ownerOf a.toNat = none) || (ownerOf a.toNat).any (fun o => s.stopped o || decide (o ∈ s.cyc.starts))
    let locked := d.fields.any (fun f => f.acc == .rwl) && !open_
    (actsOnWrite a.toNat = false →
      ∃ t, exec (.registerWrite p a v) s = .next t ∧ t = { s with regs := t.regs, cyc := t.cyc, caps := t.caps } ∧
        (¬ (a.toNat ∈ captureRegs ∧ bitOf v.toNat 31 = true ∧ ∃ e ∈ s.caps, e.1 = a.toNat ∧ e.2.clock = s.clock) →
          t.caps = s.caps ∧ s.regsBut t (a.toNat :: if locked then [R.CHIP_WRITE_REFUSED] else []) ∧
          (locked = true → t.fget F.CHIP_WRITE_REFUSED_COUNT = min (s.fget F.CHIP_WRITE_REFUSED_COUNT + 1) 0xFFFFFFFF) ∧
          (∀ f ∈ d.fields, (f.acc = .rw ∨ f.acc = .rwl) → f.of (t.rget a.toNat) =
            if pathRank p + 1 < s.wroteNow a.toNat ∨ (f.acc = .rwl ∧ locked = true) then f.of (s.rget a.toNat)
            else f.of (BitVec.ofNat 32 (unreserved a.toNat v.toNat))) ∧
          (∀ f ∈ d.fields, (f.acc = .ro ∨ f.acc = .rc ∨ f.acc = .wo) → f.of (t.rget a.toNat) = f.of (s.rget a.toNat)) ∧
          (∀ f ∈ d.fields, ∀ k, f.lo ≤ k → k ≤ f.hi →
            (f.acc = .w1c → bitOf (t.rget a.toNat).toNat k = ((bitOf old k && !bitOf v.toNat k) || bitOf (s.setNow a.toNat) k)) ∧
            (f.acc = .w1s → bitOf (t.rget a.toNat).toNat k = (bitOf old k || bitOf v.toNat k))) ∧
          ∀ k, k < 32 → (∀ f ∈ d.fields, ¬ (f.lo ≤ k ∧ k ≤ f.hi)) → bitOf (t.rget a.toNat).toNat k = bitOf old k) ∧
        ∀ c, a.toNat ∈ captureRegs → bitOf v.toNat 31 = true →
          s.caps.find? (fun e => e.1 == a.toNat && e.2.clock == s.clock) = some (a.toNat, c) →
          ∀ x r w y, c.vals = x ++ (r, w) :: y → (∀ e ∈ y, e.1 ≠ r) → t.rget r = w) ∧
    (a.toNat = R.EVT_PEND 0 →
      ∃ t, exec (.registerWrite p a v) s = .next t ∧ s.regsOnly t [R.EVT_PEND 0] ∧
        ∀ k, k < 32 → bitOf (t.rget (R.EVT_PEND 0)).toNat k = ((bitOf old k && !bitOf v.toNat k) || bitOf (s.setNow (R.EVT_PEND 0)) k ||
          (k == 11 && !s.cas.fifo.isEmpty) || (k == 14 && (s.box 0).outMsg.isSome)))) ∧
  (∀ (p : Path) (v : W32) (s : State),
    let u := { s with cyc := { s.cyc with rank := pathRank p } }
    let w := fun (a : Nat) => exec (.registerWrite p (BitVec.ofNat 32 a) v) s
    let one := fun (f : Fld) => bitOf v.toNat f.lo
    (s.isOff R.SYN_CTL = false →
      w R.SYN_CTL = (if one F.SYN_CTL_START then exec (.synStart (one F.SYN_CTL_STOP)) u
        else if one F.SYN_CTL_STOP then exec (.synStop false) u else .next u) ∧
      w R.DRV_CTL = (if one F.DRV_CTL_START then exec (.drvStart (one F.DRV_CTL_STOP)) u
        else if one F.DRV_CTL_STOP then exec (.drvStop false) u else .next u) ∧
      w R.SYN_COEF_CTL = (if one F.SYN_COEF_CTL_SWAP then exec .coefSwap u else .next u) ∧
      w R.COL_LUT_CTL = (if one F.COL_LUT_CTL_SWAP then exec .lutSwap u else .next u) ∧
      w R.EMC_MAP_CTL = (if one F.EMC_MAP_CTL_SWAP then exec .mapSwap u else .next u) ∧
      w R.LYR_FALLOW_DROP = exec (.fallowDrop v) u ∧
      w R.MPHY_TRAIN_CTL = (if one F.MPHY_TRAIN_CTL_GO then exec .mphyTrainGo u else .next u)) ∧
    (s.isOff R.PWD_SEQ_CTL = false →
      w R.PWD_SEQ_CTL = (if one F.PWD_SEQ_CTL_UP then exec (.railUpRequest (one F.PWD_SEQ_CTL_DOWN)) u
        else if one F.PWD_SEQ_CTL_DOWN then exec (.railDownRequest false) u else .next u)) ∧
    (s.isOff R.MBX_HOST_CTL = false → one F.MBX_HOST_CTL_RESET = false →
      (one F.MBX_HOST_CTL_DONE = false → w R.MBX_HOST_CTL = if one F.MBX_HOST_CTL_SEND then exec .mbxSend u else .next u) ∧
      (one F.MBX_HOST_CTL_SEND = false → w R.MBX_HOST_CTL = if one F.MBX_HOST_CTL_DONE then exec .mbxDone u else .next u))) ∧
  ∀ (p : Path) (a v : W32) (s : State),
    (addrOk a.toNat = true → (s.isOff a.toNat = true ∨ (inRam a.toNat = false ∧ regDesc a.toNat = none)) →
      exec (.registerWrite p a v) s = .next { s with cyc := { s.cyc with rank := pathRank p } }) ∧
    (addrOk a.toNat = false →
      (p = .control ∨ p = .service → exec (.registerWrite p a v) s = .next s) ∧
      (p = .heath → exec (.registerWrite p a v) s = exec .heathWatchdogExpiry s) ∧
      (p = .bus →
        ∃ t, exec (.registerWrite p a v) s = .next t ∧
          t.fget F.MBX_I2C_STAT_BADADDR = min (s.fget F.MBX_I2C_STAT_BADADDR + 1) 255 ∧
          (s.fget F.MBX_I2C_STAT_BADADDR < 255 → t.pendingEvt 24 = true) ∧ s.regsBut t (R.MBX_I2C_STAT :: evtRegs 24) ∧
          t = { s with regs := t.regs, cyc := t.cyc, ses := t.ses, evtTurn := t.evtTurn }))

/-- R9, R11: a read of a register returns its value and clears its RC fields, and no other field of any register changes; what hardware
adds in the same cycle is not in the value and stays in the field; PEAK of CAL_THERM_STAT takes the present Tj. R314: a read of a
MEM_CLIENT_STAT clears PANICS, and WORST takes the client's level; once clients are served the FIFO has moved by a free value, and the
WORST it returns bounds its level.
Choices of the model it rests on: log entries 2, 9, 20. -/
def Obligations.ReadClearsCounters : Prop :=
  (∀ (s : State) (f : Fld) (n : Nat),
    ((∀ e ∈ s.cyc.adds, e.1 ≠ f) → s.beforeOf f = s.fget f ∧ s.aloneOf f = 0) ∧
    (s.fadd f n).beforeOf f = s.beforeOf f ∧ (s.fadd f n).aloneOf f = min (s.aloneOf f + n) (2 ^ (f.hi + 1 - f.lo) - 1)) ∧
  ∀ (p : Path) (a : W32) (s : State) (d : RegDesc),
    addrOk a.toNat = true → inRam a.toNat = false → s.isOff a.toNat = false → regDesc a.toNat = some d →
    (∃ f ∈ d.fields, f.acc = .rc) →
    ((∀ n, n ≤ 8 → a.toNat ≠ R.MEM_CLIENT_STAT n) →
      ∃ t, exec (.readClearRegister p a) s = .next t ∧ t = { s with regs := t.regs, cyc := t.cyc, rdata := t.rdata } ∧
        s.regsBut t [a.toNat] ∧
        ∀ f ∈ d.fields, f.of t.rdata = (if f.acc = .rc then s.beforeOf ⟨a.toNat, f.hi, f.lo⟩ % 2 ^ (f.hi + 1 - f.lo) else f.of (s.peek a.toNat)) ∧
          f.of (t.rget a.toNat) =
            if f.acc = .rc then
              (if a.toNat = R.CAL_THERM_STAT then s.fget F.CAL_TJ_TJ else s.aloneOf ⟨a.toNat, f.hi, f.lo⟩ % 2 ^ (f.hi + 1 - f.lo))
            else f.of (s.rget a.toNat)) ∧
    ∀ n, n ≤ 8 → a.toNat = R.MEM_CLIENT_STAT n →
      let panics := F.MEM_CLIENT_STAT_PANICS n
      let worst := F.MEM_CLIENT_STAT_WORST n
      ∃ t, exec (.readClearRegister p a) s = .next t ∧ s.regsBut t [a.toNat] ∧
        bitsOf t.rdata.toNat 31 16 = s.beforeOf panics % 2 ^ 16 ∧ t.fget worst = t.level n % 2 ^ 16 ∧
        (s.mem.served = false → t = { s with regs := t.regs, cyc := t.cyc, rdata := t.rdata } ∧ t.fget panics = s.aloneOf panics % 2 ^ 16 ∧
          bitsOf t.rdata.toNat 15 0 = s.beforeOf worst % 2 ^ 16) ∧
        (s.mem.served = true → t = { s with regs := t.regs, cyc := t.cyc, rdata := t.rdata, free := s.free + 1, mem := t.mem } ∧
          t.mem = { s.mem with levels := t.mem.levels } ∧
          (s.mem.levels.length = 9 → s.level n ≤ fifoLines n → (∀ e ∈ s.cyc.adds, e.1 ≠ worst) → t.level n ≤ fifoLines n ∧
            if highWorst n then t.level n ≤ bitsOf t.rdata.toNat 15 0 ∧ s.fget worst ≤ bitsOf t.rdata.toNat 15 0
            else bitsOf t.rdata.toNat 15 0 ≤ t.level n ∧ bitsOf t.rdata.toNat 15 0 ≤ s.fget worst))

/-- R396, R451: a read of the first register of a snapshot group captures the others on that path alone, and a read of a
captured register returns the snapshot of its path.
Choices of the model it rests on: log entry 9. -/
def Obligations.SnapshotsArePerPath : Prop :=
  ∀ (p : Path) (a : W32) (s : State), addrOk a.toNat = true → s.isOff a.toNat = false →
    (snapGroup a.toNat ≠ [] →
      ∃ t, exec (.snapshotRead p a) s = .next t ∧ t = { s with snaps := t.snaps, rdata := t.rdata } ∧
        t.rdata = s.peek a.toNat ∧ (∀ b ∈ snapGroup a.toNat, t.snap p b = s.peek b) ∧
        ∀ q, q ≠ p → t.snaps.of q = s.snaps.of q) ∧
    (snapMember a.toNat = true →
      exec (.snapshotRead p a) s = .next { s with rdata := s.snap p a.toNat })

/-- R123: a read of LYR_TURN_LO captures the other three registers and arms the snapshot of LYR_FLIP_TIME_LO on its path; the first
read of that one returns the snapshot, disarms it and takes none; with none armed it returns the live value and captures the high word; and
reads of the high words return the path's last snapshots. -/
def Obligations.TurnReadArmsFlipTime : Prop :=
  ∀ (p : Path) (x : Nat) (s : State), s.isOff R.LYR_TURN_LO = false →
    (∃ t, exec (.turnLoRead p) s = .next t ∧ t = { s with snaps := t.snaps, rdata := t.rdata } ∧
      t.rdata = BitVec.ofNat 32 s.lyr.turn ∧
      t.snap p R.LYR_TURN_HI = BitVec.ofNat 32 (s.lyr.turn / 2 ^ 32) ∧
      t.snap p R.LYR_FLIP_TIME_LO = BitVec.ofNat 32 s.lyr.flipTime ∧
      t.snap p R.LYR_FLIP_TIME_HI = BitVec.ofNat 32 (s.lyr.flipTime / 2 ^ 32) ∧
      t.snaps.armed.contains p = true ∧
      ∃ u, exec (.flipTimeLoRead p) { t with lyr := { t.lyr with flipTime := x } } = .next u ∧
        u.rdata = BitVec.ofNat 32 s.lyr.flipTime ∧ (∀ a, u.snap p a = t.snap p a) ∧ u.snaps.armed.contains p = false ∧
        ∃ w, exec (.flipTimeLoRead p) u = .next w ∧ w.rdata = BitVec.ofNat 32 x ∧
          w.snap p R.LYR_FLIP_TIME_HI = BitVec.ofNat 32 (x / 2 ^ 32)) ∧
    (s.snaps.armed.contains p = false →
      ∃ t, exec (.flipTimeLoRead p) s = .next t ∧ t = { s with snaps := t.snaps, rdata := t.rdata } ∧
        t.rdata = BitVec.ofNat 32 s.lyr.flipTime ∧ t.snap p R.LYR_FLIP_TIME_HI = BitVec.ofNat 32 (s.lyr.flipTime / 2 ^ 32) ∧
        t.snap p R.LYR_TURN_HI = s.snap p R.LYR_TURN_HI) ∧
    exec (.snapshotRead p (BitVec.ofNat 32 R.LYR_TURN_HI)) s = .next { s with rdata := s.snap p R.LYR_TURN_HI } ∧
    exec (.snapshotRead p (BitVec.ofNat 32 R.LYR_FLIP_TIME_HI)) s = .next { s with rdata := s.snap p R.LYR_FLIP_TIME_HI }

/-- R298: a read of CAS_EVT_FIFO0 removes the oldest record, returns its count and device, and captures its sources and turn; with no record
it returns 0 and captures 0.
Choices of the model it rests on: log entry 8. -/
def Obligations.FifoReadRemovesOldest : Prop :=
  ∀ (p : Path) (s : State), s.isOff R.CAS_EVT_FIFO0 = false →
    (∀ e l, s.cas.fifo = e :: l →
      ∃ t, exec (.evtFifoRead p) s = .next t ∧ t.cas = { s.cas with fifo := l } ∧
        t = { s with cas := t.cas, snaps := t.snaps, rdata := t.rdata } ∧
        bitOf t.rdata.toNat 31 = true ∧ bitsOf t.rdata.toNat 30 23 = e.count % 256 ∧ bitsOf t.rdata.toNat 17 0 = e.src % 2 ^ 18 ∧
        t.snap p R.CAS_EVT_FIFO1 = BitVec.ofNat 32 (e.source % 65536) ∧ t.snap p R.CAS_EVT_FIFO2 = BitVec.ofNat 32 e.turn) ∧
    (s.cas.fifo = [] →
      ∃ t, exec (.evtFifoRead p) s = .next t ∧ t = { s with snaps := t.snaps, rdata := 0 } ∧
        t.snap p R.CAS_EVT_FIFO1 = 0 ∧ t.snap p R.CAS_EVT_FIFO2 = 0)

/-- R331: a write transaction of one group writes one register as a register write on the management bus does; one that ends
within a group counts PARTIAL; one for another target does nothing. R334: a bus held low for 35 ms before a whole group has arrived counts
TIMEOUT and writes nothing; a misaligned address that had arrived counts BADADDR (R331).
Choices of the model it rests on: log entries 8, 48. -/
def Obligations.BusWriteTransaction : Prop :=
  (∀ (dev : BitVec 7) (a v : W32) (s : State),
    (s.i2cMine dev = true → addrOk a.toNat = true →
      ∃ t u, exec (.i2cWrite dev (leBytes 4 a.toNat ++ leBytes 4 v.toNat)) s = .next t ∧
        exec (.registerWrite .bus a v) { s with i2cNack := none } = .next u ∧ t = { u with i2cNack := t.i2cNack } ∧
        (a.toNat ≠ R.MBX_HOST_CTL → t = u)) ∧
    (s.i2cMine dev = true → addrOk a.toNat = true →
      ∃ t, exec (.i2cWrite dev (leBytes 4 a.toNat ++ leBytes 3 v.toNat)) s = .next t ∧
        t.fget F.MBX_I2C_STAT_PARTIAL = min (s.fget F.MBX_I2C_STAT_PARTIAL + 1) 255 ∧
        (s.fget F.MBX_I2C_STAT_PARTIAL < 255 → t.pendingEvt 24 = true) ∧
        s.regsBut t (R.MBX_I2C_STAT :: evtRegs 24) ∧
        t = { s with regs := t.regs, cyc := t.cyc, ses := t.ses, evtTurn := t.evtTurn, i2cNack := none }) ∧
    (s.i2cMine dev = false → ∀ b, exec (.i2cWrite dev b) s = .next s)) ∧
  ∀ (dev : BitVec 7) (bytes : List Byte) (s : State), s.pwr.por = false → bytes.length < 8 →
    ∃ t, exec (.i2cBusTimeout dev bytes) s = .next t ∧
      t.fget F.MBX_I2C_STAT_TIMEOUT = min (s.fget F.MBX_I2C_STAT_TIMEOUT + 1) 255 ∧
      (s.fget F.MBX_I2C_STAT_TIMEOUT < 255 → t.pendingEvt 24 = true) ∧
      t.fget F.MBX_I2C_STAT_BADADDR = (if s.i2cMine dev = true ∧ 4 ≤ bytes.length ∧ leAt bytes 0 4 % 4 ≠ 0
        then min (s.fget F.MBX_I2C_STAT_BADADDR + 1) 255 else s.fget F.MBX_I2C_STAT_BADADDR) ∧
      s.regsBut t (R.MBX_I2C_STAT :: evtRegs 24) ∧
      t = { s with regs := t.regs, cyc := t.cyc, ses := t.ses, evtTurn := t.evtTurn, i2cNack := t.i2cNack }

/-- R332, R333: a read transaction of one register has that register's read effects on the management bus and gives the host its
bytes, least significant first, and with PEC the check byte over the address and the value.
Choices of the model it rests on: log entry 48. -/
def Obligations.BusReadTransaction : Prop :=
  ∀ (dev : BitVec 7) (a : W32) (s : State), s.i2cMine dev = true → a.toNat % 4 = 0 → a.toNat < 2 ^ 30 →
    ∃ t u, exec (.i2cRead dev (leBytes 4 a.toNat) 1) s = .next t ∧
      exec (.readClearRegister .bus a) { s with i2cNack := none, i2cOut := [] } = .next u ∧
      t = { u with i2cOut := leBytes 4 u.rdata.toNat } ∧
      exec (.i2cRead dev (leBytes 4 (2 ^ 31 + a.toNat)) 1) s = .next { u with
        i2cOut := leBytes 4 u.rdata.toNat ++
          [BitVec.ofNat 8 (crc8 (leBytes 4 (2 ^ 31 + a.toNat) ++ leBytes 4 u.rdata.toNat))] }

/-! Geometry, page swaps and requests that wait for the latch row (02, 04, 05, 06 and 07). -/

/-- R37, R30, R32: GO clears DONE and takes the coordinates of the emitter and layer from the turn that shows; the results, DONE and
nothing else follow; a GO during a probe stores LAYER alone. R391: with CORE's clock stopped a probe does not end.
Choices of the model it rests on: log entry 68. -/
def Obligations.GeometryProbe : Prop :=
  ∀ (layer : BitVec 7) (s : State),
    (s.isOff R.SYN_GEOM_PROBE_CTL = false → s.flag F.SYN_GEOM_PROBE_CTL_DONE = true →
      ∃ t r, exec (.geomProbeGo layer) s = .next t ∧ t = { s with regs := t.regs, probe := some r } ∧
        s.regsBut t [R.SYN_GEOM_PROBE_CTL] ∧ t.flag F.SYN_GEOM_PROBE_CTL_DONE = false ∧
        t.fget F.SYN_GEOM_PROBE_CTL_LAYER = layer.toNat ∧
        (∀ tl, s.lyr.layerSet.find? (fun t => t.layer.overlay == decide (64 ≤ layer.toNat) &&
              t.layer.index == (if layer.toNat < 64 then layer.toNat else layer.toNat - 64) && decide (layer.toNat < 72)) = some tl →
          s.fget F.SYN_GEOM_PROBE_EMIT_X < 480 * s.tab.geom.ng → s.fget F.SYN_GEOM_PROBE_EMIT_Y < s.tab.geom.hp →
          let c := layerCoord s.tab.geom tl.layer.place (s.fget F.SYN_GEOM_PROBE_EMIT_X) (s.fget F.SYN_GEOM_PROBE_EMIT_Y)
          bitsOf r.1 21 0 = c.1.c % 2 ^ 22 ∧ bitsOf r.2 21 0 = c.2.c % 2 ^ 22 ∧
            bitOf r.1 25 = c.1.sat ∧ bitOf r.2 25 = c.2.sat)) ∧
    (s.isOff R.SYN_GEOM_PROBE_CTL = false → s.flag F.SYN_GEOM_PROBE_CTL_DONE = false →
      ∃ t, exec (.geomProbeGo layer) s = .next t ∧ s.fieldOnly t F.SYN_GEOM_PROBE_CTL_LAYER layer.toNat) ∧
    (s.coreRuns = false → exec .geomProbeDone s = .next s) ∧
    ∀ x y, s.probe = some (x, y) → s.coreRuns = true →
      ∃ t, exec .geomProbeDone s = .next t ∧ t = { s with regs := t.regs, probe := none } ∧
        s.regsBut t [R.SYN_GEOM_PROBE_X, R.SYN_GEOM_PROBE_Y, R.SYN_GEOM_PROBE_CTL] ∧
        t.rget R.SYN_GEOM_PROBE_X = BitVec.ofNat 32 x ∧ t.rget R.SYN_GEOM_PROBE_Y = BitVec.ofNat 32 y ∧
        t.flag F.SYN_GEOM_PROBE_CTL_DONE = true

/-- R85, R137, R146: a SWAP sets PEND and exchanges nothing before the latch row, and does nothing while PEND = 1. R84, R136: a write to
the coefficient or the LUT RAM lands in the page that is not active and nowhere else, the reserved bits of a LUT word reading 0; R85, R137:
while PEND = 1 it is ignored and counted.
Choices of the model it rests on: log entries 2, 8. -/
def Obligations.PageSwapRequests : Prop :=
  (∀ s : State,
    let asked := fun (t : State) (c : Nat) => t.cyc = { s.cyc with asked := c :: s.cyc.asked }
    (s.isOff R.SYN_COEF_CTL = false →
      (s.flag F.SYN_COEF_CTL_PEND = false →
        ∃ t, exec .coefSwap s = .next t ∧ s.fieldOnly t F.SYN_COEF_CTL_PEND 1 ∧ asked t R.SYN_COEF_CTL) ∧
      (s.flag F.SYN_COEF_CTL_PEND = true → exec .coefSwap s = .next s)) ∧
    (s.isOff R.COL_LUT_CTL = false →
      (s.flag F.COL_LUT_CTL_PEND = false →
        ∃ t, exec .lutSwap s = .next t ∧ s.fieldOnly t F.COL_LUT_CTL_PEND 1 ∧ asked t R.COL_LUT_CTL) ∧
      (s.flag F.COL_LUT_CTL_PEND = true → exec .lutSwap s = .next s)) ∧
    (s.isOff R.EMC_MAP_CTL = false →
      (s.flag F.EMC_MAP_CTL_PEND = false →
        ∃ t, exec .mapSwap s = .next t ∧ s.fieldOnly t F.EMC_MAP_CTL_PEND 1 ∧ asked t R.EMC_MAP_CTL) ∧
      (s.flag F.EMC_MAP_CTL_PEND = true → exec .mapSwap s = .next s))) ∧
  ∀ (p : Path) (a v : W32) (s : State), a.toNat % 4 = 0 → s.isOff a.toNat = false →
    let u := { s with cyc := { s.cyc with rank := pathRank p } }
    (0x3000000 ≤ a.toNat → a.toNat < 0x3002000 →
      let i := (a.toNat - 0x3000000) / 4
      (s.flag F.SYN_COEF_CTL_PEND = true →
        ∃ t, exec (.registerWrite p a v) s = .next t ∧
          s.fieldOnly t F.SYN_COEF_CTL_REFUSED (min (s.fget F.SYN_COEF_CTL_REFUSED + 1) 63)) ∧
      (s.flag F.SYN_COEF_CTL_PEND = false → s.flag F.SYN_COEF_CTL_ACTIVE = false →
        ∃ t, exec (.registerWrite p a v) s = .next t ∧ t = { u with coef1 := t.coef1 } ∧ SMap.get coefDefault t.coef1 i = v ∧
          ∀ j, j ≠ i → SMap.get coefDefault t.coef1 j = SMap.get coefDefault s.coef1 j) ∧
      (s.flag F.SYN_COEF_CTL_PEND = false → s.flag F.SYN_COEF_CTL_ACTIVE = true →
        ∃ t, exec (.registerWrite p a v) s = .next t ∧ t = { u with coef0 := t.coef0 } ∧ SMap.get coefDefault t.coef0 i = v ∧
          ∀ j, j ≠ i → SMap.get coefDefault t.coef0 j = SMap.get coefDefault s.coef0 j)) ∧
    (0x3100000 ≤ a.toNat → a.toNat < 0x3140000 →
      let i := (a.toNat - 0x3100000) / 4
      let w := v &&& BitVec.ofNat 32 (lutMask (a.toNat - 0x3100000))
      (s.flag F.COL_LUT_CTL_PEND = true →
        ∃ t, exec (.registerWrite p a v) s = .next t ∧
          s.fieldOnly t F.COL_LUT_CTL_REFUSED (min (s.fget F.COL_LUT_CTL_REFUSED + 1) 63)) ∧
      (s.flag F.COL_LUT_CTL_PEND = false → s.flag F.COL_LUT_CTL_ACTIVE = false →
        ∃ t, exec (.registerWrite p a v) s = .next t ∧ t = { u with lut1 := t.lut1 } ∧ SMap.get lutDefault t.lut1 i = w ∧
          ∀ j, j ≠ i → SMap.get lutDefault t.lut1 j = SMap.get lutDefault s.lut1 j) ∧
      (s.flag F.COL_LUT_CTL_PEND = false → s.flag F.COL_LUT_CTL_ACTIVE = true →
        ∃ t, exec (.registerWrite p a v) s = .next t ∧ t = { u with lut0 := t.lut0 } ∧ SMap.get lutDefault t.lut0 i = w ∧
          ∀ j, j ≠ i → SMap.get lutDefault t.lut0 j = SMap.get lutDefault s.lut0 j))

/-- R92, R171: a start or stop request replaces the one that waits and sets PEND; START and STOP together do nothing; RUN does not
change before the latch row.
Choices of the model it rests on: log entries 2, 8, 27. -/
def Obligations.StartStopRequests : Prop :=
  ∀ s : State,
    (s.isOff R.SYN_CTL = false →
      (∃ t, exec (.synStart false) s = .next t ∧ t.lyr = { s.lyr with heldSyn := some true } ∧
        s.fieldOnly { t with lyr := s.lyr } F.SYN_CTL_PEND 1 ∧ t.cyc = { s.cyc with asked := R.SYN_CTL :: s.cyc.asked }) ∧
      (∃ t, exec (.synStop false) s = .next t ∧ t.lyr = { s.lyr with heldSyn := some false } ∧
        s.fieldOnly { t with lyr := s.lyr } F.SYN_CTL_PEND 1 ∧ t.cyc = { s.cyc with asked := R.SYN_CTL :: s.cyc.asked }) ∧
      exec (.synStart true) s = .next s ∧ exec (.synStop true) s = .next s) ∧
    (s.isOff R.DRV_CTL = false →
      (∃ t, exec (.drvStart false) s = .next t ∧ t.lyr = { s.lyr with heldDrv := some true } ∧
        s.fieldOnly { t with lyr := s.lyr } F.DRV_CTL_PEND 1 ∧ t.cyc = { s.cyc with asked := R.DRV_CTL :: s.cyc.asked }) ∧
      (∃ t, exec (.drvStop false) s = .next t ∧ t.lyr = { s.lyr with heldDrv := some false } ∧
        s.fieldOnly { t with lyr := s.lyr } F.DRV_CTL_PEND 1 ∧ t.cyc = { s.cyc with asked := R.DRV_CTL :: s.cyc.asked }) ∧
      exec (.drvStart true) s = .next s ∧ exec (.drvStop true) s = .next s)

/-- R114: an update of fence n to value V takes effect only if V is newer than the fence's current value, and otherwise changes nothing;
every fence reads 0 after reset; and a fence with a target is reached when (value - TARGET) mod 2^32 is 0 or lies in 1 to 2^31 - 1. -/
def Obligations.FencesMoveForward : Prop :=
  ∀ (n : Fin 64) (v : W32) (s : State), s.isOff (R.LYR_FENCE_VAL n) = false →
    ((s.flag F.CAS_CTL_SYSFENCE = false ∨ n.val < 48) →
      (newer32 v.toNat (s.fget (F.LYR_FENCE_VAL_VALUE n)) = true →
        ∃ t, exec (.fenceValueWrite n v) s = .next t ∧ s.fieldOnly t (F.LYR_FENCE_VAL_VALUE n) v.toNat) ∧
      (newer32 v.toNat (s.fget (F.LYR_FENCE_VAL_VALUE n)) = false → exec (.fenceValueWrite n v) s = .next s)) ∧
    State.reset.rget (R.LYR_FENCE_VAL n) = 0 ∧ regReset (R.LYR_FENCE_VAL n) = 0 ∧
    ∀ val target : W32, reached val.toNat target.toNat = true ↔
      (val - target = 0 ∨ (1 ≤ (val - target).toNat ∧ (val - target).toNat ≤ 2 ^ 31 - 1))

/-- R130: a mode request completes at once on the active set, is refused on a follower, on a set that is not valid and while a
change is in progress, and otherwise begins the change, which no latch row of the same cycle starts.
Choices of the model it rests on: log entries 2, 25. -/
def Obligations.ModeRequests : Prop :=
  ∀ (n : BitVec 3) (s : State), s.isOff R.TIM_MODE_REQ = false →
    ∃ t, exec (.modeRequest n) s = .next t ∧ t.fget F.TIM_MODE_REQ_TSET = n.toNat ∧
      s.regsBut t [R.TIM_MODE_REQ, R.TIM_MODE_STAT] ∧
      t = { s with regs := t.regs, cyc := t.cyc, lyr := t.lyr, cas := t.cas } ∧
      (s.isHead = false → t.lyr = s.lyr ∧ t.fget F.TIM_MODE_STAT_RESULT = 2) ∧
      (s.isHead = true → n.toNat = s.activeSet → t.lyr = s.lyr ∧ t.fget F.TIM_MODE_STAT_RESULT = 1) ∧
      (s.isHead = true → n.toNat ≠ s.activeSet → s.tsetValid n.toNat = false → t.lyr = s.lyr ∧ t.fget F.TIM_MODE_STAT_RESULT = 2) ∧
      (s.isHead = true → n.toNat ≠ s.activeSet → s.tsetValid n.toNat = true → s.modeBusy = true →
        t.lyr = s.lyr ∧ t.fget F.TIM_MODE_STAT_RESULT = 3) ∧
      (s.isHead = true → n.toNat ≠ s.activeSet → s.tsetValid n.toNat = true → s.modeBusy = false →
        t.lyr.mode = .waiting ∧ t.lyr.modeTarget = n.toNat ∧ t.fget F.TIM_MODE_STAT_TARGET = n.toNat ∧ t.lyr.modeSent = s.headsTree ∧
        t.askedNow R.TIM_MODE_REQ = true)

/-! Requests to the rails, the panel link, the ingest ports, the sessions and the cascade (07, 08, 09, 10 and 11). -/

/-- R176, R177, R181: UP starts the ramp of rail 0 in OFF with SAFE and no fault, and does nothing elsewhere; DOWN in UP begins the
power-down, in RUN with TIM running waits for T_(Hp+1), and in OFF does nothing; UP and DOWN together do nothing. R301: a half of a split
pair waits with its first ramp for the other half's UP, and a twin's partner hands a DOWN to its lead.
Choices of the model it rests on: log entries 29, 46. -/
def Obligations.RailRequests : Prop :=
  ∀ s : State, s.isOff R.PWD_SEQ_CTL = false →
    (s.pwd.pos = .off → s.flag F.PWD_SEQ_STAT_SAFE = true → s.rget R.PWD_FAULT = 0 → s.twinPartner = false → s.railsBarred = false →
      ∃ t, exec (.railUpRequest false) s = .next t ∧
        (s.waitsForPeer = false ∨ s.peerState = 1 ∨ s.peerState = 2 → t.pwd.pos = .ramp 0 ∧ t.pwd.started = [0]) ∧
        (s.waitsForPeer = true → s.peerState = 0 ∨ s.peerState = 3 → t.pwd.pos = .stepUp 0 ∧ t.pwd.started = []) ∧
        t.fget F.PWD_SEQ_STAT_STATE = 1 ∧ t.flag F.PWD_SEQ_STAT_SAFE = false ∧ t.flag F.PWD_SEQ_STAT_FAULT = false ∧
        .pwd ∈ t.cyc.starts ∧
        t = { s with regs := t.regs, cyc := t.cyc, pwd := t.pwd, cal := t.cal, cas := t.cas } ∧ s.regsBut t [R.PWD_SEQ_STAT]) ∧
    (s.pwd.pos ≠ .off → exec (.railUpRequest false) s = .next s) ∧
    (s.pwd.pos = .run → s.tim.run = true →
      exec (.railDownRequest false) s = .next { s with pwd := { s.pwd with downReq := true, downAt := some s.pwrCycle } }) ∧
    (s.pwd.pos.upOrRun = true → ¬ (s.pwd.pos = .run ∧ s.tim.run = true) → s.flag F.PWD_SEQ_STAT_EXT_PG = true →
      ∃ t, exec (.railDownRequest false) s = .next t ∧
        t.pwd = { s.pwd with pos := .extDown, fast := false, downReq := false, downAt := some s.pwrCycle } ∧
        t.fget F.PWD_SEQ_STAT_STATE = 3 ∧ t.flag F.PWD_SEQ_STAT_EXT_EN = false ∧
        t = { s with regs := t.regs, cyc := t.cyc, pwd := t.pwd, cas := t.cas } ∧ s.regsBut t [R.PWD_SEQ_STAT]) ∧
    (s.pwd.pos = .off → s.leadUp = false → exec (.railDownRequest false) s = .next s) ∧
    (s.pwd.pos = .off → s.leadUp = true → s.casUp 0 = true →
      exec (.railDownRequest false) s = .next (s.putCell 0 (s.ownCell .turn false 0 (s.turnWith 1 3)))) ∧
    exec (.railUpRequest true) s = .next s ∧ exec (.railDownRequest true) s = .next s

/-- R199: TRAIN with TIM stopped takes a port to training, its lanes good, and counts stay with their balls (R201); R203: FORCE on a running
port notes the named lanes as failed with cause FORCED, and on any other port does nothing.
Choices of the model it rests on: log entry 28. -/
def Obligations.PanelLinkRequests : Prop :=
  ∀ (p : Fin 8) (mask : LaneMask) (s : State), s.Shaped → s.isOff (R.PL_CTL p) = false →
    (s.tim.run = false →
      ∃ t, exec (.plTrain p) s = .next t ∧ t.fget (F.PL_STAT_STATE p) = 1 ∧ t.fget (F.PL_STAT_FAILED p) = 0 ∧
        t.plPort p = { PlPort.reset with stage := .presence } ∧ t.flag (F.PL_STAT_REVERSED p) = false ∧
        (∀ l, l < 17 → t.laneFailed p l = false ∧ t.fget (F.PL_LANE_STAT_FAILS p l) =
          s.fget (F.PL_LANE_STAT_FAILS p (if s.flag (F.PL_STAT_REVERSED p) then 16 - l else l))) ∧
        t = { s with regs := t.regs, cyc := t.cyc, pl := t.pl, cal := t.cal } ∧ (∀ q, q ≠ p.val → t.pl[q]? = s.pl[q]?) ∧
        ∀ a, a / 0x1000 ≠ 0x400 + p.val → t.rget a = s.rget a) ∧
    (s.tim.run = true → exec (.plTrain p) s = .next s) ∧
    (s.fget (F.PL_STAT_STATE p) = 3 →
      ∃ t, exec (.plForce p mask) s = .next t ∧ t = { s with pl := t.pl } ∧
        (∀ q, q ≠ p.val → t.pl[q]? = s.pl[q]?) ∧
        (∀ l, l < 17 → mask.getLsbD l = true → s.laneFailed p l = false → (l, 6) ∈ (t.plPort p).fails) ∧
        ∀ l c, l < 17 → mask.getLsbD l = false → ((l, c) ∈ (t.plPort p).fails ↔ (l, c) ∈ (s.plPort p).fails)) ∧
    (s.fget (F.PL_STAT_STATE p) ≠ 3 → exec (.plForce p mask) s = .next s)

/-- R217, R218, R234: enabling an OFF port starts lane lock; a port whose eight lanes lock within the skew, their ALIGN blocks naming this
port, each lane once and one count, is UP, and one whose ALIGN blocks name another port, one lane twice or several counts stays; RETRAIN
and loss of sync take it DOWN, discarding what is received and not processed; disabling turns it OFF. In HALTED and RECOVERY enabling has
no effect (R377).
Choices of the model it rests on: log entries 23, 30. -/
def Obligations.IngestPortStates : Prop :=
  ∀ (p : Fin 2) (lanes : List LaneAlign) (bad : List Nat) (s : State), s.Shaped → s.isOff (R.ING_CTL p) = false →
    (s.boot.state = 7 ∨ s.boot.state = 8 → exec (.ingEnable p true) s = .next s) ∧
    (s.boot.state ≠ 7 → s.boot.state ≠ 8 → s.fget (F.ING_STAT_STATE p) = 0 →
      ∃ t, exec (.ingEnable p true) s = .next t ∧ t.fget (F.ING_STAT_STATE p) = 1 ∧ t.flag (F.ING_CTL_EN p) = true ∧
        s.regsOnly t [R.ING_CTL p, R.ING_STAT p]) ∧
    (∃ t, exec (.ingEnable p false) s = .next t ∧ t.fget (F.ING_STAT_STATE p) = 0) ∧
    (s.flag (F.ING_CTL_EN p) = true → (s.fget (F.ING_STAT_STATE p) = 1 ∨ s.fget (F.ING_STAT_STATE p) = 3) →
      lanes.length = 8 → (lanes.map (fun l => l.logical)).Nodup → (∀ l ∈ lanes, l.skew.toNat ≤ 64) → (∀ l ∈ lanes, l.port = p) →
      (∀ l ∈ lanes, ∀ k ∈ lanes, l.count = k.count) →
      ∃ t, exec (.ingPortUp p lanes) s = .next t ∧ t.fget (F.ING_STAT_STATE p) = 2 ∧ t.fget (F.ING_STAT_LOCKED p) = 0xFF ∧
        t.pendingEvt 7 = true ∧ t.ports = s.ports ∧ t.hbm = s.hbm ∧ t.slots = s.slots) ∧
    (((∃ l ∈ lanes, l.port ≠ p) ∨ (∃ l ∈ lanes, ∃ k ∈ lanes, l.count ≠ k.count) ∨ ¬ (lanes.map (fun l => l.logical)).Nodup) →
      exec (.ingPortUp p lanes) s = .next s) ∧
    (s.flag (F.ING_CTL_EN p) = true → s.portUp p = true →
      ∃ t, exec (.ingRetrain p) s = .next t ∧ t.fget (F.ING_STAT_STATE p) = 3 ∧ (t.port p).held = [] ∧ t.pendingEvt 7 = true) ∧
    (s.portUp p = true →
      ∃ t, exec (.ingPortDown p bad) s = .next t ∧ t.fget (F.ING_STAT_STATE p) = 3 ∧ (t.port p).held = [] ∧ t.pendingEvt 7 = true)

/-- R261: KILL closes every attachment. R264: FAILOVER closes the primary, where a KEYED standby stands by, and promotes it; with no
KEYED standby it does nothing. R272: in the cycle of a failover that a keepalive expiry or a HANDOVER has brought there is the one
failover, and the former primary's CLOSE gives HOST.
Choices of the model it rests on: log entry 2. -/
def Obligations.SessionRequests : Prop :=
  ∀ s : State, s.isOff R.SES_CTL = false →
    (∃ t, exec .sesKill s = .next t ∧ ∀ a ∈ t.ses.atts, a.state = .closed) ∧
    (s.standby = none → s.ses.failAt ≠ some s.clock → exec .sesFailover s = .next s) ∧
    (s.standby = none → s.ses.failAt = some s.clock →
      ∃ t, exec .sesFailover s = .next t ∧ t = { s with ports := t.ports, ses := { s.ses with closeInfo := t.ses.closeInfo } } ∧
        ∀ i a p seq, s.att i = some a → a.closing = some (p, seq) → a.isPrimary = true → p ∈ a.ports → p < s.ses.closeInfo.length →
          (∀ u ∈ (s.port p).unacked, u.pkt.hdr.seq = seq → u.firstAt = s.ageNs) →
          ((s.ses.closeInfo.getD p (0, 0)).1 = CloseReason.timeout.code ∨ (s.ses.closeInfo.getD p (0, 0)).1 = CloseReason.handover.code) →
          (∀ j b, s.att j = some b → b.closing.isSome = true → b.isPrimary = true → j = i) →
          t.ses.closeInfo.getD p (0, 0) = (CloseReason.host.code, 0) ∧
          ∀ u ∈ (t.port p).unacked, u.pkt.hdr.ty = PType.close.code → u.pkt.hdr.seq = seq →
            byteAt u.pkt.hdr.tsf 0 = CloseReason.host.code) ∧
    (∀ i j, s.standby = some j → s.primary = some i → i ≠ j →
      ∃ t, exec .sesFailover s = .next t ∧ ((t.att i).map Att.state) = some .closed ∧ ((t.att j).map Att.role) = some .promoted)

/-- R281, R304: ENUM on an enabled head that is not enumerating takes number 0 and level 0 and awaits the first of its downstream ports
that is UP, or, with none UP, is done as a tree of one; on a follower, on a head that is not enabled and during an enumeration it does
nothing. R285: a time to set is kept on the head for the next latch instant, and a follower ignores it.
Choices of the model it rests on: log entries 45, 46. -/
def Obligations.CascadeRequests : Prop :=
  ∀ (lo : W32) (s : State), s.isOff R.CAS_CTL = false →
    (s.isHead = true → s.flag F.CAS_CTL_EN = true → s.enumerating = false →
      ∃ t, exec .casEnum s = .next t ∧ t.fget F.CAS_NUM_NUM = 0 ∧ t.flag F.CAS_NUM_VALID = true ∧ t.fget F.CAS_STAT_LEVEL = 0 ∧
        (∀ k, k < 4 → s.casUp (k + 1) = true → (∀ j, j < k → s.casUp (j + 1) = false) →
          t.cas.enum = some ⟨1, k, false⟩ ∧ t.flag F.CAS_STAT_ENUM_BUSY = true) ∧
        ((∀ k, k < 4 → s.casUp (k + 1) = false) → t.cas.enum = none ∧ t.fget F.CAS_STAT_SUBTREE = 1) ∧
        t.hbm = s.hbm ∧ t.lyr = s.lyr ∧ t.slots = s.slots) ∧
    (s.isHead = false ∨ s.flag F.CAS_CTL_EN = false ∨ s.enumerating = true → exec .casEnum s = .next s) ∧
    (s.isHead = true →
      ∃ t, exec (.casTimeSet lo) s = .next t ∧ s.regsBut t [R.CAS_TIME_SET_LO] ∧ t.rget R.CAS_TIME_SET_LO = lo ∧
        t = { s with regs := t.regs, cyc := t.cyc, cas := { s.cas with
          setReq := some ((s.rget R.CAS_TIME_SET_HI).toNat * 2 ^ 32 + lo.toNat) } }) ∧
    (s.isHead = false → exec (.casTimeSet lo) s = .next s)

/-! Mailboxes, job rings, power requests, resets and runs (12, 13 and 15). -/

/-- R338, R341: SEND places the composed message in box 0's empty IN unless it repeats the last one taken; a full IN refuses another
message and counts it; IN is not overwritten, and a word written while it is full is counted and lost. R366: a message placed in the cycle
that discards what IN holds is discarded with it.
Choices of the model it rests on: log entries 2, 8, 43. -/
def Obligations.HostSendsMessages : Prop :=
  ∀ (k : Fin 254) (v : W32) (s : State), s.Shaped → s.isOff R.MBX_HOST_CTL = false → s.isOff (R.MBX_IN_DATA k) = false →
    ((s.box 0).inMsg = none → (s.box 0).last ≠ some (msgKey s.hostMsg) → 0 ∈ s.cyc.cleared →
      ∃ t, exec .mbxSend s = .next t ∧ (t.box 0).inMsg = none ∧ (t.box 0).last = some (msgKey s.hostMsg) ∧
        bitOf (t.rget (R.MBX_BOX_STAT 0)).toNat 30 = true ∧ t.pendingEvt 15 = true ∧ ∀ b, b ≠ 0 → t.box b = s.box b) ∧
    ((s.box 0).inMsg = none → (s.box 0).last ≠ some (msgKey s.hostMsg) → 0 ∉ s.cyc.cleared →
      ∃ t, exec .mbxSend s = .next t ∧ (t.box 0).inMsg = some s.hostMsg ∧ (t.box 0).last = some (msgKey s.hostMsg) ∧
        (∀ b, b ≠ 0 → t.box b = s.box b) ∧ t = { s with regs := t.regs, boxes := t.boxes, pwr := t.pwr } ∧
        s.regsBut t [R.PWR_STATE_STAT]) ∧
    ((s.box 0).inMsg.isSome = true → (s.box 0).last ≠ some (msgKey s.hostMsg) →
      ∃ t, exec .mbxSend s = .next t ∧ t.cyc.turned = s.cyc.turned ++ [(0, 0, s.hostMsg)] ∧
        s.fieldOnly t (F.MBX_BOX_STAT_FULLREF 0) (min (s.fget (F.MBX_BOX_STAT_FULLREF 0) + 1) 255)) ∧
    ((s.box 0).last = some (msgKey s.hostMsg) →
      ∃ t, exec .mbxSend s = .next t ∧ s.fieldOnly t (F.MBX_BOX_STAT_DUP 0) (min (s.fget (F.MBX_BOX_STAT_DUP 0) + 1) 255)) ∧
    ((s.box 0).inMsg = none →
      ∃ t, exec (.mbxInDataWrite k v) s = .next t ∧ t.rget (R.MBX_IN_DATA k) = v ∧ s.regsOnly t [R.MBX_IN_DATA k]) ∧
    ((s.box 0).inMsg.isSome = true →
      ∃ t, exec (.mbxInDataWrite k v) s = .next t ∧
        s.fieldOnly t (F.MBX_BOX_STAT_FULLREF 0) (min (s.fget (F.MBX_BOX_STAT_FULLREF 0) + 1) 255))

/-- R340, R342: DONE clears box 0's OUT with the outcome DELIVERED, a host restart with DISCARDED; on an empty OUT they do nothing.
Choices of the model it rests on: log entry 1. -/
def Obligations.HostTakesMessages : Prop :=
  ∀ s : State, s.Shaped → s.isOff R.MBX_HOST_CTL = false →
    ((s.box 0).outMsg.isSome = true →
      (∃ t, exec .mbxDone s = .next t ∧ (t.box 0).outMsg = none ∧ s.fieldOnly { t with boxes := s.boxes } (F.MBX_BOX_STAT_OUT_RES 0) 1 ∧
        ∀ b, b ≠ 0 → t.box b = s.box b) ∧
      (∃ t, exec .mbxHostReset s = .next t ∧ (t.box 0).outMsg = none ∧
        s.fieldOnly { t with boxes := s.boxes } (F.MBX_BOX_STAT_OUT_RES 0) 4 ∧ ∀ b, b ≠ 0 → t.box b = s.box b)) ∧
    ((s.box 0).outMsg = none → exec .mbxDone s = .next s ∧ exec .mbxHostReset s = .next s)

/-- R353: a TAIL that leaves no more descriptors than the ring holds is taken, any other counted in TAILREF and kept for a HEAD that
advances in the same cycle (R366). R354: a BASE written to a stopped ring, or to one started in the same cycle (R10), empties it and clears
its record of job ids; on a running one it is refused and counted, and kept for a stop of the same cycle.
Choices of the model it rests on: log entries 2, 8. -/
def Obligations.JobRingWrites : Prop :=
  ∀ (r : Fin 8) (tail : BitVec 16) (base : BitVec 29) (s : State),
    s.Shaped → s.isOff (R.JOB_RING_TAIL r) = false → s.isOff (R.JOB_RING_BASE r) = false →
    ((tail.toNat + 65536 - s.fget (F.JOB_RING_HEAD_HEAD r)) % 65536 ≤ s.ringSize r →
      ∃ t, exec (.jobTailWrite r tail) s = .next t ∧ s.fieldOnly t (F.JOB_RING_TAIL_TAIL r) tail.toNat) ∧
    (s.ringSize r < (tail.toNat + 65536 - s.fget (F.JOB_RING_HEAD_HEAD r)) % 65536 →
      ∃ t, exec (.jobTailWrite r tail) s = .next t ∧ t.cyc.tails = s.cyc.tails ++ [(r.val, tail.toNat)] ∧
        s.fieldOnly t (F.JOB_RING_CFG_TAILREF r) (min (s.fget (F.JOB_RING_CFG_TAILREF r) + 1) 255)) ∧
    (s.ringStopped r = true ∨ .jobRing r ∈ s.cyc.starts →
      ∃ t, exec (.jobBaseWrite r base) s = .next t ∧ t.fget (F.JOB_RING_BASE_BASE r) = base.toNat ∧
        t.fget (F.JOB_RING_HEAD_HEAD r) = 0 ∧ t.fget (F.JOB_RING_TAIL_TAIL r) = 0 ∧ (t.jring r).ids = [] ∧
        (∀ q, q ≠ r.val → t.jobs.rings[q]? = s.jobs.rings[q]?) ∧ t = { s with regs := t.regs, jobs := t.jobs } ∧
        s.regsBut t [R.JOB_RING_BASE r, R.JOB_RING_HEAD r, R.JOB_RING_TAIL r]) ∧
    (s.ringStopped r = false → .jobRing r.val ∉ s.cyc.starts →
      ∃ t, exec (.jobBaseWrite r base) s = .next t ∧ t.cyc.refused = s.cyc.refused ++ [(R.JOB_RING_BASE r, base.toNat)] ∧
        s.fieldOnly t F.CHIP_WRITE_REFUSED_COUNT (min (s.fget F.CHIP_WRITE_REFUSED_COUNT + 1) 0xFFFFFFFF))

/-- R405: a request for RUN is refused while CRIT or TRIP holds; a request for the present state with no step in progress has no
effect; any other becomes the target, toward which the device moves once no step is in progress.
Choices of the model it rests on: log entry 64. -/
def Obligations.PowerStateRequests : Prop :=
  ∀ (n : BitVec 2) (s : State), s.isOff R.PWR_STATE_REQ = false →
    ∃ t, exec (.pwrStateGo n) s = .next t ∧ t.fget F.PWR_STATE_REQ_TARGET = n.toNat ∧ t.fget F.PWR_STATE_STAT_WAKE = 1 ∧
      t = { s with regs := t.regs, pwr := t.pwr } ∧ s.regsBut t [R.PWR_STATE_REQ, R.PWR_STATE_STAT] ∧
      t.pstate = s.pstate ∧
      (n = 0 → s.runRefused = true → t.fget F.PWR_STATE_STAT_RESULT = 2 ∧ t.pwr = s.pwr) ∧
      (¬ (n = 0 ∧ s.runRefused = true) → n.toNat = s.pstate → s.pwr.due = none → s.pwr.going = none →
        t.fget F.PWR_STATE_STAT_RESULT = 1 ∧ t.pwr = s.pwr) ∧
      (¬ (n = 0 ∧ s.runRefused = true) → ¬ (n.toNat = s.pstate ∧ s.pwr.due = none ∧ s.pwr.going = none) →
        t.fget F.PWR_STATE_STAT_RESULT = 0 ∧ t.fget F.PWR_STATE_STAT_TARGET = n.toNat ∧
        (s.pwr.due = none → s.pwr.going = none → t.pwr = { s.pwr with due := chainNext s.pstate n.toNat }))

/-- R400, R401, R394: a pin reset, a warm reset and, in RUN and IDLE, the loss of REF reset the core domains: no session, no slot, no job
and no register of theirs is left, the classes' causes and restart points differ, and memory, flash and fuses stay. A core that waits is
released once SAFE holds, for step 1 or step 4.
Choices of the model it rests on: log entries 3, 5, 63. -/
def Obligations.ResetsClearTheCore : Prop :=
  ∀ s : State, s.pwr.por = false → s.pwr.tripped = false →
    (s.pwr.restart = none → ∀ c last step,
      (c, last, step) ∈ [(Instr.pinReset, 1, 1), (Instr.warmReset, 2, 4)] ∨
        (c = Instr.refLoss ∧ last = 3 ∧ step = 4 ∧ s.flag F.CLK_STAT_REF_OK = true ∧ s.pstate ≤ 1) →
      ∃ t, exec c s = .next t ∧ t.fget F.PWR_RESET_STAT_LAST = last ∧ t.pwr.restart = some step ∧ t.pwr.core = false ∧
        t.ses = Ses.reset ∧ t.slots = [Slot.empty, Slot.empty, Slot.empty] ∧ t.jobs = Jobs.reset ∧ t.syn = Syn.reset ∧
        (∀ a, resetKeeps a = false → a ≠ R.CAS_STAT → t.rget a = regReset a) ∧
        t.hbm = s.hbm ∧ t.nor = s.nor ∧ t.fuses = s.fuses) ∧
    (∀ r, s.pwr.restart = some r → s.flag F.PWD_SEQ_STAT_SAFE = true →
      ∃ t, exec .coreResetRelease s = .next t ∧ t.pwr.restart = none ∧ t.fget F.NVM_BOOT_STAT_STEP = (if r ≤ 1 then 1 else 4) ∧
        t.pwr.core = (if r ≤ 1 then s.pwr.core else true) ∧ t.flag F.CLK_STAT_REF_OK = true)

/-- R400, R415, R424, R447: POR clears the machine to its reset state but for flash, eMMC, fuses, straps and a discharge under way; its
release samples the straps and begins step 1, in which CORE_SUP_EN goes high (R408), or, where RESET_N has been low since, waits for it; a
pin reset while POR is asserted is no reset; a trip holds the core in reset in TRIPPED.
Choices of the model it rests on: log entries 3, 5, 6, 62, 63. -/
def Obligations.PowerOnResetAndTrip : Prop :=
  ∀ (head a1 a0 : Bool) (s : State),
    (∃ t, exec .porAssert s = .next t ∧ t.pwr = Pwr.reset ∧ t.ses = Ses.reset ∧ t.hbm = [] ∧ t.cas = Cas.reset ∧
      t.nor = s.nor ∧ t.emmc = s.emmc ∧ t.fuses = s.fuses ∧
      t = { State.reset with pending := s.pending, free := t.free, clock := t.clock, rdata := t.rdata, fuses := s.fuses, nor := s.nor,
                             emmc := s.emmc, straps := s.straps, regs := t.regs, pwd := t.pwd } ∧
      ∀ a, ¬ (0x500000 ≤ a ∧ a < 0x510000) → t.rget a = regReset a) ∧
    (s.pwr.por = true →
      exec .pinReset s = .next { s with pwr := { s.pwr with resetLow := true } } ∧
      ∃ t, exec (.porRelease head a1 a0) s = .next t ∧ t.straps = ⟨head, a1, a0⟩ ∧ t.pwr.por = false ∧ t.isHead = head ∧
        t.hbm = s.hbm ∧ t.nor = s.nor ∧
        (s.pwr.resetLow = false → t.pwr.restart = none ∧ t.pwr.supEn = true ∧ t.fget F.NVM_BOOT_STAT_STEP = 1) ∧
        (s.pwr.resetLow = true → t.pwr.restart = some 1 ∧ t.pwr.supEn = s.pwr.supEn ∧ t.boot = s.boot)) ∧
    (s.pwr.por = false → s.pwr.tripped = false →
      ∃ t, exec .thermalTrip s = .next t ∧ t.pstate = 4 ∧ t.pwr.tripped = true ∧ t.pwr.core = false ∧
        t.flag F.CAL_THERM_STAT_TRIPPED = true ∧ t.pendingEvt 21 = true ∧ t.ses = Ses.reset)

/-- R402: each block reset returns the registers of its block to their reset values (of CAS, all but CAS_STAT). That of an ingest port takes
an UP port down and empties its packet layer, whose numbers begin at 0; that of CAS empties the event records, ends an enumeration and puts
a follower in HOLDOVER; that of JOB empties every ring; that of PL takes every port to its reset state, and is refused while TIM runs and in
a mode change; that of NVM ends a map load. Those of JOB and PL change no other register than the count of flushed crossings.
Choices of the model it rests on: log entries 28, 63. -/
def Obligations.BlockResets : Prop :=
  ∀ (p : Fin 2) (s : State), s.Shaped → s.pwr.por = false →
    (∃ t, exec (.blockResetIng p) s = .next t ∧
      (∀ a, a / 0x10000 = 0x10 + p.val → t.rget a = regReset a) ∧ (t.port p).held = [] ∧ (t.port p).rxNext = 0 ∧
      (t.port p).txNext = 0 ∧ (t.port p).unacked = [] ∧ (t.port p).waiting = [] ∧ t.fuses = s.fuses ∧ t.nor = s.nor ∧ t.hbm = s.hbm) ∧
    (∃ t, exec .blockResetCas s = .next t ∧
      (∀ a, a / 0x10000 = 0x14 → a ≠ R.CAS_STAT → t.rget a = regReset a) ∧
      (s.straps.head = false → t.fget F.CAS_STAT_STATE = 4) ∧ t.cas.fifo = [] ∧ t.cas.enum = none ∧ t.fuses = s.fuses ∧ t.nor = s.nor ∧
        t.hbm = s.hbm) ∧
    (∃ t, exec .blockResetJob s = .next t ∧ t.jobs = Jobs.reset ∧
      (∀ a, a / 0x10000 = 6 → t.rget a = regReset a) ∧
      (∀ a, a / 0x10000 ≠ 6 → a ≠ R.CLK_XING_STAT → t.rget a = s.rget a) ∧ t.hbm = s.hbm ∧ t.slots = s.slots) ∧
    (s.tim.run = false → s.modeQuiet = false →
      ∃ t, exec .blockResetPl s = .next t ∧ t.pl = List.replicate 8 PlPort.reset ∧
        (∀ a, 0x400000 ≤ a → a < 0x408000 → t.rget a = regReset a) ∧
        (∀ a, (a < 0x400000 ∨ 0x408000 ≤ a) → a ≠ R.CLK_XING_STAT → t.rget a = s.rget a) ∧
        t = { s with regs := t.regs, cyc := t.cyc, pl := t.pl }) ∧
    (s.tim.run = true ∨ s.modeQuiet = true →
      ∃ t, exec .blockResetPl s = .next t ∧
        s.fieldOnly t F.CHIP_WRITE_REFUSED_COUNT (min (s.fget F.CHIP_WRITE_REFUSED_COUNT + 1) 0xFFFFFFFF)) ∧
    (∃ t, exec .blockResetNvm s = .next t ∧ t.heath.mapLoad = none ∧ (∀ a, a / 0x10000 = 7 → t.rget a = regReset a) ∧
      (s.heath.ledgerSave = none → t.nor = s.nor ∧ t.emmc = s.emmc ∧ t.hbm = s.hbm))

/-- R416, R417, R420, R319: a calibration run asked for in RUN or IDLE, outside a step toward STANDBY or DEEP, waits to start, or queues
behind one that runs; asked for elsewhere it has no effect; at its start it latches
Tj; at its end it counts, raises CAL_RUN and starts the queued one. Memory training starts where DRV is stopped.
Choices of the model it rests on: log entry 67. -/
def Obligations.CalibrationRuns : Prop :=
  ∀ s : State, s.isOff R.CAL_CTL = false →
    (s.calAllowed = false → exec .calGo s = .next s) ∧
    (s.calAllowed = true → s.flag F.CAL_STAT_RUNNING = false →
      ∃ t, exec .calGo s = .next t ∧ s.fieldOnly { t with cal := s.cal } F.CAL_STAT_RUNNING 1 ∧ t.cal = { s.cal with starting := true }) ∧
    (s.calAllowed = true → s.flag F.CAL_STAT_RUNNING = true →
      ∃ t, exec .calGo s = .next t ∧ s.fieldOnly t F.CAL_STAT_QUEUED 1) ∧
    (s.cal.starting = true →
      ∃ t, exec .calRunStart s = .next t ∧ s.fieldOnly { t with cal := s.cal } F.CAL_STAT_TJ_RUN (s.fget F.CAL_TJ_TJ) ∧
        t.cal.starting = false) ∧
    (s.flag F.CAL_STAT_RUNNING = true → s.cal.starting = false →
      ∃ t, exec .calRunEnd s = .next t ∧ t.fget F.CAL_STAT_RUNS = min (s.fget F.CAL_STAT_RUNS + 1) 255 ∧ t.pendingEvt 20 = true ∧
        t.flag F.CAL_STAT_RUNNING = s.flag F.CAL_STAT_QUEUED ∧ t.flag F.CAL_STAT_QUEUED = false ∧
        s.regsBut t (R.CAL_STAT :: evtRegs 20) ∧ t.hbm = s.hbm ∧ t.pl = s.pl) ∧
    (s.isOff R.MPHY_TRAIN_CTL = false → s.flag F.DRV_CTL_RUN = false → s.coreRuns = true →
      ∃ t, exec .mphyTrainGo s = .next t ∧ s.fieldOnly t F.MPHY_TRAIN_STAT_STATE 1)


/-! Packets, the handshake and the session (09 and 10). -/

/-- R219, R221, R230: the bytes of a packet as the device sends it are received as that packet, whatever its fields hold. -/
def Obligations.PacketRoundTrip : Prop := ∀ k : Pkt, k.wf → framePkt k.encode = .ok k

/-- R230: a packet on a port that is not UP is not received; one too short counts FRAME, one whose CRC fails CRC; one received before
counts DUP and draws an ACK of NEXT; one outside the window counts WINDOW and draws a WINDOW entry with NEXT. A HELLO with SEQ 0 on a
free port begins the window at 0 and is taken into it (R260), but a bond HELLO whose tag fails is not received and draws RESEND
(R253).
Choices of the model it rests on: log entry 23. -/
def Obligations.PacketsPassTheChecks : Prop :=
  ∀ (p : Fin 2) (bytes : List Byte) (s : State), s.Shaped →
    (s.portUp p = false → exec (.packetReceive p bytes) s = .next s) ∧
    (s.portUp p = true → bytes.length < 36 →
      ∃ t, exec (.packetReceive p bytes) s = .next t ∧
        s.fieldOnly t (F.ING_DROP_CNT_FRAME p) (min (s.fget (F.ING_DROP_CNT_FRAME p) + 1) 255)) ∧
    (s.portUp p = true → framePkt bytes = .badCrc →
      ∃ t, exec (.packetReceive p bytes) s = .next t ∧
        s.fieldOnly t (F.ING_DROP_CNT_CRC p) (min (s.fget (F.ING_DROP_CNT_CRC p) + 1) 255)) ∧
    ∀ k, s.portUp p = true → framePkt bytes = .ok k → k.hdr.unseq = false →
      (∀ i a, s.attOf p = some i → s.att i = some a → a.state ≠ .closed → (s.port p).already k.hdr.seq = true →
        ∃ t, exec (.packetReceive p bytes) s = .next t ∧
          s.fieldOnly { t with ports := s.ports } (F.ING_DROP_CNT_DUP p) (min (s.fget (F.ING_DROP_CNT_DUP p) + 1) 255) ∧
          (t.port p).held = (s.port p).held ∧ (t.port p).rxNext = (s.port p).rxNext ∧ (t.port p).uncovered = 0 ∧
          ∃ w, (t.port p).wire = (s.port p).wire ++ [w] ∧ w.hdr.ty = 0x30 ∧ w.hdr.tsf.take 4 = leBytes 4 (s.port p).rxNext) ∧
      (∀ i a, s.attOf p = some i → s.att i = some a → a.state ≠ .closed → (s.port p).already k.hdr.seq = false →
        4096 ≤ (s.port p).above k.hdr.seq →
        ∃ t, exec (.packetReceive p bytes) s = .next t ∧
          s.fieldOnly { t with ports := s.ports } (F.ING_DROP_CNT_WINDOW p) (min (s.fget (F.ING_DROP_CNT_WINDOW p) + 1) 255) ∧
          (t.port p).held = (s.port p).held ∧ (t.port p).rxNext = (s.port p).rxNext ∧
          s.nakSent t p k.hdr.seq 1 3 ⟨0x04, (s.port p).rxNext⟩) ∧
      (s.attOf p = none → check4 false (leAt bytes 0 4) k.hdr = true → k.hdr.ty = 0x01 → k.hdr.seq = 0 → (s.port p).held = [] →
        (byteAt k.hdr.tsf 1 ≠ 3 →
          ∃ t, exec (.packetReceive p bytes) s = .next t ∧ (t.port p).held = [(0, ⟨k, false, none⟩)] ∧ (t.port p).rxNext = 1 ∧
            (t.port p).procNext = 0 ∧ (t.port p).uncovered = 1 ∧ (∀ q, q ≠ p.val → t.ports[q]? = s.ports[q]?) ∧
            t = { s with regs := t.regs, cyc := t.cyc, ports := t.ports } ∧ s.regsBut t [R.ING_RETX_CNT p]) ∧
        ∀ i a, byteAt k.hdr.tsf 1 = 3 → s.helloCheck p (leAt bytes 0 4) k = none → s.primary = some i → s.att i = some a →
          (a.rx.find k.hdr.keyph).bind (fun u => openPkt u.2 p k) = none →
          ∃ t, exec (.packetReceive p bytes) s = .next t ∧ (t.port p).held = [] ∧ (t.port p).rxNext = (s.port p).rxNext ∧
            (t.port p).uncovered = (s.port p).uncovered ∧ s.nakSent t p k.hdr.seq 1 1 ⟨0x03, 0⟩ ∧
            s.fieldOnly { t with ports := s.ports } (F.ING_NAK_CNT_AUTHTAG p) (min (s.fget (F.ING_NAK_CNT_AUTHTAG p) + 1) 255))

/-- R246, R247, R248: an accepted HELLO of a primary opens a session with an id that is not 0 and not one of the 16 before it, and an
attachment in HELLO. R247, R250, R251, R261: in HELLO, a CERT fragment and a KEYSHARE that leave step 3 incomplete are kept, and a fragment
that does not fit is noted as the chain's cause 1; a key share of the wrong length, or a signature that fails, counts KEYFAIL and closes;
with the chain and the signature verified the attachment is in AUTH, its ephemeral key erased (R254). In other states CERT and KEYSHARE have
no effect. R252: in AUTH the right FINISH makes it KEYED, and a message that a reset left in its box's OUT goes out; another counts FINFAIL
and closes; elsewhere FINISH has no effect.
Choices of the model it rests on: log entries 10, 11, 24, 43. -/
def Obligations.HandshakeSteps : Prop :=
  ∀ (p : Fin 2) (page : EccResult) (s : State) (h : HeldPkt), s.Shaped → page ≠ .uncorrectable →
    (s.headOf p .hello = some h → s.attOf p = none → s.ses.recent.length ≤ 16 → byteAt h.pkt.hdr.tsf 1 = 1 →
      s.helloCheck p (leAt h.pkt.hdr.encode 0 4) h.pkt = none →
      ∃ t, exec (.hello p page) s = .next t ∧ t.ses.active = true ∧ t.ses.sid ≠ 0 ∧ t.ses.sid ∉ s.ses.recent ∧
        t = { s with regs := t.regs, cyc := t.cyc, ports := t.ports, ses := t.ses, free := t.free } ∧ s.regsBut t [R.SWD_ECC_CNT] ∧
        ∃ a, t.ses.atts = s.ses.atts ++ [a] ∧ a.ports = [p.val] ∧ a.role = .primary ∧ a.state = .hello ∧ a.sid = t.ses.sid ∧
          a.nonceS = h.pkt.payload ∧ a.keyed = false) ∧
    ∀ i a, s.attOf p = some i → s.att i = some a → a.state ≠ .closed →
      (s.headOf p .cert = some h → a.state = .hello → a.keyshare = none →
        let f : CertFrag := ⟨byteAt h.pkt.hdr.tsf 0, byteAt h.pkt.hdr.tsf 1, leAt h.pkt.hdr.tsf 4 2, leAt h.pkt.hdr.tsf 6 2, h.pkt.payload⟩
        1 ≤ f.count → f.count ≤ 4 → f.index < f.count → 1 ≤ f.clen → f.clen ≤ 8192 → f.offset % 4096 = 0 → f.offset < f.clen →
        f.bytes.length = min 4096 (f.clen - f.offset) →
        (∀ c ∈ a.certs, c.count = f.count ∧ (c.index = f.index → c.clen = f.clen)) →
        ∃ t, exec (.cert p page) s = .next t ∧ t = { s with regs := t.regs, cyc := t.cyc, ports := t.ports, ses := t.ses } ∧
          s.regsBut t [R.SWD_ECC_CNT] ∧
          t.att i = some { a with certs := a.certs.filter (fun c => !(c.index == f.index && c.offset == f.offset)) ++ [f] }) ∧
      (s.headOf p .cert = some h → a.state = .hello → a.keyshare = none → byteAt h.pkt.hdr.tsf 1 = 0 →
        ∃ t, exec (.cert p page) s = .next t ∧ t = { s with regs := t.regs, cyc := t.cyc, ports := t.ports, ses := t.ses } ∧
          s.regsBut t [R.SWD_ECC_CNT] ∧ (t.att i).map Att.state = some .hello ∧
          (t.att i).map Att.certBad = some (some (a.certBad.getD (byteAt h.pkt.hdr.tsf 0)))) ∧
      (a.state ≠ .hello → (s.headOf p .cert = some h →
          exec (.cert p page) s = .next ((s.passHead p).swardRead page).2) ∧
        (s.headOf p .keyshare = some h → exec (.keyshare p page) s = .next ((s.passHead p).swardRead page).2)) ∧
      (s.headOf p .keyshare = some h → a.state = .hello → h.pkt.payload.length ≠ 193 →
        ∃ t, exec (.keyshare p page) s = .next t ∧ t.fget F.SES_ERR_CNT_KEYFAIL = min (s.fget F.SES_ERR_CNT_KEYFAIL + 1) 255 ∧
          (t.att i).map Att.state = some .closed ∧ s.keepsBase t) ∧
      (s.headOf p .keyshare = some h → a.state = .hello → h.pkt.payload.length = 193 →
        ∃ t, exec (.keyshare p page) s = .next t ∧ s.keepsBase t ∧
          let valid := Config.ecPointValid (h.pkt.payload.take 97)
          let failed := fun f => (t.att i).map Att.state = some .closed ∧ t.fget f = min (s.fget f + 1) 255
          (valid = false → failed F.SES_ERR_CNT_KEYFAIL) ∧
          (valid = true → a.chain = none → t = { s with regs := t.regs, cyc := t.cyc, ports := t.ports, ses := t.ses } ∧
            s.regsBut t [R.SWD_ECC_CNT] ∧ t.att i = some { a with keyshare := some h.pkt.payload, ksSeq := h.pkt.hdr.seq }) ∧
          ∀ chain, a.chain = some chain → valid = true →
            ((s.chainCheck a.certBad chain).1 ≠ 0 → failed F.SES_ERR_CNT_CERTFAIL) ∧
            (∀ k, a.certBad = some k → s.chainCheck a.certBad chain = (1, k)) ∧
            ((s.chainCheck a.certBad chain).1 = 0 →
              let a1 := { a with items := a.items ++ [(4, a.certItem), (5, leBytes 12 0 ++ h.pkt.payload)] }
              let signed := ascii "CHN8200 sign s" ++ sha384Bytes (a1.transcript 4 ++ (a1.item 5).take 97)
              let ok := Config.ecdsaVerify (Config.leafKey (chain.headD [])) signed (h.pkt.payload.drop 97)
              (ok = true → (t.att i).map Att.state = some .auth ∧ (t.att i).map Att.keyed = some a.keyed ∧
                (t.att i).map Att.priv = some 0) ∧
              (ok = false → failed F.SES_ERR_CNT_KEYFAIL))) ∧
      (s.headOf p .finish = some h → a.state ≠ .auth → exec (.finish p page) s = .next ((s.passHead p).swardRead page).2) ∧
      (s.headOf p .finish = some h → a.state = .auth → h.pkt.payload = a.finS → a.role ≠ .standby →
        ∃ t, exec (.finish p page) s = .next t ∧ (t.att i).map Att.state = some .keyed ∧ (t.att i).map Att.keyed = some true ∧
          t = { s with regs := t.regs, cyc := t.cyc, ports := t.ports, ses := t.ses } ∧ s.regsBut t [R.SWD_ECC_CNT] ∧
          ((s.box a.box).outMsg = none → t.att i = some { a with state := .keyed, keyed := true }) ∧
          ((s.box a.box).outMsg.isSome = true → s.sendPort a = p.val → (s.port p).unacked.length < 256 → (s.port p).waiting = [] →
            ∃ w, (t.port p).wire = (s.port p).wire ++ [w] ∧ w.hdr.ty = PType.mail.code ∧ w.hdr.tsf = padTo 12 (messageTsf a.box))) ∧
      (s.headOf p .finish = some h → a.state = .auth → h.pkt.payload ≠ a.finS →
        ∃ t, exec (.finish p page) s = .next t ∧ t.fget F.SES_ERR_CNT_FINFAIL = min (s.fget F.SES_ERR_CNT_FINFAIL + 1) 255 ∧
          (t.att i).map Att.state = some .closed ∧ s.keepsBase t)

/-- R105, R107: a DECLARE that fails a check is refused and changes no slot; one for a FREE slot makes it FILLING with that declaration; one
with RELEASE returns a FILLING slot to FREE. R225, R62: the fragment that completes a block stores it, where R62 passes it, and refuses and
counts it where not. R228: an OVERLAY packet writes its pixels at their place and marks its chunks. R229: a FENCE packet updates its fence.
Choices of the model it rests on: log entries 22, 25. -/
def Obligations.PictureProcessing : Prop :=
  ∀ (p : Fin 2) (page ring : EccResult) (s : State) (h : HeldPkt) (i : Nat) (a : Att), s.Shaped → page ≠ .uncorrectable →
    ring ≠ .uncorrectable → s.attOf p = some i → s.att i = some a →
    let o := h.pkt.hdr
    (s.headOf p .declare = some h →
      let u := ((s.passHead p).swardRead page).2
      let b := h.pkt.payload
      (∀ n, (u.declProcess b).1 = some n →
        ∃ t, exec (.declare p page) s = .next t ∧ 0x20 ≤ n.reason ∧ n.reason ≤ 0x23 ∧ s.nakSent t p o.seq 1 2 n ∧
          t = { s with regs := t.regs, cyc := t.cyc, ports := t.ports } ∧ s.regsBut t [R.SWD_ECC_CNT]) ∧
      ((u.declProcess b).1 = none → bitOf (byteAt b 6) 0 = false → s.slotCode (byteAt b 0) = 1 →
        ∃ t, exec (.declare p page) s = .next t ∧ (t.slot (byteAt b 0)).phase = .filling ∧
          (t.slot (byteAt b 0)).decl = some (readDecl b) ∧ (t.slot (byteAt b 0)).sid = s.ses.sid ∧
          (t.slot (byteAt b 0)).units = 0 ∧
          (t.att i).map Att.state = some (if a.state = .keyed then .declared else a.state) ∧ t.hbm = s.hbm ∧ t.asms = s.asms ∧
          (∀ n, n ≠ byteAt b 0 → (t.slot n).phase = (s.slot n).phase ∧ (t.slot n).decl = (s.slot n).decl) ∧
          s.regsBut t [R.SWD_ECC_CNT] ∧ s.keepsBase t) ∧
      ((u.declProcess b).1 = none → bitOf (byteAt b 6) 0 = true → s.isFilling (byteAt b 0) = true →
        ∃ t, exec (.declare p page) s = .next t ∧ t.slot (byteAt b 0) = Slot.empty ∧ t.hbm = s.hbm ∧ s.keepsBase t)) ∧
    (s.headOf p .block = some h →
      let b := readBlkTsf o.tsf
      (s.isFilling b.slot = false →
        ∃ t, exec (.block p page ring) s = .next t ∧ s.nakSent t p o.seq 1 2 ⟨0x21, s.slotStateCtx b.slot⟩ ∧
          t = { s with ports := t.ports }) ∧
      ∀ x, s.isFilling b.slot = true → s.asmAt b = some x → some x.version = h.joined →
        (∀ k, k < ceilDiv x.blen 4096 → x.frags.any (fun f => f.offset == 4096 * k && (f.counted || 4096 * k == b.offset)) = true) →
        (s.blockCheck { b with blen := x.blen } x.head x.hasSpace false false = none →
          ∃ t, exec (.block p page ring) s = .next t ∧ t.asmAt b = none ∧ t.hbm = s.hbm ∧
            bitOf ((t.slot b.slot).ring b.ring).rcvd b.col = true ∧
            ((readBlockHdr x.head).zero = false → (t.slot b.slot).storedHdr b.ring b.col = some (readBlockHdr x.head)) ∧ s.keepsBase t) ∧
        ∀ r, s.blockCheck { b with blen := x.blen } x.head x.hasSpace false false = some r →
          ∃ t, exec (.block p page ring) s = .next t ∧ t.asmAt b = none ∧ s.nakSent t p o.seq 1 2 ⟨r, b.ctx⟩ ∧ t.hbm = s.hbm ∧
            (t.slot b.slot).dir = (s.slot b.slot).dir ∧ (t.slot b.slot).units = (s.slot b.slot).units ∧
            ((t.slot b.slot).ring b.ring).rcvd = ((s.slot b.slot).ring b.ring).rcvd ∧
            t.fget (refusedFld r) = min (s.fget (refusedFld r) + 1) 255 ∧ s.keepsBase t) ∧
    (s.headOf p .overlay = some h →
      let v := readOvlTsf o.tsf
      ∀ l, s.isFilling v.slot = true → (s.slot v.slot).overlayOf v.ovl = some l → (s.isHead = true ∨ s.bovlChan v.ovl = none) →
        v.row < l.place.h → v.chunk + v.nch ≤ chunksOf l.place.w → v.nch ≠ 0 → v.nch ≤ (if l.ofmt = 1 then 1 else 2) →
        h.pkt.payload.length = chunkPixels l.place.w v.chunk v.nch * (if l.ofmt = 1 then 5 else 4) →
        let px := if l.ofmt = 1 then h.pkt.payload else expandPixels h.pkt.payload (chunkPixels l.place.w v.chunk v.nch)
        let at_ := s.ovlAddr v.slot v.ovl v.row (512 * v.chunk)
        s.inRegions Client.ovlWr.writes at_ px.length = true → s.ownPlaces at_ px.length →
        ∃ t, exec (.overlay p page) s = .next t ∧ t.hbmRead at_ px.length = px ∧
          (∀ m, s.apartPlaces at_ px.length m 1 → t.hbmRead m 1 = s.hbmRead m 1) ∧
          (∀ c, v.chunk ≤ c → c < v.chunk + v.nch → bitOf ((t.slot v.slot).chunkMask v.ovl v.row) c = true) ∧
          t = { s with regs := t.regs, cyc := t.cyc, ports := t.ports, slots := t.slots, hbm := t.hbm, mem := t.mem } ∧
          s.regsBut t [R.SWD_ECC_CNT]) ∧
    (s.headOf p .fence = some h → byteAt o.tsf 0 ≤ 63 → o.len = 0 → s.flag F.CAS_CTL_SYSFENCE = false →
      let n := byteAt o.tsf 0
      let v := leAt o.tsf 4 4
      ∃ t, exec (.fence p page) s = .next t ∧ t = { s with regs := t.regs, cyc := t.cyc, ports := t.ports } ∧
        s.regsBut t [R.LYR_FENCE_VAL n, R.SWD_ECC_CNT] ∧
        t.fget (F.LYR_FENCE_VAL_VALUE n) = if newer32 v (s.fget (F.LYR_FENCE_VAL_VALUE n)) then v
          else s.fget (F.LYR_FENCE_VAL_VALUE n)) ∧
    (s.headOf p .fence = some h → 63 < byteAt o.tsf 0 →
      ∃ t, exec (.fence p page) s = .next t ∧ s.nakSent t p o.seq 1 2 ⟨0x0A, byteAt o.tsf 0⟩ ∧
        t = { s with regs := t.regs, cyc := t.cyc, ports := t.ports } ∧ s.regsBut t [R.SWD_ECC_CNT])

/-- R109, R110, R111: a COMMIT with a new id of a FILLING slot waits for the slot to complete, one of a slot that is not FILLING is refused
with SLOTSTATE; a commit that completes and passes checks 5 to 7 is accepted and its slot is HELD, and one that fails check 5 or 6 is
gone while its slot stays FILLING.
Choices of the model it rests on: log entries 25, 26. -/
def Obligations.CommitsWaitAndComplete : Prop :=
  ∀ (p : Fin 2) (page : EccResult) (s : State) (h : HeldPkt) (i : Nat) (a : Att), s.Shaped → page ≠ .uncorrectable →
    (s.attOf p = some i → s.att i = some a → a.role ≠ .promoted → s.headOf p .commit = some h →
      let b := h.pkt.payload
      b.length = 8 → byteAt b 4 < 3 → s.slotSize (byteAt b 4) ≠ 0 → byteAt b 5 = 0xFF → leAt b 6 2 = 0 → s.idRec (leAt b 0 4) = none →
      (∀ r ∈ s.lyr.ids, newer32 (leAt b 0 4) r.id = true) →
      (s.isFilling (byteAt b 4) = true → s.commitCheck4 s.activeSet ((s.slot (byteAt b 4)).decl.map Decl.tset) = none →
        ∃ t, exec (.commit p page) s = .next t ∧ t = { s with regs := t.regs, cyc := t.cyc, ports := t.ports, lyr := t.lyr } ∧
          s.regsBut t [R.SWD_ECC_CNT] ∧ t.lyr.groups = s.lyr.groups ∧
          let gs := ((s.slot (byteAt b 4)).decl.map (fun d => maskGroups d.groupMask)).getD []
          t.lyr.commits = s.lyr.commits ++ [⟨s.lyr.count, s.ses.sid, leAt b 0 4, some (byteAt b 4), s.activeSet,
            gs.map (fun g => (g, 0)), false, false, ⟨p, h.pkt.hdr.seq⟩⟩]) ∧
      (s.isFilling (byteAt b 4) = false → s.ses.active = true →
        ∃ t, exec (.commit p page) s = .next t ∧ t.lyr.commits = s.lyr.commits ∧ t.slots = s.slots ∧
          s.nakSent t p h.pkt.hdr.seq 1 2 ⟨0x21, s.slotStateCtx (byteAt b 4)⟩ ∧ t.fget F.LYR_COMMIT_STAT_OUTCOME = 3 ∧
          t.fget F.LYR_COMMIT_STAT_REASON = 0x21 ∧ s.keepsBase t)) ∧
    (∀ c n, s.completing = some c → c.slot = some n → s.isFilling n = true →
      (s.clash n = none → (s.poolTotals n).1 ≤ 819 → (s.poolTotals n).2 ≤ 102 → s.fallowShort n = none →
        ∃ t, exec .commitCompletion s = .next t ∧ (t.slot n).phase = .held ∧ t.lyr.groups = s.lyr.groups ∧ t.hbm = s.hbm ∧
          s.keepsBase t ∧ ∃ d ∈ t.lyr.commits, d.key = c.key ∧ d.accepted = true ∧ d.groups = c.groups) ∧
      ((s.clash n ≠ none ∨ 819 < (s.poolTotals n).1 ∨ 102 < (s.poolTotals n).2) →
        ∃ t, exec .commitCompletion s = .next t ∧ (∀ d ∈ t.lyr.commits, d.key ≠ c.key) ∧ (t.slot n).phase = .filling ∧
          t.lyr.groups = s.lyr.groups ∧ t.hbm = s.hbm ∧ s.keepsBase t)) ∧
    (s.completing = none → exec .commitCompletion s = .next s)

/-- R335, R336: a CONTROL packet of one operation has the effect of that register access on the CONTROL path, where no path that comes after
it has written in this cycle (R327), and one without an operation is refused with CTLFMT. R338, R344: a server's message is placed in its
empty IN, a full IN refuses it, and a message for another box, by its TSF or its header, is refused with ROLE. R340: a report that matches
the message in OUT clears it. R261, R266: a CLOSE closes a standby and an attachment that is not KEYED yet, drains a primary, and a REASON
above 2 is refused.
Choices of the model it rests on: log entries 2, 24, 41, 43. -/
def Obligations.ServerCommands : Prop :=
  ∀ (p : Fin 2) (page : EccResult) (s : State) (h : HeldPkt) (i : Nat) (a : Att), s.Shaped → page ≠ .uncorrectable →
    s.attOf p = some i → s.att i = some a → a.state ≠ .closed →
    let o := h.pkt.hdr
    let m := h.pkt.payload
    (s.headOf p .control = some h →
      let u := ((s.passHead p).swardRead page).2
      (byteAt o.tsf 0 = 0 → ∃ t, exec (.control p page) s = .next t ∧ s.nakSent t p o.seq 1 2 ⟨0x19, 0xFF⟩ ∧
        t = { s with regs := t.regs, cyc := t.cyc, ports := t.ports } ∧ s.regsBut t [R.SWD_ECC_CNT]) ∧
      ∀ A V : W32, byteAt o.tsf 0 = 1 → m.length = 16 → u.ctlCheck a o.tsf m = none → opAddr m = A.toNat → leAt m 8 4 = V.toNat →
        (∀ x, s.wroteNow x ≤ 2) →
        (byteAt m 0 = 2 → ∃ t x, exec (.control p page) s = .next t ∧ exec (.registerWrite .control A V) u = .next x ∧
          t = { x with cyc := t.cyc, ports := t.ports, ses := t.ses }) ∧
        (byteAt m 0 = 1 → ∃ t x, exec (.control p page) s = .next t ∧ exec (.readClearRegister .control A) u = .next x ∧
          t = { x with ports := t.ports, ses := t.ses, rdata := t.rdata })) ∧
    (s.headOf p .mail = some h → byteAt o.tsf 0 = 0 → 8 ≤ m.length → m.length = 8 + msgLen m →
      (byteAt o.tsf 4 ≠ a.box ∨ byteAt m 2 ≠ a.box → ∃ t, exec (.mailMessage p page) s = .next t ∧
        s.nakSent t p o.seq 1 2 ⟨0x11, a.role.code⟩ ∧
        t = { s with regs := t.regs, cyc := t.cyc, ports := t.ports } ∧ s.regsBut t [R.SWD_ECC_CNT]) ∧
      (byteAt o.tsf 4 = a.box → byteAt m 2 = a.box → (s.box a.box).inMsg = none → (s.box a.box).last ≠ some (msgKey m) →
        a.box ∉ s.cyc.cleared →
        ∃ t, exec (.mailMessage p page) s = .next t ∧ (t.box a.box).inMsg = some m ∧ (t.box a.box).last = some (msgKey m) ∧
          (∀ b, b ≠ a.box → t.box b = s.box b) ∧ t = { s with regs := t.regs, cyc := t.cyc, ports := t.ports, boxes := t.boxes } ∧
          s.regsBut t [R.SWD_ECC_CNT]) ∧
      (byteAt o.tsf 4 = a.box → byteAt m 2 = a.box → (s.box a.box).inMsg.isSome = true → (s.box a.box).last ≠ some (msgKey m) →
        ∃ t, exec (.mailMessage p page) s = .next t ∧ s.nakSent t p o.seq 1 2 ⟨0x18, (msgKey m).2 * 65536 + a.box * 256⟩ ∧
          t = { s with regs := t.regs, cyc := t.cyc, ports := t.ports } ∧ s.regsBut t [R.SWD_ECC_CNT, R.MBX_BOX_STAT a.box] ∧
          t.fget (F.MBX_BOX_STAT_FULLREF a.box) = min (s.fget (F.MBX_BOX_STAT_FULLREF a.box) + 1) 255)) ∧
    (s.headOf p .mail = some h → byteAt o.tsf 0 = 1 → ∀ w, (s.box a.box).outMsg = some w →
      (byteAt o.tsf 4 = a.box → (leAt o.tsf 8 2, leAt o.tsf 2 2) = msgKey w → (byteAt o.tsf 1 = 0 ∨ byteAt o.tsf 1 = 3) →
        ∃ t, exec (.mailReport p page) s = .next t ∧ (t.box a.box).outMsg = none ∧
          t.fget (F.MBX_BOX_STAT_OUT_RES a.box) = byteAt o.tsf 1 + 1 ∧ (∀ b, b ≠ a.box → t.box b = s.box b) ∧
          t = { s with regs := t.regs, cyc := t.cyc, ports := t.ports, boxes := t.boxes } ∧
            s.regsBut t [R.SWD_ECC_CNT, R.MBX_BOX_STAT a.box]) ∧
      ((leAt o.tsf 8 2, leAt o.tsf 2 2) ≠ msgKey w →
        ∃ t, exec (.mailReport p page) s = .next t ∧ t = { s with regs := t.regs, cyc := t.cyc, ports := t.ports } ∧
          s.regsBut t [R.SWD_ECC_CNT])) ∧
    (s.headOf p .close = some h →
      (2 < byteAt o.tsf 0 → ∃ t, exec (.close p page) s = .next t ∧ t.ses = s.ses ∧ t.slots = s.slots ∧ t.lyr = s.lyr ∧
        s.nakSent t p o.seq 1 2 ⟨0x06, leAt o.encode 0 4⟩) ∧
      (byteAt o.tsf 0 ≤ 2 → (a.role = .standby ∨ a.keyedUp = false) →
        ∃ t, exec (.close p page) s = .next t ∧ (t.att i).map Att.state = some .closed ∧ s.keepsBase t) ∧
      (a.role ≠ .standby → a.keyedUp = true → a.state ≠ .draining →
        (byteAt o.tsf 0 = 0 → ∃ t, exec (.close p page) s = .next t ∧ (t.att i).map Att.state = some .draining ∧ s.keepsBase t) ∧
        (byteAt o.tsf 0 = 2 → ∃ t, exec (.close p page) s = .next t ∧ (t.att i).map Att.state = some .closed ∧ s.keepsBase t)))

/-- R235, R237, R239, R263, R240, R269, R216: what the device sends of itself. An ACK carries NEXT and covers every packet received; each
gap left is named in a RESEND entry; a packet unacknowledged is sent again with RETX and counted, and the sixteenth time raises ING_RETX and
degrades a primary; CREDIT and EVENT packets take up to 1,024 grants and 64 records off their queues; a KEEPALIVE and an ALIGN change
nothing else.
Choices of the model it rests on: log entries 7, 23. -/
def Obligations.DeviceSends : Prop :=
  ∀ (p : Fin 2) (seq : W32) (s : State), s.Shaped →
    (s.portUp p = true → 0 < (s.port p).uncovered →
      ∃ t, exec (.ackSend p) s = .next t ∧ t = { s with ports := t.ports } ∧
        t.port p = { (s.port p) with uncovered := 0, wire := (t.port p).wire } ∧
        ∃ w, (t.port p).wire = (s.port p).wire ++ [w] ∧ w.hdr.ty = 0x30 ∧ w.hdr.tsf.take 4 = leBytes 4 (s.port p).rxNext) ∧
    ((s.portUp p = false ∨ (s.port p).uncovered = 0) → exec (.ackSend p) s = .next s) ∧
    (∀ o, s.portUp p = true → (s.port p).beyond = [o] → 0 < o →
      ∃ t, exec (.nakRepeat p) s = .next t ∧ t = { s with ports := t.ports } ∧ (t.port p).held = (s.port p).held ∧
        s.nakSent t p ((s.port p).rxNext % 2 ^ 32) o 1 ⟨0x01, 0⟩) ∧
    ((s.port p).beyond = [] → exec (.nakRepeat p) s = .next s) ∧
    (∀ u, s.portUp p = true → (s.port p).unacked.find? (fun u => u.pkt.hdr.seq == seq.toNat) = some u →
      (u.tries ≠ 15 →
        ∃ t, exec (.deviceRetransmit p seq) s = .next t ∧ t = { s with regs := t.regs, cyc := t.cyc, ports := t.ports } ∧
          s.regsBut t [R.ING_RETX_CNT p] ∧ t.fget (F.ING_RETX_CNT_DEVICE p) = min (s.fget (F.ING_RETX_CNT_DEVICE p) + 1) 65535 ∧
          (t.port p).wire = (s.port p).wire ++ [{ u.pkt with hdr := { u.pkt.hdr with retx := true, stamp := s.stamp } }] ∧
          (t.port p).unacked = (s.port p).unacked.map (fun v => if v.pkt.hdr.seq = seq.toNat then { v with tries := v.tries + 1 } else v)) ∧
      (u.tries = 15 →
        ∃ t, exec (.retxLimit p seq) s = .next t ∧ t.pendingEvt 8 = true ∧
          t.fget (F.ING_RETX_CNT_DEVICE p) = min (s.fget (F.ING_RETX_CNT_DEVICE p) + 1) 65535 ∧
          s.regsBut t (R.ING_RETX_CNT p :: evtRegs 8) ∧
          t = { s with regs := t.regs, cyc := t.cyc, ports := t.ports, ses := t.ses, evtTurn := t.evtTurn } ∧
          ∀ i a, s.attOf p = some i → s.att i = some a → a.isPrimary = true →
            (a.state = .keyed ∨ a.state = .declared ∨ a.state = .streaming) → (t.att i).map Att.state = some .degraded)) ∧
    ((s.port p).unacked.find? (fun u => u.pkt.hdr.seq == seq.toNat) = none →
      exec (.deviceRetransmit p seq) s = .next s ∧ exec (.retxLimit p seq) s = .next s) ∧
    (∀ i a, s.primary = some i → s.att i = some a → a.keyed = true → a.ports.contains p.val = true → s.ses.grants ≠ [] →
      (s.port p).unacked.length < 256 → (s.port p).waiting = [] →
      ∃ t, exec (.creditSend p) s = .next t ∧ t = { s with ports := t.ports, ses := t.ses } ∧
        t.ses.grants = s.ses.grants.drop 1024 ∧ (t.port p).txNext = ((s.port p).txNext + 1) % 2 ^ 32 ∧
        ∃ w, (t.port p).wire = (s.port p).wire ++ [w] ∧ w.hdr.ty = 0x32 ∧ w.hdr.seq = (s.port p).txNext) ∧
    (∀ i a, s.attOf p = some i → s.att i = some a → a.keyed = true → a.isOpen = true → a.queue ≠ [] →
      (s.port p).unacked.length < 256 → (s.port p).waiting = [] →
      ∃ t, exec (.eventSend p) s = .next t ∧ t = { s with ports := t.ports, ses := t.ses } ∧
        (t.att i).map Att.queue = some (a.queue.drop 64) ∧
        ∃ w, (t.port p).wire = (s.port p).wire ++ [w] ∧ w.hdr.ty = 0x22 ∧ w.hdr.seq = (s.port p).txNext) ∧
    (∀ i a, s.attOf p = some i → s.att i = some a → a.isOpen = true → s.portUp p = true →
      ∃ t, exec (.keepaliveSend p) s = .next t ∧ t = { s with ports := t.ports } ∧ s.sentOne t p 0x33 [] []) ∧
    (s.fget (F.ING_STAT_STATE p) ≠ 0 →
      ∃ t, exec (.ingAlignPeriod p) s = .next t ∧ t = { s with ports := t.ports, cal := t.cal } ∧
        (t.port p).align = (s.port p).align + 1 ∧
        (t.port p).aligned = (s.port p).aligned ++ [alignBlk 0 p (s.port p).align])

/-- R261, R263, R267, R257: the timers of the session. HS_TO closes an attachment in HELLO or AUTH and counts; a silent primary fails over
to a KEYED standby and without one is DEGRADED, but not in the cycle of a failover or of a packet of its that counts (R272); a silent
standby, a primary that stayed DEGRADED and a drained one close; CLOSE_TO frees the ports with their sequence spaces at 0; a sending key at
its limit moves to the next phase, but not while a packet of the phase before is unacknowledged, a receiving one draws a REKEY record once
and closes once it is past it.
Choices of the model it rests on: log entries 1, 2, 24, 31. -/
def Obligations.SessionTimers : Prop :=
  ∀ (p : Fin 2) (s : State) (i : Nat) (a : Att), s.Shaped →
    (s.attOf p = some i → s.att i = some a →
      ((a.state = .hello ∨ a.state = .auth) →
        ∃ t, exec (.handshakeTimeout p) s = .next t ∧ (t.att i).map Att.state = some .closed ∧
          t.fget F.SES_ERR_CNT_HSTO = min (s.fget F.SES_ERR_CNT_HSTO + 1) 255 ∧ s.keepsBase t) ∧
      (a.state ≠ .hello → a.state ≠ .auth → exec (.handshakeTimeout p) s = .next s) ∧
      (a.closing.isSome = true →
        ∃ t, exec (.closeTimeout p) s = .next t ∧ t.ses = { s.ses with atts := s.ses.atts.eraseIdx i } ∧
          t = { s with ports := t.ports, ses := t.ses } ∧
          ∀ q ∈ a.ports, q < 2 → (t.port q).rxNext = 0 ∧ (t.port q).txNext = 0 ∧ (t.port q).unacked = [] ∧ (t.port q).held = []) ∧
      (a.closing = none → exec (.closeTimeout p) s = .next s) ∧
      (a.keyed = true → a.isOpen = true →
        (a.tx.phase = 0 ∨ ∀ q ∈ a.ports, ∀ u ∈ (s.port q).unacked, u.pkt.hdr.auth = true → u.pkt.hdr.keyph ≠ (a.tx.phase + 3) % 4) →
        exec (.deviceRekey p) s = .next (s.modAtt i (fun a => { a with tx :=
          ⟨a.tx.phase + 1, nextSec a.tx.sec, a.tx.prev, 0, none, a.tx.dueSent⟩ }))) ∧
      (∀ q u, 0 < a.tx.phase → q ∈ a.ports → u ∈ (s.port q).unacked → u.pkt.hdr.auth = true → u.pkt.hdr.keyph = (a.tx.phase + 3) % 4 →
        exec (.deviceRekey p) s = .next s) ∧
      ((a.keyed = false ∨ a.isOpen = false) → exec (.deviceRekey p) s = .next s) ∧
      (a.keyed = true → a.isOpen = true →
        ∃ t, exec (.serverKeyExpiry p) s = .next t ∧ (t.att i).map Att.state = some .closed ∧ s.keepsBase t) ∧
      (a.keyed = true → a.isOpen = true → a.rx.dueSent = false →
        ∃ t, exec (.serverRekeyDue p) s = .next t ∧ (t.att i).map (fun b => b.rx.dueSent) = some true ∧
          t = { s with regs := t.regs, cyc := t.cyc, ses := t.ses } ∧ s.regsBut t [R.SES_EVT_LOST]) ∧
      (a.keyed = true → a.rx.dueSent = true → exec (.serverRekeyDue p) s = .next s)) ∧
    (s.primary = some i → s.att i = some a →
      ((s.ses.failAt = some s.clock ∨ ∃ q ∈ a.ports, q ∈ s.cyc.heard) → exec .primarySilence s = .next s) ∧
      (s.ses.failAt ≠ some s.clock → (∀ q ∈ a.ports, q ∉ s.cyc.heard) → a.keyedUp = true → a.state ≠ .draining → ∀ j, s.standby = some j →
        ∃ t, exec .primarySilence s = .next t ∧ (t.att i).map Att.state = some .closed ∧ (t.att j).map Att.role = some .promoted ∧
          t.ses.failovers = satAdd 255 s.ses.failovers 1 ∧ s.keepsBase t) ∧
      (s.ses.failAt ≠ some s.clock → (∀ q ∈ a.ports, q ∉ s.cyc.heard) → s.standby = none → a.silent = false →
        (a.state = .keyed ∨ a.state = .declared ∨ a.state = .streaming) →
        ∃ t, exec .primarySilence s = .next t ∧ (t.att i).map Att.state = some .degraded ∧ (t.att i).map Att.resume = some a.state ∧
          (t.att i).map Att.silent = some true ∧ t = { s with regs := t.regs, cyc := t.cyc, ses := t.ses } ∧ s.regsBut t [R.SES_EVT_LOST]) ∧
      (a.state = .degraded → (a.silent = true ∨ a.retx = true) →
        ∃ t, exec .degradedTimeout s = .next t ∧ (t.att i).map Att.state = some .closed ∧ s.keepsBase t) ∧
      (a.state ≠ .degraded → exec .degradedTimeout s = .next s)) ∧
    (s.primary = none → exec .primarySilence s = .next s) ∧
    (s.standby = some i → ∃ t, exec .standbySilence s = .next t ∧ (t.att i).map Att.state = some .closed ∧ s.keepsBase t) ∧
    (s.attWhere (fun b => b.state == .draining) = some i →
      (s.drained = true → ∃ t, exec .drainComplete s = .next t ∧ (t.att i).map Att.state = some .closed ∧ s.keepsBase t) ∧
      (s.drained = false → exec .drainComplete s = .next s))

/-! The latch row, the mode change and the Fallow cache (05). -/

/-- R117, R119, R122, R120: with TIM running and no mode change, a latch row on a head opens the next turn at the present time. R85, R137,
R146: it exchanges the coefficient pages, the LUT pages and the map generations whose SWAP waits, with LAST_TURN its turn. R92, R171: a
START or STOP of SYN or DRV that waits takes effect, a START only on a valid configuration, and else sets BADCFG; with none RUN stays. What
was asked in the latch row's own cycle waits on. With no commit every group shows what it showed and the repeat count grows; a lone accepted
commit whose fences are reached lands its group and ends the repetition. With TIM stopped, and no follower's restart due, there is no latch
row.
Choices of the model it rests on: log entries 2, 27. -/
def Obligations.LatchOpensTurn : Prop :=
  ∀ s : State, s.Shaped → s.lyr.mode = .idle →
    (s.tim.run = false → s.tim.restart = false → exec .latch s = .next s) ∧
    (s.tim.run = true → s.isHead = true → s.fget F.CAS_STAT_STATE ≠ 6 → s.cas.bcHold = [] → s.cas.setReq = none →
      ∃ t, exec .latch s = .next t ∧ t.lyr.turn = (if s.lyr.opened then (s.lyr.turn + 1) % 2 ^ 48 else 0) ∧ t.lyr.opened = true ∧
        t.lyr.quiet = false ∧ t.lyr.latchTime = s.time ∧ t.time = s.time ∧ t.tim.run = true ∧
        (∀ pend active last, (pend, active, last) ∈ [
            (F.SYN_COEF_CTL_PEND, F.SYN_COEF_CTL_ACTIVE, F.SYN_COEF_CTL_LAST_TURN),
            (F.COL_LUT_CTL_PEND, F.COL_LUT_CTL_ACTIVE, F.COL_LUT_CTL_LAST_TURN),
            (F.EMC_MAP_CTL_PEND, F.EMC_MAP_CTL_ACTIVE, F.EMC_MAP_CTL_LAST_TURN)] →
          let now := s.flag pend && !s.askedNow pend.addr
          t.flag pend = (s.flag pend && !now) ∧ t.flag active = (s.flag active != now) ∧
            t.fget last = if now then t.lyr.turn % 65536 else s.fget last) ∧
        t.lyr.heldSyn = (if s.askedNow R.SYN_CTL then s.lyr.heldSyn else none) ∧
        t.lyr.heldDrv = (if s.askedNow R.DRV_CTL then s.lyr.heldDrv else none) ∧
        ((s.lyr.heldSyn = none ∨ s.askedNow R.SYN_CTL = true) → t.flag F.SYN_CTL_RUN = s.flag F.SYN_CTL_RUN ∧
          t.flag F.SYN_CTL_PEND = s.flag F.SYN_CTL_PEND) ∧
        (s.lyr.heldSyn.isSome = true → s.askedNow R.SYN_CTL = false → t.flag F.SYN_CTL_PEND = false ∧
          let ok := s.geom.valid && decide (8 ≤ s.fget F.SYN_LEAD_CFG_LEAD) && decide (s.fget F.SYN_LEAD_CFG_LEAD ≤ 32)
          (s.lyr.heldSyn = some false → t.flag F.SYN_CTL_RUN = false) ∧
          (s.lyr.heldSyn = some true → t.flag F.SYN_CTL_BADCFG = !ok ∧ t.flag F.SYN_CTL_RUN = (ok || s.flag F.SYN_CTL_RUN))) ∧
        ((s.lyr.heldDrv = none ∨ s.askedNow R.DRV_CTL = true) → t.flag F.DRV_CTL_RUN = s.flag F.DRV_CTL_RUN ∧
          t.flag F.DRV_CTL_PEND = s.flag F.DRV_CTL_PEND) ∧
        (s.lyr.heldDrv.isSome = true → s.askedNow R.DRV_CTL = false → t.flag F.DRV_CTL_PEND = false ∧
          let ok := s.flag F.DRV_LEDGER_CFG_READY && decide (s.fget F.DRV_LEDGER_CFG_ROW0 + s.geom.hp ≤ 17280)
          (s.lyr.heldDrv = some false → t.flag F.DRV_CTL_RUN = false) ∧
          (s.lyr.heldDrv = some true → t.flag F.DRV_CTL_BADCFG = !ok ∧ t.flag F.DRV_CTL_RUN = (ok || s.flag F.DRV_CTL_RUN))) ∧
        t.hbm = s.hbm ∧ t.nor = s.nor ∧ t.pwr = s.pwr ∧ t.pwd = s.pwd ∧
        (s.lyr.commits = [] → t.lyr.groups = s.lyr.groups ∧
          t.fget F.LYR_REPEAT_STAT_COUNT = min (s.fget F.LYR_REPEAT_STAT_COUNT + 1) 65535) ∧
        ∀ c n g w, s.lyr.commits = [c] → c.accepted = true → c.slot = some n → c.groups = [(g, w)] → g < 16 →
          c.tset = s.activeSet → s.lyr.modeCommit = none → s.lyr.jobs = [] → s.fencesReached c g = true → s.contentOf n g ≠ [] →
          t.lyr.commits = [] ∧ t.fget F.LYR_REPEAT_STAT_COUNT = 0 ∧
          t.lyr.groups = setNth s.lyr.groups g (some ⟨n, c.sid, c.id, t.lyr.turn, s.contentOf n g⟩))

/-- R115, R121, R131, R177: a group whose wait count has reached, by its advance at the latch row, the fence_timeout in force there is
abandoned with FENCE while it goes on showing what it shows, and no other; the fade factor follows the repeat count and the repeat policy in
force at the latch row; the retune ends in READY; and the new timing starts, unless TIM waits for the next power-up or, after a rejoin's
quiet turns, for LOCKED (R303), with the target set active, its phase 0, no commit of another set left, and a turn opened.
Choices of the model it rests on: log entries 1, 27. -/
def Obligations.LatchTimers : Prop :=
  ∀ (g : Fin 16) (s : State), s.Shaped →
    (∀ c w, s.lyr.commits = [c] → c.accepted = true → c.groups = [(g.val, w)] → s.lyr.fenceLim ≤ w →
      (c.key, g.val) ∈ s.lyr.waited → s.lyr.modeCommit = none →
      ∃ t, exec (.fenceTimeout g) s = .next t ∧ t.lyr.commits = [] ∧ t.lyr.groups = s.lyr.groups ∧ t.pendingEvt 2 = true ∧
        t.fget F.LYR_COMMIT_STAT_OUTCOME = 4 ∧ t.fget F.LYR_COMMIT_STAT_REASON = 0x31 ∧
        t.fget F.LYR_COMMIT_STAT_GROUPS = 2 ^ g.val ∧ t.slots = s.slots ∧ t.hbm = s.hbm ∧ s.keepsBase t) ∧
    ((∀ c ∈ s.lyr.commits, (c.key, g.val) ∈ s.lyr.waited → ∀ e ∈ c.groups, e.1 = g.val → e.2 < s.lyr.fenceLim) →
      exec (.fenceTimeout g) s = .next s) ∧
    (∃ t, exec .fadeStart s = .next t ∧ t = { s with regs := t.regs, cyc := t.cyc, lyr := { s.lyr with fade := t.lyr.fade } } ∧
      s.regsBut t [R.LYR_REPEAT_STAT] ∧ t.fget F.LYR_REPEAT_STAT_COUNT = s.fget F.LYR_REPEAT_STAT_COUNT ∧
      let cfg := s.lyr.repeatCfg
      let m := fieldOf cfg F.LYR_REPEAT_CFG_REPEAT_MAX
      let n := s.fget F.LYR_REPEAT_STAT_COUNT
      let f := max 1 (fieldOf cfg F.LYR_REPEAT_CFG_FADE_TURNS)
      ((fieldOf cfg F.LYR_REPEAT_CFG_ACTION = 0 ∨ m = 0 ∨ n ≤ m) →
        t.lyr.fade = 2 ^ 18 ∧ t.flag F.LYR_REPEAT_STAT_FADING = false ∧ t.flag F.LYR_REPEAT_STAT_BLACK = false) ∧
      (fieldOf cfg F.LYR_REPEAT_CFG_ACTION ≠ 0 → m ≠ 0 → m < n → n < m + f →
        t.lyr.fade = (f - (n - m)) * 2 ^ 18 / f ∧ t.flag F.LYR_REPEAT_STAT_FADING = true ∧ t.flag F.LYR_REPEAT_STAT_BLACK = false) ∧
      (fieldOf cfg F.LYR_REPEAT_CFG_ACTION ≠ 0 → m ≠ 0 → m + f ≤ n →
        t.lyr.fade = 0 ∧ t.flag F.LYR_REPEAT_STAT_FADING = false ∧ t.flag F.LYR_REPEAT_STAT_BLACK = true)) ∧
    (s.lyr.mode = .retune → exec .timeRetuneDone s = .next { s with lyr := { s.lyr with mode := .ready } }) ∧
    (s.lyr.mode ≠ .retune → exec .timeRetuneDone s = .next s) ∧
    (s.lyr.mode ≠ .ready ∨ s.tim.parked = true ∨ (s.tim.restart = true ∧ s.fget F.CAS_STAT_STATE ≠ 3) → exec .newTimingStart s = .next s) ∧
    (∀ x, s.lyr.mode = .ready → s.tim.parked = false → (s.tim.restart = false ∨ s.fget F.CAS_STAT_STATE = 3) →
      s.tsetOf s.lyr.modeTarget = some x → x.tset < 8 →
      ∃ t, exec .newTimingStart s = .next t ∧ t.lyr.mode = .idle ∧ t.lyr.modeCommit = none ∧ t.fget F.TIM_MODE_STAT_ACTIVE = x.tset ∧
        t.fget F.TIM_MODE_STAT_PHASE = 0 ∧ (∀ c ∈ t.lyr.commits, c.tset = x.tset) ∧ t.tim.run = true ∧ t.lyr.opened = true ∧
        t.hbm = s.hbm ∧ t.nor = s.nor ∧ t.pwd = s.pwd)

/-- R125, R126, R127, R324: the first job that may start starts; a copy ends with a generation of the plane's blocks as they are, a flatten
with one of a block a position of its highest member, each with the header of R40 that its position gives, whatever their reads report; each
takes free granules for its directory and blocks, and writes no other byte of HBM; with no job they do nothing. R129: a
drop request is kept for the latch row.
Choices of the model it rests on: log entries 10, 26. -/
def Obligations.FallowJobs : Prop :=
  ∀ s : State,
    (∀ j, s.nextJob = some j →
      ∃ t, exec .fallowJobStart s = .next t ∧ t = { s with lyr := { s.lyr with jobs := t.lyr.jobs, commits := t.lyr.commits } } ∧
        t.lyr.jobs = s.lyr.jobs.map (fun k => if k = j then { k with started := true } else k) ∧
        t.lyr.commits = s.lyr.commits.map (fun c => if c.key = j.commit then { c with begun := true } else c)) ∧
    (s.nextJob = none → exec .fallowJobStart s = .next s) ∧
    (∀ j l, s.runningJob = some j → j.members = [l] →
      ∃ t gen, exec .fallowCopyDone s = .next t ∧ s.keepsBase t ∧
        t.lyr = { s.lyr with
          jobs := s.lyr.jobs.map (fun k => if k = j then { k with ended := true } else k)
          entries := s.lyr.entries.map (fun e => if e.fid = j.fid then { e with new := some gen, newFor := j.commit } else e) } ∧
        gen.layer = l ∧ gen.flat = [] ∧ gen.table = s.freeGranules j.granules ∧ s.genOnly t gen ∧
        s.regsBut t (evtRegs 1 ++ evtRegs 9 ++ [R.MEM_ECC_CNT, R.SWD_ECC_CNT, R.DEC_ERR_COUNT, R.DEC_ERR_FIRST, R.DEC_ERR_FIRST_TAG,
          R.DEC_ERR_FIRST_TURN]) ∧
        t = { s with regs := t.regs, cyc := t.cyc, lyr := t.lyr, hbm := t.hbm, mem := t.mem, slots := t.slots, ses := t.ses, evtTurn := t.evtTurn
                     caps := t.caps, free := t.free } ∧
        gen.blocks.map (fun e => (e.1, e.2.1, e.2.2.hdr, e.2.2.bytes)) =
          ((s.slot j.slot).planeEntries l).map (fun e => (e.1, e.2.1, e.2.2.hdr, e.2.2.bytes))) ∧
    (∀ j top, s.runningJob = some j → 2 ≤ j.members.length → j.members.getLast? = some top →
      ∃ t gen, exec .fallowFlattenDone s = .next t ∧ s.keepsBase t ∧
        t.lyr = { s.lyr with
          jobs := s.lyr.jobs.map (fun k => if k = j then { k with ended := true } else k)
          entries := s.lyr.entries.map (fun e => if e.fid = j.fid then { e with new := some gen, newFor := j.commit } else e) } ∧
        gen.layer = top ∧ gen.blocks.length = nbandOf top.place.h * ncolOf top.place.w ∧
        gen.flat.length = nbandOf top.place.h * ncolOf top.place.w ∧ gen.table = s.freeGranules j.granules ∧ s.genOnly t gen ∧
        ∀ e ∈ gen.blocks, e.2.2.zero = false ∧ e.2.2.bytes.take 16 = writeBlockHdr e.2.2.hdr ∧ e.2.2.hdr.plane = top.index ∧
          e.2.2.hdr.band = e.1 ∧ e.2.2.hdr.col = e.2.1 ∧ e.2.2.hdr.len = e.2.2.bytes.length ∧ e.2.2.hdr.len ≤ 106496) ∧
    (s.runningJob = none → exec .fallowCopyDone s = .next s ∧ exec .fallowFlattenDone s = .next s) ∧
    ∀ fid : W32, s.isOff R.LYR_FALLOW_DROP = false → fid ≠ 0 →
      exec (.fallowDrop fid) s = .next { s with lyr := { s.lyr with drops := s.lyr.drops ++ [fid.toNat] } }

/-! Row slots, synthesis and the panel (03, 04, 07 and 08). -/

/-- R160, R192, R195: with TIM running the next row slot follows, and with TIM stopped none does; in an active slot each live lane sends its
row and each other lane is idle, in slot Hp every lane is idle. R208, R204: read-back counts the bits it finds wrong, of a training port's
TS-B with TIM stopped too, and from the threshold on fails the lane, at the start of an active row and otherwise at the next one. R195: the
wake burst goes out on every live lane. R209: a failed lane that retrains goes from presence detection to TS-A where it is terminated, and
from TS-A to TS-B.
Choices of the model it rests on: log entries 1, 7, 28. -/
def Obligations.RowSlots : Prop :=
  ∀ (m : List (Fin 8 × Fin 17 × Nat)) (p : Fin 8) (lane : Fin 17) (s : State), s.Shaped →
    (s.tim.run = false → exec .wakeBurst s = .next s ∧
      ((∀ k, k < 8 → s.bcTrains k = false) → exec (.slotStart m) s = .next s) ∧
      (∀ n, m = [(p, lane, n)] → s.bcTrains p = true → ∃ t, exec (.slotStart m) s = .next t ∧ t.tim = s.tim ∧ t.syn = s.syn ∧
        t.fget (F.PL_RB_ERR_COUNT p) = min (s.fget (F.PL_RB_ERR_COUNT p) + n) 0xFFFFFFFF)) ∧
    (s.tim.run = true →
      let q := (s.tim.slot + 1) % s.tab.timing.slots
      (∃ t, exec (.slotStart m) s = .next t ∧ t.tim.slot = q ∧ t.tim.slotAt = s.time ∧ t.lyr = s.lyr ∧ t.slots = s.slots ∧
        (q < s.tab.geom.hp → ∀ k, k < 8 → (t.plPort k).start = none) ∧
        (q = s.tab.geom.hp → t.tim.statsDone = true ∧ ∀ k, k < 8 → (t.plPort k).lanes = List.replicate 17 []) ∧
        (∀ n, m = [(p, lane, n)] → t.fget (F.PL_RB_ERR_COUNT p) = min (s.fget (F.PL_RB_ERR_COUNT p) + n) 0xFFFFFFFF ∧
          (s.flag (F.PL_CTL_RB_EN p) = true → max 1 (s.fget (F.PL_RB_CFG_THRESH p)) ≤ n → s.fget (F.PL_STAT_STATE p) = 3 →
            s.laneFailed p lane = false →
              (q < s.tab.geom.hp → (∀ x, (s.plPort p).start = some x → lane.val ∉ x.restore) → t.laneFailed p lane = true) ∧
              (s.tab.geom.hp ≤ q → ∃ c, (lane.val, c) ∈ (t.plPort p).fails)))) ∧
      (m = [] → q < s.tab.geom.hp → (∀ g, g < s.tab.geom.ng → q < (s.syn.clusters.getD g ⟨0, 0⟩).next) →
        ∃ t, exec (.slotStart m) s = .next t ∧ t = { s with tim := t.tim, pl := t.pl, syn := t.syn } ∧
          t.syn = { s.syn with fifo := s.syn.fifo.filter (fun e => decide (q < e.row)) } ∧
          (s.plLive p = true → (t.plPort p).lanes.getD lane [] =
            s.laneRow p lane q (lastBit false ((s.plPort p).lanes.getD lane []))) ∧
          (s.plLive p = false → (t.plPort p).lanes = List.replicate 17 [])) ∧
      (∃ t, exec .wakeBurst s = .next t ∧ t = { s with regs := t.regs, cyc := t.cyc, pl := t.pl } ∧
        (s.plLive p = true → (t.plPort p).lanes = List.replicate 17 wakeLine) ∧
        (s.plLive p = false → t.plPort p = s.plPort p))) ∧
    (∀ r, (s.plPort p).retry.find? (fun r => r.lane == lane.val) = some r →
      (r.step = .presence → ∀ b, ∃ t, exec (.laneRetrainPhase p lane b) s = .next t ∧ t.flag (F.PL_LANE_STAT_PRESENT p lane) = b ∧
        t = { s with regs := t.regs, cyc := t.cyc, pl := t.pl } ∧ s.regsBut t [R.PL_LANE_STAT p lane] ∧
        (b = false → ∀ k ∈ (t.plPort p).retry, k.lane = lane.val → k.step = .idle) ∧
          (b = true → ∀ k ∈ (t.plPort p).retry, k.lane = lane.val → k.step = .tsa)) ∧
      (r.step = .tsa → ∀ b, ∃ t, exec (.laneRetrainPhase p lane b) s = .next t ∧ t = { s with pl := t.pl } ∧
        ∀ k ∈ (t.plPort p).retry, k.lane = lane.val → k.step = .tsb) ∧
      (r.step ≠ .presence → r.step ≠ .tsa → ∀ b, exec (.laneRetrainPhase p lane b) s = .next s)) ∧
    ((s.plPort p).retry.find? (fun r => r.lane == lane.val) = none → ∀ b, exec (.laneRetrainPhase p lane b) s = .next s)

/-- R69, R90, R19: with TIM running a cluster in use runs its next row of the turn, once, and puts its 480 ray words into the row streamer;
nothing in HBM changes but the segment's ledger entries. Where DRV is stopped, the sequencer is not in RUN or a twin partner has lost its
pair, the words are 0 and nothing in HBM changes (R171, R195, R301). A gated cluster and one that has run every row do nothing.
Choices of the model it rests on: log entries 1, 68. -/
def Obligations.SynthesisRuns : Prop :=
  ∀ (g : Fin 128) (d : RowData) (s : State), s.Shaped →
    let y := (s.syn.clusters.getD g ⟨0, 0⟩).next
    (s.tim.run = true → g.val < s.tab.geom.ng → y < s.tab.geom.hp →
      ∃ t, exec (.synthRowStart g d) s = .next t ∧ (t.syn.clusters.getD g ⟨0, 0⟩).next = y + 1 ∧
        (∀ k, k ≠ g.val → t.syn.clusters[k]? = s.syn.clusters[k]?) ∧ t.lyr = s.lyr ∧ t.slots = s.slots ∧ t.pl = s.pl ∧
        t.tim = s.tim ∧ t.tab = s.tab ∧ s.keepsBase t ∧
        (∀ k, (∀ i < 480, hbmPlace s.mapMasks (s.ledgerAddr (480 * g) y + i) ≠ k) →
          SMap.get hbmDefault t.hbm k = SMap.get hbmDefault s.hbm k) ∧
        ((s.tab.drvRun = false ∨ s.seqRun = false ∨ s.cas.pairLost = true) → t.hbm = s.hbm) ∧
        ∃ e, t.syn.fifo = s.syn.fifo ++ [e] ∧ e.row = y ∧ e.group = g.val ∧ e.words.length = 480 ∧
          ((s.tab.drvRun = false ∨ s.seqRun = false ∨ s.cas.pairLost = true) → e.words = List.replicate 480 0)) ∧
    ((s.tim.run = false ∨ s.tab.geom.ng ≤ g.val ∨ s.tab.geom.hp ≤ y) → exec (.synthRowStart g d) s = .next s)

/-- R453, R90, R307, R309, R64, R65, R87: the next block of the decode order, once its band is held, goes to the decoder that is free, or a
buffer one ahead of its decoder, or is clear in the line pool where it has DERR or is absent; a ring descriptor that is lost puts its blocks
in error. A decoder that ends puts the block's pixels there and goes on to the block it fetched; a block that the read loses, or that does
not decode, is clear with its count and event; one that has got DERR since is clear and not counted again. A band of an overlay that is
prefetched stands in the overlay store as HBM held it. While HBM trains no Fallow block and no overlay band comes (R319).
Choices of the model it rests on: log entries 1, 7, 68. -/
def Obligations.DecodingFillsThePool : Prop :=
  ∀ (k : Fin 8) (band : BitVec 8) (d : Fin 32) (ring ecc : EccResult) (s : State), s.Shaped →
    (s.syn.order = [] → exec (.decodeAssign ring) s = .next s) ∧
    (∀ p b c rest u, s.syn.order = (p, b, c) :: rest → s.layerAt p = some u →
      (s.bandHeld u.layer b = false → exec (.decodeAssign ring) s = .next s) ∧
      (s.bandHeld u.layer b = true → (∀ e, s.blockSrc u b c = some e → e.entry.derr = true) →
        ∃ t, exec (.decodeAssign ring) s = .next t ∧ t = { s with syn := t.syn } ∧ t.syn.order = rest ∧
          t.syn.decoders = s.syn.decoders ∧ ⟨p, b, c, clearBlock⟩ ∈ t.syn.pool) ∧
      ∀ e, s.bandHeld u.layer b = true → s.blockSrc u b c = some e → e.entry.derr = false →
        ((ring ≠ .uncorrectable ∨ ∀ n, u.src ≠ .slot n) → s.freeDecoder = none → exec (.decodeAssign ring) s = .next s) ∧
        ((ring ≠ .uncorrectable ∨ ∀ n, u.src ≠ .slot n) → ∀ n fetch, s.freeDecoder = some (n, fetch) →
          ∃ t, exec (.decodeAssign ring) s = .next t ∧ t = { s with regs := t.regs, cyc := t.cyc, syn := t.syn } ∧
            s.regsBut t [R.SWD_ECC_CNT] ∧
            t.syn = if fetch then { s.syn with order := rest, ahead := setNth s.syn.ahead n (some (p, b, c)) }
              else { s.syn with order := rest, decoders := setNth s.syn.decoders n (some (p, b, c)) }) ∧
        (∀ n, ring = .uncorrectable → u.src = .slot n → c < ncolOf u.layer.place.w →
          ∃ t, exec (.decodeAssign ring) s = .next t ∧ t.slots = s.slots ∧ t.hbm = s.hbm ∧ t.pendingEvt 9 = true ∧ t.pendingEvt 1 = true ∧
            (p, b, c) ∉ t.syn.order ∧ (∀ x ∈ t.syn.decoders ++ t.syn.ahead, ofBand p b x = false))) ∧
    (s.syn.decoders.getD d none = none → exec (.blockDecodeDone d ecc) s = .next s) ∧
    (∀ p b c u e, s.syn.decoders.getD d none = some (p, b, c) → s.layerAt p = some u → s.blockSrc u b c = some e →
      s.syn.late.contains (p, b, c) = false →
      (e.entry.derr = true →
        ∃ t, exec (.blockDecodeDone d ecc) s = .next t ∧ t = { s with syn := t.syn } ∧ ⟨p, b, c, clearBlock⟩ ∈ t.syn.pool ∧
          t.syn.decoders = setNth s.syn.decoders d (s.syn.ahead.getD d none)) ∧
      (e.entry.derr = false → e.gen.isSome = true → s.hbmTrains = true → exec (.blockDecodeDone d ecc) s = .next s) ∧
      (e.entry.derr = false → (e.gen = none ∨ s.hbmTrains = false) →
        ∃ t, exec (.blockDecodeDone d ecc) s = .next t ∧ t.syn.decoders = setNth s.syn.decoders d (s.syn.ahead.getD d none) ∧
          t.syn.order = s.syn.order ∧ t.hbm = s.hbm ∧ s.keepsBase t ∧
          let clear := fun f => ⟨p, b, c, clearBlock⟩ ∈ t.syn.pool ∧ t.fget f = min (s.fget f + 1) 255 ∧ t.pendingEvt 1 = true
          ((s.blockRead e ecc).1 = none → clear F.DEC_ERR_COUNT_ECC) ∧
          ∀ bytes, (s.blockRead e ecc).1 = some bytes →
            (∀ rows, s.blockDecode e bytes = .ok rows → ⟨p, b, c, rows⟩ ∈ t.syn.pool ∧
              t = { s with regs := t.regs, cyc := t.cyc, syn := t.syn, mem := t.mem } ∧ s.regsBut t [R.SWD_ECC_CNT, R.MEM_ECC_CNT]) ∧
            (s.blockDecode e bytes = .overrun → clear F.DEC_ERR_COUNT_OVERRUN) ∧
            (s.blockDecode e bytes = .trailing → clear F.DEC_ERR_COUNT_TRAILING))) ∧
    (∀ p n u, s.lyr.layerSet.findIdx? (fun x => x.layer.overlay && x.layer.index == k.val) = some p → s.layerAt p = some u →
      u.src = .slot n → band.toNat < nbandOf u.layer.place.h → s.hbmTrains = false →
      s.syn.ovl.any (fun o => o.layer == p && o.band == band.toNat) = false → s.bandHeld u.layer band.toNat = true →
      (∀ j, j < min 16 (u.layer.place.h - 16 * band.toNat) →
        s.inRegions Client.ovlPf.reads (s.ovlAddr n u.layer.index (16 * band.toNat + j) 0) (5 * u.layer.place.w) = true) →
      ∃ t, exec (.overlayPrefetchDone k band .clean) s = .next t ∧ t = { s with syn := t.syn, mem := t.mem } ∧
        ⟨p, band.toNat, (List.range (min 16 (u.layer.place.h - 16 * band.toNat))).map (fun j =>
          (List.range u.layer.place.w).map (fun x =>
            readPx (s.hbmRead (s.ovlAddr n u.layer.index (16 * band.toNat + j) 0 + 5 * x) 5)))⟩ ∈ t.syn.ovl) ∧
    ((s.hbmTrains = true ∨ s.lyr.layerSet.findIdx? (fun x => x.layer.overlay && x.layer.index == k.val) = none) →
      exec (.overlayPrefetchDone k band ecc) s = .next s)

/-- R198, R203: a slot without an accepted frame, or with one that names another driver, counts MISSED or BADCRC and clears VALID, on a
running port in an active row only; a frame that is accepted is recorded, in training as the driver's report; elsewhere a frame is not
looked at. R204, R205, R209: at an active row start the declared failures take effect with their cause, and with the spare available the
groups above move up a lane; a restored lane is no longer failed, and the failures of the same row start go first (R210).
Choices of the model it rests on: log entry 28. -/
def Obligations.BackChannel : Prop :=
  ∀ (p : Fin 8) (drv : Fin 16) (bits : List Bool) (bad : Bool) (s : State), s.Shaped →
    (s.bcRow p = false → exec (.bcSlotMissed p drv bad) s = .next s) ∧
    (s.bcRow p = true →
      ∃ t, exec (.bcSlotMissed p drv bad) s = .next t ∧ t.flag (F.PL_BC_STAT_VALID p drv) = false ∧
        t.fget (F.PL_BC_ERR_MISSED p) = (if bad then s.fget (F.PL_BC_ERR_MISSED p) else min (s.fget (F.PL_BC_ERR_MISSED p) + 1) 65535) ∧
        t.fget (F.PL_BC_ERR_BADCRC p) = (if bad then min (s.fget (F.PL_BC_ERR_BADCRC p) + 1) 65535 else s.fget (F.PL_BC_ERR_BADCRC p)) ∧
        s.regsOnly t [R.PL_BC_ERR p, R.PL_BC_STAT p drv]) ∧
    (s.bcRow p = true → (∀ f, readFrame bits = some f → f.drv ≠ drv.val) →
      exec (.bcFrameReceive p drv bits) s = exec (.bcSlotMissed p drv true) s) ∧
    (s.bcRow p = false → s.bcTrains p = false → exec (.bcFrameReceive p drv bits) s = .next s) ∧
    (∀ f, s.bcRow p = false → s.bcTrains p = true → readFrame bits = some f → f.drv = drv.val →
      ∃ t, exec (.bcFrameReceive p drv bits) s = .next t ∧ t.flag (F.PL_BC_STAT_VALID p drv) = true ∧
        t = { s with regs := t.regs, cyc := t.cyc, pl := t.pl, cal := t.cal } ∧ s.regsBut t [R.PL_BC_STAT p drv] ∧
        (t.plPort p).reps = (s.plPort p).reps.filter (fun r => r.drv != drv.val) ++
          [⟨drv, f.phase == 3 && f.lk0, f.phase == 3 && f.lk1, f.lane0⟩]) ∧
    (∀ f, s.bcRow p = true → readFrame bits = some f → f.drv = drv.val →
      ∃ t, exec (.bcFrameReceive p drv bits) s = .next t ∧ t.flag (F.PL_BC_STAT_VALID p drv) = true ∧
        t.fget (F.PL_BC_STAT_TEMP p drv) = f.temp ∧ t.fget (F.PL_BC_STAT_CRCERR p drv) = f.crcErr ∧
        t.flag (F.PL_BC_STAT_LK0 p drv) = f.lk0 ∧ t.flag (F.PL_BC_STAT_LK1 p drv) = f.lk1 ∧
        (f.lk0 = false → s.laneFailed p drv = false → s.laneGroup p drv = some drv.val →
          ∃ c, (drv.val, c) ∈ (t.plPort p).fails) ∧
        t.lyr = s.lyr ∧ t.slots = s.slots ∧ t.hbm = s.hbm ∧ t.syn = s.syn ∧ t.tim = s.tim ∧ s.keepsBase t) ∧
    (s.rowStartNext = false → exec (.laneFailureApply p) s = .next s ∧ exec (.laneRestoreApply p) s = .next s) ∧
    (∀ (l r : Fin 17) c, s.rowStartNext = true → (s.plPort p).start = none → (s.plPort p).fails = [(l.val, c)] → c < 8 →
      s.laneFailed p l = false → (s.plPort p).restore = [r.val] → r ≠ l →
      ∃ t, exec (.laneRestoreApply p) s = .next t ∧ t.laneFailed p l = true ∧ t.fget (F.PL_LANE_STAT_CAUSE p l) = c ∧
        t.laneFailed p r = false ∧ (t.plPort p).fails = [] ∧ (t.plPort p).restore = [] ∧ t.pendingEvt 6 = true) ∧
    (∀ (l : Fin 17) c, s.rowStartNext = true → (s.plPort p).start = none → (s.plPort p).fails = [(l.val, c)] → c < 8 →
      s.laneFailed p l = false →
      ∃ t, exec (.laneFailureApply p) s = .next t ∧ t.laneFailed p l = true ∧ t.fget (F.PL_LANE_STAT_CAUSE p l) = c ∧
        (t.plPort p).fails = [] ∧ t.pendingEvt 6 = true ∧ t.tim = s.tim ∧ t.lyr = s.lyr ∧ s.keepsBase t ∧
        (∀ g, s.laneGroup p l = some g → s.flag (F.PL_STAT_SPARE_USED p) = false → l.val ≠ 16 →
          (∀ k, k < 17 → s.laneFailed p k = false) →
          t.flag (F.PL_STAT_SPARE_USED p) = true ∧ t.laneGroup p l = none ∧ t.fget (F.PL_STAT_SHIFT p) = l.val ∧
          ∀ k, l.val < k → k < 17 → t.laneGroup p k = some (k - 1))) ∧
    (∀ l : Fin 17, s.rowStartNext = true → (s.plPort p).start = none → (s.plPort p).restore = [l.val] → (s.plPort p).fails = [] →
      ∃ t, exec (.laneRestoreApply p) s = .next t ∧ t.laneFailed p l = false ∧ bitOf (t.fget (F.PL_STAT_FAILED p)) l = false ∧
        (t.plPort p).restore = [] ∧ t = { s with regs := t.regs, cyc := t.cyc, pl := t.pl } ∧
        ∀ a, a / 0x1000 ≠ 0x400 + p.val → t.rget a = s.rget a)

/-- R199 to R202: presence detection fails the lanes that are not terminated with cause ABSENT and goes on to TS-A, TS-A to TS-B; with every
present driver reporting a straight port it is READY, a reversed one is remapped and trained on once, and any other is FAILED. At the limit
the lanes that are not reported fail; a straight port is READY, a reversed one is remapped, and one from which no driver reports PHASE 3, or
whose reports are mixed, is FAILED with every group black. Out of its stage each does nothing.
Choices of the model it rests on: log entry 28. -/
def Obligations.PanelTraining : Prop :=
  ∀ (p : Fin 8) (mask : LaneMask) (s : State), s.Shaped →
    ((s.plPort p).stage = .presence →
      ∃ t, exec (.plPresenceDone p mask) s = .next t ∧ (t.plPort p).stage = .tsa ∧
        (∀ l : Fin 17, t.flag (F.PL_LANE_STAT_PRESENT p l) = mask.getLsbD l ∧
          (mask.getLsbD l = false → t.laneFailed p l = true ∧ t.fget (F.PL_LANE_STAT_CAUSE p l) = 1) ∧
          (mask.getLsbD l = true → t.laneFailed p l = s.laneFailed p l)) ∧
        t.tim = s.tim ∧ t.lyr = s.lyr ∧ s.keepsBase t) ∧
    ((s.plPort p).stage ≠ .presence → exec (.plPresenceDone p mask) s = .next s) ∧
    ((s.plPort p).stage = .tsa →
      exec (.plTsaDone p) s = .next (s.modPl p (fun q => { q with stage := .tsb }))) ∧
    ((s.plPort p).stage ≠ .tsa → exec (.plTsaDone p) s = .next s) ∧
    ((s.plPort p).stage = .tsb → (s.plPort p).reps ≠ [] →
      (∀ i, i < 16 → s.drvPresent p i = true → (s.plPort p).reps.any (fun r => r.drv == i && r.up0 && r.up1) = true) →
      ((s.plPort p).straight = true →
        ∃ t, exec (.plTsbDone p) s = .next t ∧ t.fget (F.PL_STAT_STATE p) = 2 ∧ (t.plPort p).stage = .none ∧ t.hbm = s.hbm ∧
          t.nor = s.nor ∧ t.fuses = s.fuses) ∧
      ((s.plPort p).straight = false → (s.plPort p).reversed = true →
        ∃ t, exec (.plTsbDone p) s = .next t ∧ t.flag (F.PL_STAT_REVERSED p) = true ∧ (t.plPort p).stage = .reversal ∧
          (∀ l : Fin 17, t.fget (F.PL_LANE_STAT_PIN p l) = 16 - l.val) ∧ t = { s with regs := t.regs, cyc := t.cyc, pl := t.pl })) ∧
    (((s.plPort p).stage = .tsb ∨ (s.plPort p).stage = .reversal) → (s.plPort p).reps ≠ [] →
      (∀ i, i < 16 → s.drvPresent p i = true → (s.plPort p).reps.any (fun r => r.drv == i && r.up0 && r.up1) = true) →
      ((s.plPort p).stage = .reversal → (s.plPort p).straight = true →
        ∃ t, exec (.plTsbDone p) s = .next t ∧ t.fget (F.PL_STAT_STATE p) = 2 ∧ (t.plPort p).stage = .none ∧ t.hbm = s.hbm ∧
          t.nor = s.nor ∧ t.fuses = s.fuses) ∧
      ((s.plPort p).straight = false → ((s.plPort p).reversed = false ∨ (s.plPort p).stage = .reversal) →
        ∃ t, exec (.plTsbDone p) s = .next t ∧ t.fget (F.PL_STAT_STATE p) = 4 ∧ t.fget (F.PL_BLACK_GROUPS p) = 0xFFFF ∧
          (t.plPort p).stage = .none ∧ t.hbm = s.hbm ∧ t.nor = s.nor ∧ t.fuses = s.fuses)) ∧
    (((s.plPort p).stage = .tsb ∨ (s.plPort p).stage = .reversal) → (s.plPort p).phase3 ≠ [] → (s.plPort p).straight = true →
      ∃ t, exec (.plStageLimit p) s = .next t ∧ t.fget (F.PL_STAT_STATE p) = 2 ∧ (t.plPort p).stage = .none ∧
        (∀ l : Fin 17, t.laneFailed p l = (s.laneFailed p l || (s.plPort p).limitLanes l)) ∧
        t.hbm = s.hbm ∧ t.nor = s.nor ∧ t.fuses = s.fuses) ∧
    ((s.plPort p).stage ≠ .tsb → (s.plPort p).stage ≠ .reversal →
      exec (.plTsbDone p) s = .next s ∧ exec (.plStageLimit p) s = .next s) ∧
    ((s.plPort p).stage = .tsb → (s.plPort p).phase3 ≠ [] → (s.plPort p).straight = false → (s.plPort p).reversed = true →
      ∃ t, exec (.plStageLimit p) s = .next t ∧ t.flag (F.PL_STAT_REVERSED p) = true ∧ (t.plPort p).stage = .reversal ∧
        ∀ l : Fin 17, t.fget (F.PL_LANE_STAT_PIN p l) = 16 - l.val ∧
          t.laneFailed p l = (s.laneFailed p (16 - l.val) || (s.plPort p).limitLanes l)) ∧
    (((s.plPort p).stage = .tsb ∨ (s.plPort p).stage = .reversal) →
      ((s.plPort p).phase3 = [] ∨ ((s.plPort p).straight = false ∧ ((s.plPort p).reversed = false ∨ (s.plPort p).stage = .reversal))) →
      ∃ t, exec (.plStageLimit p) s = .next t ∧ t.fget (F.PL_STAT_STATE p) = 4 ∧ t.fget (F.PL_BLACK_GROUPS p) = 0xFFFF ∧
        (t.plPort p).stage = .none ∧ (∀ l : Fin 17, t.laneFailed p l = (s.laneFailed p l || (s.plPort p).limitLanes l)) ∧
        t.hbm = s.hbm ∧ t.nor = s.nor ∧ t.fuses = s.fuses)

/-- R174, R176, R178: the power-up goes rail by rail: a rail that is good and the STEP after it lead to the next ramp, EMIT_SUP_EN and the
release of the gates; at a latch-row slot the sequencer is in RUN, TIM runs and, from rest on a head, turn 0 opens. A rail or an emitter
supply that is not good in time sets its fault bit, raises PWD_FAULT and starts the fault power-down. A VSET above the largest code acts
as that code, and a rail is good at 90 % of its set point. R301: a half of a split pair takes no step while the other half is in OFF or
DOWN, and a twin's partner starts TIM as the lead's RUN is mirrored.
Choices of the model it rests on: log entries 1, 29. -/
def Obligations.RailsComeUp : Prop :=
  ∀ (n : Fin 4) (s : State), s.Shaped →
    (s.pwd.pos = .ramp n →
      (∃ t, exec (.railGood n) s = .next t ∧ t.pwd = { s.pwd with pos := .stepUp (n.val + 1) } ∧
        bitOf (t.fget F.PWD_SEQ_STAT_PG) n = true ∧
          s.fieldOnly { t with pwd := s.pwd } F.PWD_SEQ_STAT_PG (s.fget F.PWD_SEQ_STAT_PG ||| 2 ^ n.val)) ∧
      (s.pwd.started.contains n.val = true →
        ∃ t, exec (.railPgTimeout n) s = .next t ∧ bitOf (t.fget F.PWD_FAULT_PGTO) n = true ∧ t.flag F.PWD_SEQ_STAT_FAULT = true ∧
          t.fget F.PWD_SEQ_STAT_STATE = 3 ∧ t.flag F.PWD_SEQ_STAT_EXT_EN = false ∧ t.pwd.pos.upOrRun = false ∧
          t.pendingEvt 5 = true ∧ t.lyr = s.lyr ∧ t.hbm = s.hbm ∧ t.pl = s.pl)) ∧
    (s.pwd.pos ≠ .ramp n → exec (.railGood n) s = .next s ∧ exec (.railPgTimeout n) s = .next s) ∧
    (s.pwd.pos = .stepUp n → s.waitsForPeer = false ∨ s.peerState = 2 →
      exec .seqStepDelay s = .next { s with pwd := { s.pwd with pos := .ramp n, started := s.pwd.started ++ [n.val] } }) ∧
    (∀ k, s.pwd.pos = .stepUp k → s.waitsForPeer = true → s.peerState = 0 ∨ s.peerState = 3 → exec .seqStepDelay s = .next s) ∧
    (s.pwd.pos = .stepUp 4 → s.waitsForPeer = false ∨ s.peerState = 2 →
      ∃ t, exec .seqStepDelay s = .next t ∧ s.fieldOnly { t with pwd := s.pwd } F.PWD_SEQ_STAT_EXT_EN 1 ∧
        t.pwd = { s.pwd with pos := if s.flag F.PWD_SEQ_STAT_EXT_PG then .stepUp 5 else .extUp }) ∧
    (s.pwd.pos = .stepUp 5 → s.waitsForPeer = false ∨ s.peerState = 2 →
      exec .seqStepDelay s = .next { s with pwd := { s.pwd with pos := .release } }) ∧
    (∃ t, exec .emitSupPgHigh s = .next t ∧ s.fieldOnly { t with pwd := s.pwd } F.PWD_SEQ_STAT_EXT_PG 1 ∧
      t.pwd = { s.pwd with pos := if s.pwd.pos = .extUp then .stepUp 5 else s.pwd.pos }) ∧
    (s.pwd.pos = .extUp → s.pwd.started.contains 3 = true →
      ∃ t, exec .extHandshakeTimeout s = .next t ∧ t.flag F.PWD_FAULT_EXT_TO = true ∧ t.flag F.PWD_SEQ_STAT_FAULT = true ∧
        t.fget F.PWD_SEQ_STAT_STATE = 3 ∧ t.pendingEvt 5 = true ∧ t.lyr = s.lyr ∧ t.hbm = s.hbm) ∧
    (s.pwd.pos = .release → s.timMayStart = true → s.twinPartner = false → s.lyr.mode = .idle → s.casState ≠ 6 → s.bootMayRun = true →
      s.waitsForPeer = false ∨ s.peerState = 2 →
      ∃ t, exec .seqRunEntry s = .next t ∧ t.pwd = { s.pwd with pos := .run } ∧ t.fget F.PWD_SEQ_STAT_STATE = 2 ∧ t.tim.run = true ∧
        t.fget F.NVM_BOOT_STAT_STATE = 6 ∧ t.hbm = s.hbm ∧ t.nor = s.nor ∧
        (s.tim.run = false → s.isHead = true → t.lyr.turn = 0 ∧ t.lyr.opened = true)) ∧
    (s.twinPartner = true → s.timMayStart = true → s.lyr.mode = .idle → s.casState ≠ 6 → s.partnerMayRun = true →
      ∃ t, exec .seqRunEntry s = .next t ∧ t.tim.run = true ∧ t.pwd = s.pwd ∧ t.fget F.NVM_BOOT_STAT_STATE = 6 ∧ t.hbm = s.hbm) ∧
    (s.timMayStart = false ∨ (s.twinPartner = true ∧ s.partnerMayRun = false) ∨ (s.twinPartner = false ∧ s.bootMayRun = false) →
      exec .seqRunEntry s = .next s) ∧
    (railMax n ≤ s.fget (F.PWD_RAIL_CFG_VSET n) → s.railCode n = railMax n) ∧
    ∀ mv, s.railReached n mv = true ↔ 9 * s.railMag n ≤ 10 * mv

/-- R177 to R179: the power-down: gates at VGL and EMIT_SUP_EN low, then the rails from the highest, each after STEP or, after a fault, at
once, until OFF with SAFE. A rail that is lost or overloaded, a hot die, the loss of EMIT_SUP_PG and a supply that fails each set their bit,
raise PWD_FAULT and start it from UP and RUN. A loss found while a normal power-down runs leaves FAULT and the power-down as they are, but
in the PWR cycle of the DOWN request it turns the power-down into that of a fault (R178, R181). A DOWN request in RUN takes effect at
T_(Hp+1) of a later PWR cycle than its own, or with TIM stopped (R177, R181).
Choices of the model it rests on: log entries 1, 29. -/
def Obligations.RailsGoDown : Prop :=
  ∀ (n : Fin 4) (s : State), s.Shaped → (∀ k ∈ s.pwd.started, k < 4) →
    (s.pwd.downReq = true → s.pwd.pos = .run → s.flag F.PWD_SEQ_STAT_EXT_PG = true →
      s.tim.run = false ∨ (s.tim.slot = s.tab.timing.active + 1 ∧ s.pwd.downAt ≠ some s.pwrCycle) →
      ∃ t, exec .downEffect s = .next t ∧ t.pwd = { s.pwd with pos := .extDown, fast := false, downReq := false } ∧
        t.fget F.PWD_SEQ_STAT_STATE = 3 ∧ t.flag F.PWD_SEQ_STAT_EXT_EN = false ∧ s.regsBut t [R.PWD_SEQ_STAT] ∧
        t = { s with regs := t.regs, cyc := t.cyc, pwd := t.pwd, cas := t.cas }) ∧
    (s.pwd.downReq = false ∨ (s.tim.run = true ∧ (s.tim.slot ≠ s.tab.timing.active + 1 ∨ s.pwd.downAt = some s.pwrCycle)) →
      exec .downEffect s = .next s) ∧
    (s.pwd.pos = .extDown → s.pwd.started.contains n.val = true → (∀ k ∈ s.pwd.started, k ≤ n.val) →
      (s.pwd.fast = false → ∃ t, exec .emitSupPgLow s = .next t ∧ t.flag F.PWD_SEQ_STAT_EXT_PG = false ∧
        t.pwd = { s.pwd with pos := .stepDown n } ∧ s.regsBut t [R.PWD_SEQ_STAT]) ∧
      (s.pwd.fast = true → ∃ t, exec .emitSupPgLow s = .next t ∧ t.pwd = { s.pwd with pos := .discharge n } ∧
        bitOf (t.fget F.PWD_SEQ_STAT_PG) n = false ∧ s.regsBut t [R.PWD_SEQ_STAT])) ∧
    (s.pwd.pos = .stepDown n →
      ∃ t, exec .seqStepDelay s = .next t ∧ t.pwd = { s.pwd with pos := .discharge n } ∧
        s.fieldOnly { t with pwd := s.pwd } F.PWD_SEQ_STAT_PG (s.fget F.PWD_SEQ_STAT_PG &&& (15 - 2 ^ n.val))) ∧
    (s.pwd.pos = .discharge n → s.pwd.uv = false →
      ((∀ k ∈ s.pwd.started, n.val ≤ k) →
        (∃ t, exec (.railDischarged n) s = .next t ∧ t.pwd = Pwd.reset ∧ t.fget F.PWD_SEQ_STAT_STATE = 0 ∧
          t.flag F.PWD_SEQ_STAT_SAFE = true ∧ t.tim.run = false ∧ t.hbm = s.hbm ∧ t.nor = s.nor) ∧
        (∃ t, exec (.dischargeTimeout n) s = .next t ∧ t.pwd = Pwd.reset ∧ t.flag F.PWD_SEQ_STAT_SAFE = true ∧
          (s.pwd.resetDue = false → bitOf (t.fget F.PWD_FAULT_DISCH_TO) n = true) ∧ t.pendingEvt 5 = true)) ∧
      (∀ k, k < n.val → s.pwd.started.contains k = true → (∀ j ∈ s.pwd.started, j < n.val → j ≤ k) → s.pwd.fast = false →
        ∃ t, exec (.railDischarged n) s = .next t ∧ t.pwd.pos = .stepDown k ∧
          t.pwd.started = s.pwd.started.filter (fun j => j != n.val) ∧ t = { s with pwd := t.pwd })) ∧
    (s.pwd.pos ≠ .discharge n → exec (.dischargeTimeout n) s = .next s) ∧
    (s.railIsGood n = true → s.pwd.pos.upOrRun = true → s.pwd.started.contains n.val = true →
      (∃ t, exec (.railLoss n) s = .next t ∧ bitOf (t.fget F.PWD_FAULT_PGLOSS) n = true ∧ t.railIsGood n = false ∧
        t.flag F.PWD_SEQ_STAT_FAULT = true ∧ t.fget F.PWD_SEQ_STAT_STATE = 3 ∧ t.pendingEvt 5 = true ∧ t.lyr = s.lyr ∧ t.hbm = s.hbm) ∧
      (∃ t, exec (.railOvercurrent n) s = .next t ∧ bitOf (t.fget F.PWD_FAULT_OC) n = true ∧
        t.flag F.PWD_SEQ_STAT_FAULT = true ∧ t.fget F.PWD_SEQ_STAT_STATE = 3 ∧ t.pendingEvt 5 = true ∧ t.lyr = s.lyr ∧ t.hbm = s.hbm)) ∧
    (s.railIsGood n = false → exec (.railLoss n) s = .next s ∧ exec (.railOvercurrent n) s = .next s) ∧
    (s.railIsGood n = true → s.normalDown = true →
      (∃ t, exec (.railLoss n) s = .next t ∧ bitOf (t.fget F.PWD_FAULT_PGLOSS) n = true ∧ t.pendingEvt 5 = true ∧ t.pwd = s.pwd ∧
        t.fget F.PWD_SEQ_STAT_STATE = s.fget F.PWD_SEQ_STAT_STATE ∧ t.flag F.PWD_SEQ_STAT_FAULT = s.flag F.PWD_SEQ_STAT_FAULT ∧
        t.lyr = s.lyr ∧ t.hbm = s.hbm) ∧
      (∃ t, exec (.railOvercurrent n) s = .next t ∧ bitOf (t.fget F.PWD_FAULT_OC) n = true ∧ t.pendingEvt 5 = true ∧ t.pwd = s.pwd ∧
        t.fget F.PWD_SEQ_STAT_STATE = s.fget F.PWD_SEQ_STAT_STATE ∧ t.flag F.PWD_SEQ_STAT_FAULT = s.flag F.PWD_SEQ_STAT_FAULT ∧
        t.lyr = s.lyr ∧ t.hbm = s.hbm)) ∧
    (s.railIsGood n = true → s.pwd.pos = .extDown → s.pwd.fast = false → s.pwd.downAt = some s.pwrCycle →
      ∃ t, exec (.railLoss n) s = .next t ∧ bitOf (t.fget F.PWD_FAULT_PGLOSS) n = true ∧ t.pendingEvt 5 = true ∧
        t.fget F.PWD_SEQ_STAT_STATE = s.fget F.PWD_SEQ_STAT_STATE ∧ t.flag F.PWD_SEQ_STAT_FAULT = true ∧
        t.pwd = { s.pwd with fast := true } ∧ t.lyr = s.lyr ∧ t.hbm = s.hbm) ∧
    ((s.pwd.pos.upOrRun = true → s.pwd.started.contains n.val = true) → ∃ t, exec .powerDieOt s = .next t ∧ t.flag F.PWD_FAULT_OT = true ∧
      t.pendingEvt 5 = true ∧ t.lyr = s.lyr ∧ t.hbm = s.hbm) ∧
    (s.pwd.pos ≠ .run → ∃ t, exec .emitSupPgFall s = .next t ∧ s.fieldOnly t F.PWD_SEQ_STAT_EXT_PG 0) ∧
    (s.pwd.pos = .run → s.pwd.started.contains 3 = true →
      ∃ t, exec .emitSupPgFall s = .next t ∧ t.flag F.PWD_FAULT_EXT_LOST = true ∧ t.flag F.PWD_SEQ_STAT_FAULT = true ∧
        t.fget F.PWD_SEQ_STAT_STATE = 3 ∧ t.flag F.PWD_SEQ_STAT_EXT_PG = false ∧ t.pendingEvt 5 = true ∧ t.hbm = s.hbm) ∧
    (∃ t, exec .vinUndervoltage s = .next t ∧ t.flag F.PWD_FAULT_VIN_UV = true ∧ t.pendingEvt 5 = true ∧
      ∃ u, exec .aonSupplyLoss s = .next u ∧ u.flag F.PWD_FAULT_AON_LOSS = true ∧ u.pendingEvt 5 = true ∧
      (s.pwd.started = [] → s.pwd.pos ≠ .stepUp 0 → t.pwd = s.pwd ∧ u.pwd = s.pwd) ∧
      (s.normalDown = true → t.pwd = s.pwd ∧ t.flag F.PWD_SEQ_STAT_FAULT = s.flag F.PWD_SEQ_STAT_FAULT) ∧
      (s.pwd.started.contains n.val = true → (∀ k ∈ s.pwd.started, k ≤ n.val) → s.pwd.pos.upOrRun = true →
        s.twinPartner = false → s.pwd.pos ≠ .stepUp 0 →
        t.flag F.PWD_SEQ_STAT_FAULT = true ∧ t.flag F.PWD_SEQ_STAT_EXT_EN = false ∧ t.fget F.PWD_SEQ_STAT_STATE = 3 ∧
        t.pwd = { s.pwd with pos := .discharge n, uv := true, fast := true, downReq := false } ∧ u.pwd = t.pwd))

/-! Bring-up, power states, temperature and the memories' own work (12, 14, 15). -/

/-- R375, R409, R367: the clocks lock and the core starts; the self-test and the flash discovery lead on or halt. R376, R377, R378: the best
remaining copy is staged and checked, a copy that fails is noted with its cause, and with none left bring-up enters RECOVERY; the sections
of a copy that passes are applied and Heath starts. R319, R380, R382: training, the ledger and the maps follow, and step 10 trains every
port.
Choices of the model it rests on: log entries 1, 50, 62. -/
def Obligations.BootSteps : Prop :=
  ∀ s : State,
    (∀ m, s.alive = true → s.pwr.core = false → s.pwr.restart = none → s.boot.state = 0 → (s.boot.step = 1 ∨ s.boot.step = 2) →
      ∃ t, exec (.bootClocksReady m) s = .next t ∧ t.boot = { s.boot with state := 1, step := 3 } ∧ t.coreRuns = true ∧
        t.fget F.PWR_AVS_STAT_VOUT = 750 ∧ t.pwr.avsV = 750 ∧ t.flag F.CLK_STAT_REF_OK = true ∧
        (m = none → t.flag F.PWR_AVS_STAT_FAIL = true ∧ t.pendingEvt 21 = true) ∧
        ∀ v, m = some v → t = { s with regs := t.regs, cyc := t.cyc, pwr := t.pwr, boot := t.boot } ∧
          s.regsBut t [R.CLK_STAT, R.PWR_AVS_STAT, R.NVM_BOOT_STAT] ∧
          (v.toNat < 32 → t.pwr.avsExp = some (sInt 5 v.toNat) ∧ t.pwr.avsOther = false) ∧
          (32 ≤ v.toNat → t.flag F.PWR_AVS_STAT_FAIL = true ∧ t.pwr.avsOther = true)) ∧
    (s.bootAtStep 1 3 = true → ∀ ok, ∃ t, exec (.bootSelftestDone ok) s = .next t ∧
      t.boot = { s.boot with state := (if ok then 2 else 7), step := (if ok then 4 else 3) } ∧
      (ok = false → t.fget F.NVM_BOOT_STAT_HALT = 2 ∧ t.stoodDown) ∧
      (ok = true ∨ s.stoodDown → t = { s with regs := t.regs, cyc := t.cyc, boot := t.boot } ∧ s.regsBut t [R.NVM_BOOT_STAT])) ∧
    (s.bootAtStep 2 4 = true →
      (∃ t, exec (.norDiscoveryDone none) s = .next t ∧ t.boot.state = 7 ∧ t.fget F.NVM_BOOT_STAT_HALT = 3 ∧ t.stoodDown ∧
        (s.stoodDown → t = { s with regs := t.regs, cyc := t.cyc, boot := t.boot })) ∧
      ∀ d : NorTables, ∃ t, exec (.norDiscoveryDone (some d)) s = .next t ∧ t.boot = { s.boot with state := 2, step := 5 } ∧
        t.fget F.NVM_MEDIA_STAT_NOR_MODE =
          (if d.sfdp = true ∧ d.readOk = true then (if d.octal then 3 else if d.quad then 2 else 1) else 1) ∧
        t.flag F.NVM_MEDIA_STAT_SFDP = d.sfdp ∧ (d.sfdp = false ∨ d.readOk = false → t.pendingEvt 23 = true) ∧
        t.fget F.NVM_MEDIA_STAT_NOR_ERR = (if d.sfdp = true ∧ d.readOk = false then min (s.fget F.NVM_MEDIA_STAT_NOR_ERR + 1) 255
          else s.fget F.NVM_MEDIA_STAT_NOR_ERR) ∧ s.keepsBase { t with boot := s.boot }) ∧
    (∀ ok, s.bootAtStep 2 5 = true →
      (s.nextCopy = none → ∃ t, exec (.imageCopyStaged ok) s = .next t ∧ t.boot = { s.boot with state := 8, step := 5 } ∧ t.stoodDown ∧
        (s.stoodDown → t = { s with regs := t.regs, cyc := t.cyc, boot := t.boot } ∧ s.regsBut t [R.NVM_BOOT_STAT])) ∧
      ∀ b, s.nextCopy = some b →
        let c := s.norRead (copyBase b) (copyLen (s.copyHdr b))
        let k := s.stageCause c ok true
        ∃ t, exec (.imageCopyStaged ok) s = .next t ∧ (k = 0 ∨ s.stoodDown → s.keepsBase { t with boot := s.boot }) ∧
          (ok = false → t.fget F.NVM_MEDIA_STAT_NOR_ERR = min (s.fget F.NVM_MEDIA_STAT_NOR_ERR + 1) 255 ∧ t.pendingEvt 23 = true) ∧
          (s.boot.tried ≠ [] → t.flag F.NVM_BOOT_STAT_FALLBACK = true ∧ t.pendingEvt 22 = true) ∧
          (k = 0 → t.boot = { s.boot with staged := some (b, c), state := 3, step := 6 }) ∧
          (k ≠ 0 → t.boot.tried = s.boot.tried ++ [b] ∧ t.boot.staged = none ∧ t.boot.step = 5 ∧
            t.fget (if b then F.NVM_BOOT_STAT_CAUSE_B else F.NVM_BOOT_STAT_CAUSE_A) = k ∧
            t.boot.state = if ({ s with boot := { s.boot with tried := s.boot.tried ++ [b] } } : State).nextCopy = none then 8 else 2)) ∧
    (s.bootAtStep 3 6 = true → ∀ b c, s.boot.staged = some (b, c) →
      (applyCause c = 0 → ∃ t, exec .sectionsApplied s = .next t ∧ t.boot.state = 4 ∧ t.boot.step = 7 ∧ t.boot.staged = none ∧
        t.fget F.MPHY_TRAIN_STAT_STATE = 1 ∧ t.fget F.MBX_HEATH_STAT_STATE = 1 ∧ t.flag F.NVM_BOOT_STAT_COPY = b ∧
        (copyRecs c 1 = [] → t.img = some (s.readImage b c) ∧ t.coef0 = coefOf c ∧ t.coef1 = coefOf c ∧ t.lut0 = lutOf c ∧
          t.lut1 = lutOf c ∧ t.codeTabs = codeTabsOf c ∧ t.tsets = copyTSets c)) ∧
      (applyCause c ≠ 0 → ∃ t, exec .sectionsApplied s = .next t ∧ t.boot.tried = s.boot.tried ++ [b] ∧ t.boot.staged = none ∧
        t.fget (if b then F.NVM_BOOT_STAT_CAUSE_B else F.NVM_BOOT_STAT_CAUSE_A) = applyCause c ∧
        t.flag F.MEM_MAP_STAT_DONE = true ∧ t.flag F.MEM_MAP_STAT_OK = masksOk (copyMasks c) ∧
        (s.stoodDown →
          t = { s with regs := t.regs, cyc := t.cyc, boot := t.boot } ∧ s.regsBut t [R.NVM_BOOT_STAT, R.MEM_MAP_STAT]))) ∧
    (s.fget F.MPHY_TRAIN_STAT_STATE ≠ 1 → ∀ f, exec (.hbmTrainingDone f) s = .next s) ∧
    (s.fget F.MPHY_TRAIN_STAT_STATE = 1 → s.bootAtStep 4 7 = true → ∀ f : Option (Fin 32),
      ∃ t, exec (.hbmTrainingDone f) s = .next t ∧ t.fget F.MPHY_TRAIN_STAT_TRAINS = min (s.fget F.MPHY_TRAIN_STAT_TRAINS + 1) 255 ∧
        t.flag F.MPHY_TRAIN_STAT_FAIL = f.isSome ∧ (f = none ∨ s.stoodDown → t.hbm = s.hbm) ∧
        (f = none → t.boot = { s.boot with state := 4, step := 8 } ∧ t.fget F.MPHY_TRAIN_STAT_STATE = 2) ∧
        ∀ pc, f = some pc → t.boot.state = 7 ∧ t.fget F.NVM_BOOT_STAT_HALT = 4 ∧ t.stoodDown ∧ t.fget F.MPHY_TRAIN_STAT_FAILPC = pc.val) ∧
    (s.bootAtStep 4 8 = true → ∀ e ok, ∃ t, exec (.ledgerRestoreDone e ok) s = .next t ∧ t.boot = { s.boot with state := 4, step := 9 } ∧
      t.flag F.DRV_LEDGER_CFG_READY = true ∧
      (s.bootBit 2 = false ∨ e = none →
        (s.inRegions [2] (s.ledgerRow 0) (17280 * 61440) = true → ∀ a, s.ledgerRow 0 ≤ a → a < s.ledgerRow 17280 → t.hbmRead a 1 = [0]) ∧
        ∀ q, (∀ a, s.ledgerRow 0 ≤ a → a < s.ledgerRow 17280 → hbmPlace s.mapMasks a ≠ q) →
          SMap.get hbmDefault t.hbm q = SMap.get hbmDefault s.hbm q)) ∧
    (s.bootAtStep 4 9 = true → (s.img.map Image.bootTset).bind s.tsetOf = none → ∀ ok, ∃ t, exec (.calmapLoadDone ok) s = .next t ∧
      t.boot = { s.boot with state := 4, step := 10 } ∧ (∀ p, p < 8 → t.fget (F.PL_STAT_STATE p) = 1) ∧ t.hbm = s.hbm) ∧
    ((s.pwr.restart ≠ none ∨ s.alive = false) → exec .bootStepTimeout s = .next s) ∧
    (s.pwr.restart = none → s.alive = true → ∀ st step cause, s.boot.state = st → s.boot.step = step →
      (st, step, cause) ∈ [(0, 1, 1), (0, 2, 1), (1, 3, 2), (2, 4, 3), (4, 7, 4)] →
      ∃ t, exec .bootStepTimeout s = .next t ∧ t.boot.state = 7 ∧ t.fget F.NVM_BOOT_STAT_HALT = cause ∧ t.stoodDown ∧
        (s.stoodDown → t = { s with regs := t.regs, cyc := t.cyc, boot := t.boot } ∧ s.regsBut t [R.NVM_BOOT_STAT])) ∧
    (s.pwr.restart = none → s.alive = true → s.bootAtStep 2 5 = true → ∀ b, s.nextCopy = some b →
      ∃ t, exec .bootStepTimeout s = .next t ∧ t.boot.tried = s.boot.tried ++ [b] ∧ t.boot.staged = none ∧ t.boot.step = 5 ∧
        1 ≤ t.fget (if b then F.NVM_BOOT_STAT_CAUSE_B else F.NVM_BOOT_STAT_CAUSE_A) ∧
        t.fget (if b then F.NVM_BOOT_STAT_CAUSE_B else F.NVM_BOOT_STAT_CAUSE_A) ≤ 12 ∧
        (s.boot.tried ≠ [] → t.flag F.NVM_BOOT_STAT_FALLBACK = true ∧ t.pendingEvt 22 = true) ∧
        (s.stoodDown → s.keepsBase { t with boot := s.boot }))

/-- R388: BYPASS, IDCODE, SAMPLE/PRELOAD and the EXTEST pulse forms act at once; EXTEST, CLAMP and HIGHZ first run the power-down of R180
unless the panel is safe, and act then. The numbers of the instructions are the model's (log entry 61).
Choices of the model it rests on: log entry 61. -/
def Obligations.TapInstructions : Prop :=
  ∀ (op : BitVec 8) (s : State),
    (s.flag F.PWD_SEQ_STAT_SAFE = true ∨ ¬ (op = 3 ∨ op = 4 ∨ op = 5) →
      ∃ t, exec (.tapInstructionLoad op) s = .next t ∧ t = { s with tap := ⟨if op.toNat ≤ 7 then op.toNat else 0, none⟩ }) ∧
    (s.flag F.PWD_SEQ_STAT_SAFE = false → (op = 3 ∨ op = 4 ∨ op = 5) → s.pwd.pos.upOrRun = false → s.leadUp = false →
      ∃ t, exec (.tapInstructionLoad op) s = .next t ∧ t = { s with tap := ⟨s.tap.ir, some op.toNat⟩ }) ∧
    (s.flag F.PWD_SEQ_STAT_SAFE = false → (op = 3 ∨ op = 4 ∨ op = 5) → s.pwd.pos.upOrRun = true → s.leadUp = false →
      ∃ t, exec (.tapInstructionLoad op) s = .next t ∧ t.pwd.pos.upOrRun = false ∧
        (t.tap = ⟨s.tap.ir, some op.toNat⟩ ∨ t.flag F.PWD_SEQ_STAT_SAFE = true ∧ t.tap = ⟨op.toNat, none⟩) ∧
        (s.flag F.PWD_SEQ_STAT_EXT_PG = true → t.pwd.pos = .extDown ∧ t.tap.waiting = some op.toNat ∧
          t = { s with regs := t.regs, cyc := t.cyc, pwd := t.pwd, cas := t.cas, tap := t.tap } ∧ s.regsBut t [R.PWD_SEQ_STAT])) ∧
    (s.flag F.PWD_SEQ_STAT_SAFE = false → (op = 3 ∨ op = 4 ∨ op = 5) → s.leadUp = true →
      ∃ t, exec (.tapInstructionLoad op) s = .next t ∧ t.tap = ⟨s.tap.ir, some op.toNat⟩ ∧ t.pwd = s.pwd ∧
        t = { s with cas := t.cas, tap := t.tap } ∧
        (s.cas.ports.length = 5 → s.casState ≠ 7 → s.casUp 0 = true → (s.casPort 0).waiting = [] →
          (t.casPort 0).wire = (s.casPort 0).wire ++ [{ s.ownCell .turn false 0 (s.turnWith 1 3) with ack := (s.casPort 0).rxNext }]))

/-- R404, R405, R406: each step of the chain begins only where it is due from the state that stands; RUN to IDLE asks for the end of
synthesis, drive and rails; STANDBY and DEEP stop the core, STANDBY with HBM in self-refresh; the way back starts the clocks, training and
the ports, or bring-up at step 2; running jobs hold STANDBY up until their grace ends. A wake source asks for the state of WAKE_TO where it
is enabled.
Choices of the model it rests on: log entries 1, 64. -/
def Obligations.PowerChain : Prop :=
  ∀ (cas : Bool) (port : Fin 5) (s : State), s.Shaped →
    ((s.pwr.due ≠ some 1 ∨ s.pstate ≠ 0) → exec .runToIdle s = .next s) ∧
    ((s.pwr.due ≠ some 2 ∨ s.pstate ≠ 1) → exec .idleToStandby s = .next s) ∧
    ((s.pwr.due ≠ some 1 ∨ s.pstate ≠ 2) → exec .standbyToIdle s = .next s) ∧
    ((s.pwr.due ≠ some 0 ∨ s.pstate ≠ 1) → exec .idleToRun s = .next s) ∧
    ((s.pwr.due ≠ some 3 ∨ s.pstate ≠ 1) → exec .idleToDeep s = .next s) ∧
    ((s.pwr.due ≠ some 1 ∨ s.pstate ≠ 3) → exec .deepToIdle s = .next s) ∧
    (s.pwr.grace = false → exec .jobGraceExpiry s = .next s) ∧
    (s.pwr.due = some 1 → s.pstate = 0 → s.pwd.pos = .run → s.tim.run = true →
      ∃ t, exec .runToIdle s = .next t ∧ t.pwr = { s.pwr with due := none, going := some 1 } ∧ t.lyr.heldSyn = some false ∧
        t.lyr.heldDrv = some false ∧ t.pwd.downReq = true ∧ t.tim = s.tim ∧ t.hbm = s.hbm) ∧
    (s.pwr.due = some 2 → s.pstate = 1 → s.jobsRunning = 0 →
      ∃ t, exec .idleToStandby s = .next t ∧ t.pstate = 2 ∧ t.pendingEvt 21 = true ∧ t.mem.selfRefresh = true ∧
        (∀ k, t.mem.owed.getD k 0 = if k < 32 then 0 else s.mem.owed.getD k 0) ∧ t.coreRuns = false ∧ t.pwr.avsOn = false ∧
        t.hbm = s.hbm ∧ t.img = s.img ∧
        (∀ p, p < 2 → t.fget (F.ING_STAT_STATE p) = 0) ∧ (∀ n, n < 5 → t.fget (F.CAS_PORT_STAT_STATE n) = 0) ∧
        (s.flag F.PWR_AVS_STAT_FAIL = false → t.fget F.PWR_AVS_STAT_VOUT = 650 ∨ t.flag F.PWR_AVS_STAT_FAIL = true)) ∧
    (s.pwr.due = some 2 → s.pstate = 1 → s.jobsRunning ≠ 0 →
      ∃ t, exec .idleToStandby s = .next t ∧ t.pwr = { s.pwr with due := none, going := some 2, grace := true, avsOn := false } ∧
        t.pstate = 1 ∧ t.jobs = s.jobs ∧ t.flag F.CAL_STAT_RUNNING = false) ∧
    (s.pwr.grace = true → ∃ t, exec .jobGraceExpiry s = .next t ∧ t.pstate = 2 ∧ t.jobsRunning = 0 ∧ t.pwr.grace = false ∧
      t.mem.selfRefresh = true) ∧
    (s.pwr.due = some 1 → s.pstate = 2 →
      ∃ t, exec .standbyToIdle s = .next t ∧ t.pwr.going = some 1 ∧ t.pwr.avsOn = true ∧ t.flag F.CLK_STAT_C_LOCK = true ∧
        t.mem = { s.mem with selfRefresh := false } ∧ t.fget F.MPHY_TRAIN_STAT_STATE = 1 ∧ t.hbm = s.hbm ∧
        (∀ p, p < 2 → s.flag (F.ING_CTL_EN p) = true → t.fget (F.ING_STAT_STATE p) = 1)) ∧
    (s.fget F.MPHY_TRAIN_STAT_STATE = 1 → s.pwr.going = some 1 → s.pstate = 2 → s.bootAtStep 4 7 = false → ∀ f,
      ∃ t, exec (.hbmTrainingDone f) s = .next t ∧ t.pstate = 1 ∧ t.pendingEvt 21 = true ∧ t.pwr.going = none ∧ t.hbm = s.hbm) ∧
    (s.pwr.due = some 0 → s.pstate = 1 →
      ∃ t, exec .idleToRun s = .next t ∧ t.pwr = { s.pwr with due := none, going := some 0 } ∧
        (∀ p, p < 8 → t.fget (F.PL_STAT_STATE p) = 1 ∧ (t.plPort p).stage = .presence) ∧ t.lyr = s.lyr ∧ t.hbm = s.hbm) ∧
    (s.pwr.due = some 3 → s.pstate = 1 → s.flag F.PWR_WAKE_CFG_SAVE_LEDGER = false →
      ∃ t, exec .idleToDeep s = .next t ∧ t.pstate = 3 ∧ t.pendingEvt 21 = true ∧ t.hbm = [] ∧ t.swd = [] ∧ t.img = none ∧
        t.pwr.core = false ∧ t.fget F.MBX_HEATH_STAT_STATE = 0 ∧ t.lyr.turn = 0 ∧ t.slots = State.reset.slots ∧
        t.nor = s.nor ∧ t.fuses = s.fuses) ∧
    (s.pwr.due = some 3 → s.pstate = 1 → s.flag F.PWR_WAKE_CFG_SAVE_LEDGER = true → s.heath.ledgerSave = none →
      (∀ n a, s.ledgerOldest = some (n, a) → s.heathRing ≠ none →
        ∃ t, exec .idleToDeep s = .next t ∧ t.pstate = 1 ∧ t.pwr.going = some 3 ∧ ∃ l, t.heath.ledgerSave = some l ∧ l.area = n ∧
          l.req = none ∧ l.snap = none ∧ l.seq = if s.areaValid a then s.areaSeq a + 1 else 1) ∧
      (s.ledgerOldest = none ∨ s.heathRing = none →
        ∃ t, exec .idleToDeep s = .next t ∧ t.pstate = 3 ∧ t.pendingEvt 21 = true ∧ t.pendingEvt 23 = true ∧ t.hbm = [] ∧ t.swd = [] ∧
          t.pwr.core = false)) ∧
    (s.pwr.due = some 1 → s.pstate = 3 →
      ∃ t, exec .deepToIdle s = .next t ∧ t.pwr = { s.pwr with due := none, going := some 1, supEn := true } ∧
        t.boot = { s.boot with state := 0, step := 2 } ∧ t = { s with regs := t.regs, cyc := t.cyc, pwr := t.pwr, boot := t.boot } ∧
        s.regsBut t [R.MBX_HEATH_STAT, R.NVM_BOOT_STAT]) ∧
    ((s.pstate ≠ 2 → s.pstate ≠ 3 → exec (.wakeDetect cas port) s = .next s) ∧
      (cas = false → bitOf s.pwr.ingDet port = false → exec (.wakeDetect cas port) s = .next s) ∧
      (s.flag F.PWR_WAKE_CFG_CAS = false → cas = true → exec (.wakeDetect cas port) s = .next s) ∧
      (s.pstate = 2 → cas = true → s.flag F.PWR_WAKE_CFG_CAS = true → s.fget F.PWR_WAKE_CFG_WAKE_TO = 1 → s.pwr.due = none →
        s.pwr.going = none →
        ∃ t, exec (.wakeDetect cas port) s = .next t ∧ t.fget F.PWR_STATE_STAT_WAKE = 3 ∧ t.fget F.PWR_STATE_STAT_TARGET = 1 ∧
          t.fget F.PWR_STATE_STAT_RESULT = 0 ∧ t.pwr = { s.pwr with due := some 1 } ∧
            t = { s with regs := t.regs, cyc := t.cyc, pwr := t.pwr } ∧
          s.regsBut t [R.PWR_STATE_STAT])) ∧
    ((s.pstate = 0 ∨ s.fget F.PWR_WAKE_TIMER_SECONDS = 0) → exec .wakeTimerExpiry s = .next s) ∧
    (s.pstate ≠ 0 → s.fget F.PWR_WAKE_TIMER_SECONDS ≠ 0 → s.flag F.PWR_WAKE_CFG_TIMER = false →
      ∃ t, exec .wakeTimerExpiry s = .next t ∧ s.fieldOnly t F.PWR_WAKE_TIMER_SECONDS 0) ∧
    (s.pstate = 2 → s.fget F.PWR_WAKE_TIMER_SECONDS ≠ 0 → s.flag F.PWR_WAKE_CFG_TIMER = true → s.fget F.PWR_WAKE_CFG_WAKE_TO = 1 →
      s.pwr.due = none → s.pwr.going = none →
      ∃ t, exec .wakeTimerExpiry s = .next t ∧ t.fget F.PWR_STATE_STAT_WAKE = 6 ∧ t.fget F.PWR_STATE_STAT_TARGET = 1 ∧
        t.pwr = { s.pwr with due := some 1 } ∧ s.regsBut t [R.PWR_STATE_STAT, R.PWR_WAKE_TIMER])

/-- R410, R411: a window with little slack raises VDD_CORE by 10 mV up to VMAX, ten with much lower it by 5 mV down to VMIN, and a command
that fails leaves it and sets FAIL until a retry succeeds; the loop that is off does nothing.
Choices of the model it rests on: log entry 56. -/
def Obligations.VoltageScaling : Prop :=
  ∀ (k : BitVec 6) (ack : Bool) (s : State),
    (s.avsActive = false → exec (.avsWindow k ack) s = .next s ∧ exec (.avsLower ack) s = .next s) ∧
    (s.avsActive = true →
      (let v := min (s.pwr.avsV + 10) (avsLimit (s.fget F.PWR_AVS_LIM_VMAX))
       k.toNat < s.fget F.PWR_AVS_CFG_M_LOW → v ≠ s.pwr.avsV →
        (ack = true → ∃ t, exec (.avsWindow k ack) s = .next t ∧ t.fget F.PWR_AVS_STAT_MARGIN = k.toNat ∧
          t.fget F.PWR_AVS_STAT_VOUT = v ∧ t.pwr = { s.pwr with avsV := v, avsHi := 0, avsCmd := voutWord (s.pwr.avsExp.getD 0) v } ∧
          t = { s with regs := t.regs, cyc := t.cyc, pwr := t.pwr } ∧ s.regsBut t [R.PWR_AVS_STAT]) ∧
        (ack = false → ∃ t, exec (.avsWindow k ack) s = .next t ∧ t.flag F.PWR_AVS_STAT_FAIL = true ∧ t.pendingEvt 21 = true ∧
          t.fget F.PWR_AVS_STAT_VOUT = s.fget F.PWR_AVS_STAT_VOUT ∧ t.pwr = { s.pwr with avsHi := 0 })) ∧
      (k.toNat < s.fget F.PWR_AVS_CFG_M_LOW → s.pwr.avsV = min (s.pwr.avsV + 10) (avsLimit (s.fget F.PWR_AVS_LIM_VMAX)) →
        ∃ t, exec (.avsWindow k ack) s = .next t ∧ t.pwr = { s.pwr with avsHi := 0 } ∧
          t = { s with regs := t.regs, cyc := t.cyc, pwr := t.pwr } ∧
          s.regsBut t [R.PWR_AVS_STAT] ∧ t.fget F.PWR_AVS_STAT_VOUT = s.fget F.PWR_AVS_STAT_VOUT) ∧
      (s.fget F.PWR_AVS_CFG_M_LOW ≤ k.toNat →
        ∃ t, exec (.avsWindow k ack) s = .next t ∧ s.fieldOnly { t with pwr := s.pwr } F.PWR_AVS_STAT_MARGIN k.toNat ∧
          t.pwr = { s.pwr with avsHi := if s.fget F.PWR_AVS_CFG_M_HIGH < k.toNat then min 10 (s.pwr.avsHi + 1) else 0 }) ∧
      (s.pwr.avsHi ≠ 10 → exec (.avsLower ack) s = .next s) ∧
      (let v := max (s.pwr.avsV - 5) (avsLimit (s.fget F.PWR_AVS_LIM_VMIN))
       s.pwr.avsHi = 10 → v ≠ s.pwr.avsV → v < 1024 → ack = true →
        ∃ t, exec (.avsLower ack) s = .next t ∧ t.fget F.PWR_AVS_STAT_VOUT = v ∧
          t.pwr = { s.pwr with avsV := v, avsHi := 0, avsCmd := voutWord (s.pwr.avsExp.getD 0) v } ∧
          t = { s with regs := t.regs, cyc := t.cyc, pwr := t.pwr } ∧ s.regsBut t [R.PWR_AVS_STAT])) ∧
    ((s.flag F.PWR_AVS_STAT_FAIL = false ∨ ack = false ∨ s.pwr.avsOther = true) → exec (.avsRetry ack) s = .next s) ∧
    (s.flag F.PWR_AVS_STAT_FAIL = true → ack = true → s.pwr.avsOther = false → ∃ t, exec (.avsRetry ack) s = .next t ∧
      t.fget F.PWR_AVS_STAT_VOUT = s.fget F.PWR_AVS_STAT_VOUT ∧ t.pendingEvt 21 = true ∧
      t = { s with regs := t.regs, cyc := t.cyc, ses := t.ses, evtTurn := t.evtTurn, pwr := t.pwr, free := t.free } ∧
      (∀ e, s.pwr.avsExp = some e → t.flag F.PWR_AVS_STAT_FAIL = false ∧ t.free = s.free ∧
        t.pwr = { s.pwr with avsCmd := voutWord e (s.fget F.PWR_AVS_STAT_VOUT) }) ∧
      (s.pwr.avsExp = none → t.free = s.free + 1 ∧ t.pwr.avsCmd = s.pwr.avsCmd ∧
        ((t.flag F.PWR_AVS_STAT_FAIL = false ∧ t.pwr.avsExp.isSome = true) ∨
         (t.flag F.PWR_AVS_STAT_FAIL = true ∧ t.pwr.avsOther = true ∧ t.pwr.avsExp = none))))

/-- R412, R413, R414, R415, R444, R419: the tick of the temperature model samples the sensors, keeps the peak, smooths a zone that reports
and lets a waiting pin reset of a tripped device take effect once it is cool; an NTC conversion within its range gives its temperature; the
thermal loop moves to the level that the temperature gives, with its event, and CRIT asks for IDLE; a converter's trim moves one code toward
its target. R391, R393, R406: the crystal, the trim of the fast oscillator with the wake timer, and the slow clock's count of the time base.
Choices of the model it rests on: log entries 1, 54, 55, 67. -/
def Obligations.TemperatureAndClocks : Prop :=
  ∀ (die : List (BitVec 16)) (tpd : BitVec 16) (n : Fin 2) (code : BitVec 12) (r : Fin 4) (s : State),
    (s.pwr.por = true → exec (.tempModelTick die tpd) s = .next s) ∧
    (s.pwr.por = false → s.pwr.tripped = false → die.length = 16 →
      ∃ t, exec (.tempModelTick die tpd) s = .next t ∧ t = { s with regs := t.regs, cyc := t.cyc } ∧
        (∀ k v, die[k]? = some v → t.fget (F.CAL_DIE_TEMP_TEMP k) = v.toNat) ∧ t.fget F.CAL_TJ_TPD = tpd.toNat ∧
        (∃ v ∈ die, t.fget F.CAL_TJ_TJ = v.toNat ∧ ∀ w ∈ die, w.toInt ≤ v.toInt) ∧
        t16 (t.fget F.CAL_THERM_STAT_PEAK) = max (t16 (s.fget F.CAL_THERM_STAT_PEAK)) t.tj ∧
        (∀ z v, z < s.geom.ng → z < 128 → s.zoneReport z = some v → t.fget (F.CAL_ZONE_TEMP_SRC z) = 0 ∧
          t.fget (F.CAL_ZONE_TEMP_TEMP z) = uInt 16 (if s.fget (F.CAL_ZONE_TEMP_SRC z) = 0
            then s.zoneTemp z + (4 * (v : Int) - 640 - s.zoneTemp z) / 8 else 4 * (v : Int) - 640))) ∧
    (s.pwr.por = false → s.pwr.tripped = true → s.pwr.tripReset = true → s.pwr.restart = none → die.length = 16 →
      (∀ v ∈ die, v.toInt < 1760) → ∃ t, exec (.tempModelTick die tpd) s = .next t ∧ t.pwr.tripped = false ∧
        t.pwr.restart = some 1 ∧ t.fget F.PWR_RESET_STAT_LAST = 1 ∧ t.pwr.core = false) ∧
    (5 * 4096 ≤ 100 * code.toNat → 100 * code.toNat ≤ 95 * 4096 → ∃ t, exec (.ntcSample n code) s = .next t ∧
      t.flag (F.CAL_NTC_VALID n) = true ∧ t.fget (F.CAL_NTC_TEMP n) = uInt 16 (ntcTemp code.toNat) ∧ s.regsOnly t [R.CAL_NTC n]) ∧
    ((100 * code.toNat < 5 * 4096 ∨ 95 * 4096 < 100 * code.toNat) → ∃ t, exec (.ntcSample n code) s = .next t ∧
      t.flag (F.CAL_NTC_VALID n) = false ∧ t = { s with regs := t.regs, cyc := t.cyc, free := t.free } ∧ s.regsBut t [R.CAL_NTC n]) ∧
    (s.nextLevel s.tj = s.fget F.CAL_THERM_STAT_LEVEL → s.flag F.CAL_CTL_EN = false → exec .thermalTick s = .next s) ∧
    (s.nextLevel s.tj ≠ s.fget F.CAL_THERM_STAT_LEVEL →
      ∃ t, exec .thermalTick s = .next t ∧ t.fget F.CAL_THERM_STAT_LEVEL = s.nextLevel s.tj ∧ t.pendingEvt 19 = true ∧
        (s.gradeLimits.2 + 160 ≤ s.tj → t.fget F.CAL_THERM_STAT_LEVEL = 4 ∧
          (s.pstate = 0 → s.pwr.due = none → s.pwr.going = none → t.fget F.PWR_STATE_STAT_TARGET = 1 ∧
            t.pwd.pos.upOrRun = false))) ∧
    ((s.railIsGood r && s.seqRun) = false → exec (.convTrimStep r) s = .next s) ∧
    ((s.railIsGood r && s.seqRun) = true → ∀ l, s.cal.conv[r.val]? = some l →
      ∃ t, exec (.convTrimStep r) s = .next t ∧ t = { s with cal := { s.cal with conv := t.cal.conv } } ∧
        let l' := t.cal.conv.getD r []
        t.cal.conv = setNth s.cal.conv r l' ∧ l'.map Prod.snd = l.map Prod.snd ∧
        (l.map (fun e => ((e.1 : Int) - (e.2 : Int)).natAbs)).sum =
          (l'.map (fun e => ((e.1 : Int) - (e.2 : Int)).natAbs)).sum + (if l.all (fun e => e.1 == e.2) then 0 else 1)) ∧
    (∃ t, exec .xtalStart s = .next t ∧ s.fieldOnly t F.CLK_STAT_XTAL 1) ∧
    (∃ t, exec .aonfTrim s = .next t ∧ s.regsOnly t [R.CLK_STAT, R.PWR_WAKE_TIMER] ∧
      t.flag F.CLK_STAT_TRIMMED = (s.flag F.CLK_STAT_TRIMMED || s.flag F.CLK_STAT_XTAL) ∧
      t.fget F.PWR_WAKE_TIMER_SECONDS = if s.pstate ≠ 0 ∧ 1 < s.fget F.PWR_WAKE_TIMER_SECONDS
        then s.fget F.PWR_WAKE_TIMER_SECONDS - 1 else s.fget F.PWR_WAKE_TIMER_SECONDS) ∧
    (∃ t, exec .aonsTick s = .next t ∧ t = { s with time := t.time, clock := t.clock, cyc := t.cyc } ∧
      t.cyc = (if s.coreRuns = true ∨ s.pwr.por = true then s.cyc else Cyc.reset) ∧
      t.time = (if s.coreRuns = true ∨ s.pwr.por = true then s.time else (s.time + 2000000000) % 2 ^ 80) ∧
      t.clock = if s.coreRuns = true ∨ s.pwr.por = true then s.clock else s.clock + 2000000000)

/-- R313, R318, R320: a refresh falls due, is issued with those owed unless real-time traffic panics, and is forced once eight are owed; it
closes the rows of its pseudo-channel alone, and with the channel idle each of its delay lines moves at most one tap a refresh toward its
target. R314: the panic is that of a client's FIFO level, a free value within the FIFO that WORST bounds. R309: the scrub reads the next
line and counts what it finds; an uncorrectable error in Heath data is a fault of Heath. R313, R391: an idle bank's row closes while MEM's
clock runs.
Choices of the model it rests on: log entries 7, 20, 68. -/
def Obligations.MemoryKeeping : Prop :=
  ∀ (pc : Fin 32) (hot panic idle : Bool) (sid : Fin 3) (bank : Fin 16) (ecc : EccResult) (s : State),
    ((s.mem.selfRefresh = true ∨ s.coreRuns = false) → exec (.refreshDue pc hot panic idle) s = .next s) ∧
    (s.mem.selfRefresh = false → s.coreRuns = true → s.mem.owed.length = 32 → s.mem.dq.length = 32 → s.mem.levels.length = 9 →
      let n := s.mem.owed.getD pc 0
      ∃ t, exec (.refreshDue pc hot panic idle) s = .next t ∧ t = { s with regs := t.regs, cyc := t.cyc, mem := t.mem, free := t.free } ∧
        t.mem = { s.mem with owed := t.mem.owed, openRows := t.mem.openRows, dq := t.mem.dq, levels := t.mem.levels } ∧
        t.flag F.MEM_REF_STAT_HOT = hot ∧
        (s.mem.served = false → t.free = s.free ∧ t.mem.levels = s.mem.levels) ∧
        (s.mem.served = true → t.free = s.free + 5 ∧ ∀ c : Fin 5, t.level c ≤ fifoLines c ∧
          if c.val = 1 then t.level c ≤ t.fget (F.MEM_CLIENT_STAT_WORST c) else t.fget (F.MEM_CLIENT_STAT_WORST c) ≤ t.level c) ∧
        (∀ k : Fin 32, k ≠ pc → t.mem.owed[k.val]? = s.mem.owed[k.val]? ∧ t.mem.dq[k.val]? = s.mem.dq[k.val]?) ∧
        let held := panic && t.inPanic
        (held = true → n < 8 → t.mem.openRows = s.mem.openRows ∧ t.mem.dq = s.mem.dq ∧ t.mem.owed[pc.val]? = some (n + 1)) ∧
        (held = true → 8 ≤ n → t.mem.owed = s.mem.owed ∧
          t.fget F.MEM_REF_STAT_FORCED = min (s.fget F.MEM_REF_STAT_FORCED + 1) 65535) ∧
        (held = false → t.mem.owed[pc.val]? = some 0) ∧
        (held = false ∨ 8 ≤ n →
          (∀ e, e ∈ t.mem.openRows ↔ e ∈ s.mem.openRows ∧ e.1 / 48 ≠ pc.val) ∧
          (idle = false → t.mem.dq = s.mem.dq) ∧
          (idle = true → ∀ (i : Nat) (d : DqLine), (s.mem.dq.getD pc.val ([] : List DqLine))[i]? = some d →
            ∃ d' : DqLine, (t.mem.dq.getD pc.val ([] : List DqLine))[i]? = some d' ∧ d' = { d with code := d'.code } ∧
            ((d'.code : Int) - (d.target : Int)).natAbs =
              ((d.code : Int) - (d.target : Int)).natAbs - (if held then 1 else n + 1)))) ∧
    (s.coreRuns = false → exec (.scrubRead ecc) s = .next s) ∧
    (s.coreRuns = true →
      ∃ t, exec (.scrubRead ecc) s = .next t ∧ t.mem = { s.mem with scrub := (s.mem.scrub + 1) % (0x14000000 / 64) } ∧
        t.hbm = s.hbm ∧ t.swd = s.swd ∧
        (ecc = .clean → t = { s with mem := t.mem }) ∧
        (ecc = .corrected → s.regsBut t [R.SWD_ECC_CNT] ∧ t = { s with regs := t.regs, cyc := t.cyc, mem := t.mem } ∧
          t.fget F.SWD_ECC_CNT_CORR = min (s.fget F.SWD_ECC_CNT_CORR + 1) 65535) ∧
        (ecc = .uncorrectable → t.pendingEvt 9 = true ∧ (0x12908000 ≤ 64 * s.mem.scrub → s.fget F.MBX_HEATH_STAT_STATE = 1 →
          t.fget F.MBX_HEATH_STAT_STATE = 3 ∧ t.pendingEvt 16 = true))) ∧
    (s.coreRuns = false → exec (.pageIdleClose pc sid bank) s = .next s) ∧
    (s.coreRuns = true →
      ∃ t, exec (.pageIdleClose pc sid bank) s = .next t ∧ t = { s with mem := { s.mem with openRows := t.mem.openRows } } ∧
        ∀ e, e ∈ t.mem.openRows ↔ e ∈ s.mem.openRows ∧ e.1 ≠ pc.val * 48 + sid.val * 16 + bank.val)

/-! The cascade (11). -/

/-- R274, R275, R302, R303: a port comes UP where CAS_CTL enables it, with its clash flag where head meets head; the upstream one leaves the
device unnumbered, a downstream one is due the system fences. An UP port that is lost restarts its sequence spaces, and upstream a follower
goes on in HOLDOVER, with no delay estimate. R275, R279: ALIGN periods, retransmission with its count, and the ECHO that carries ACK on an
idle link. R286: ECHO requests, replies and the average of 16 delays; a missing reply makes the estimate invalid.
Choices of the model it rests on: log entries 44, 46. -/
def Obligations.CascadeLinks : Prop :=
  ∀ (n : Fin 5) (peer : CasPartner) (cell : List Byte) (c : Cell) (s : State), s.Shaped →
    let st := s.fget (F.CAS_PORT_STAT_STATE n)
    ((s.casEnabled n = false ∨ (st ≠ 1 ∧ st ≠ 3) ∨ casLanesOk peer.lanes = false) → exec (.casPortUp n peer) s = .next s) ∧
    (s.casEnabled n = true → (st = 1 ∨ st = 3) → casLanesOk peer.lanes = true →
      ∃ t, exec (.casPortUp n peer) s = .next t ∧ t.fget (F.CAS_PORT_STAT_STATE n) = 2 ∧ t.fget (F.CAS_PORT_STAT_LOCKED n) = 15 ∧
        t.flag (F.CAS_PORT_STAT_HEADCLASH n) = (peer.head && (s.isHead || n.val == 0)) ∧
          t = { s with regs := t.regs, cyc := t.cyc, cas := t.cas } ∧
        (n.val = 0 → t.cas = s.cas ∧ t.flag F.CAS_STAT_HEADCLASH = peer.head) ∧
        (n.val = 0 → peer.head = false → t.numbered = false ∧ t.flag F.CAS_STAT_NUMBERED = false ∧
          t.casState = if s.casState = 1 ∨ (s.casState = 4 ∧ s.tim.run = false) then 2 else s.casState) ∧
        (1 ≤ n.val → (peer.head && s.isHead) = false → (n.val, 0) ∈ t.cas.fencesDue)) ∧
    (st ≠ 2 → exec (.casPortDown n) s = .next s) ∧
    (st = 2 → ∃ t, exec (.casPortDown n) s = .next t ∧ t.fget (F.CAS_PORT_STAT_STATE n) = 3 ∧ t.fget (F.CAS_PORT_STAT_LOCKED n) = 0 ∧
      t.fget (F.CAS_PORT_STAT_DOWNS n) = min (s.fget (F.CAS_PORT_STAT_DOWNS n) + 1) 255 ∧
      t.casPort n = { s.casPort n with txSeq := 0, rxNext := 0, unacked := [], waiting := [] } ∧
      (n.val = 0 → t.cas.parent = none ∧ t.cas.echoes = [] ∧ t.flag F.CAS_DELAY_VALID = false ∧ t.cas.enum = none ∧
        (s.casState ≠ 7 → t.casState = 4)) ∧ t.lyr = s.lyr ∧ t.tim = s.tim ∧ t.hbm = s.hbm) ∧
    (st = 0 → exec (.cascadeAlignPeriod n) s = .next s) ∧
    (st ≠ 0 → ∃ t, exec (.cascadeAlignPeriod n) s = .next t ∧
      t.casPort n = { s.casPort n with align := (s.casPort n).align + 1, aligned := (t.casPort n).aligned } ∧
      (t.casPort n).aligned = (s.casPort n).aligned ++ (List.range 4).map (fun l => alignBlk l 0x80 (s.casPort n).align) ∧
      t = { s with cas := { s.cas with ports := t.cas.ports }, cal := t.cal } ∧ ∀ k : Fin 5, k ≠ n → t.casPort k = s.casPort k) ∧
    ((s.casUp n = false ∨ (s.casPort n).unacked = []) → exec (.cellRetransmit n) s = .next s) ∧
    (s.casUp n = true → (s.casPort n).unacked ≠ [] →
      ∃ t, exec (.cellRetransmit n) s = .next t ∧ t = { s with regs := t.regs, cyc := t.cyc, cas := { s.cas with ports := t.cas.ports } } ∧
        (t.casPort n).wire = (s.casPort n).wire ++ (s.casPort n).unacked.map (fun d => { d with ack := (s.casPort n).rxNext }) ∧
        (t.casPort n).unacked = (s.casPort n).unacked ∧ (∀ k : Fin 5, k ≠ n → t.casPort k = s.casPort k) ∧
        t.fget (F.CAS_PORT_STAT_RETX n) = min (s.fget (F.CAS_PORT_STAT_RETX n) + 1) 65535 ∧ s.regsBut t [R.CAS_PORT_STAT n]) ∧
    (s.casUp n = false → exec (.cellIdleEcho n) s = .next s) ∧
    (s.casUp n = true → ∃ t, exec (.cellIdleEcho n) s = .next t ∧ s.portsOnly t ∧ s.cellSent t n 2 (leBytes 8 0) ∧
      ∀ k : Fin 5, k ≠ n → t.casPort k = s.casPort k) ∧
    ((s.isHead = true ∨ s.casUp 0 = false) → exec .echoRequestSend s = .next s) ∧
    (s.isHead = false → s.casUp 0 = true →
      let id := (s.cas.echoId + 1) % 256
      ∃ t, exec .echoRequestSend s = .next t ∧ t = { s with cas := t.cas } ∧ t.cas.echoId = id ∧
        t.cas.echoes = s.cas.echoes ++ [(id, s.clock)] ∧
        s.cellSent t 0 2 (leBytes 1 1 ++ leBytes 1 id ++ leBytes 2 0 ++ leBytes 4 0)) ∧
    ((s.casUp n = false ∨ readCell cell = none) → exec (.echoRequest n cell) s = .next s ∧ exec (.echoReply n cell) s = .next s) ∧
    (s.arrives n .echo cell c → 1 ≤ n.val → byteAt c.payload 0 = 1 →
      ∃ t, exec (.echoRequest n cell) s = .next t ∧
        t = { s with cas := { s.cas with ports := t.cas.ports, fencesDue := t.cas.fencesDue }, free := s.free + 1 } ∧
        t.cas.fencesDue = s.cas.fencesDue.map (fun d => if d.1 = n.val then (d.1, d.2 + 1) else d) ∧
        ∃ ta, s.cellSent t n 2 (leBytes 1 2 ++ leBytes 1 (byteAt c.payload 1) ++ leBytes 2 0 ++ leBytes 4 ta)) ∧
    (s.arrives n .echo cell c → (n.val = 0 ∨ byteAt c.payload 0 ≠ 1) → ∃ t, exec (.echoRequest n cell) s = .next t ∧ s.portsOnly t) ∧
    (s.arrives n .echo cell c → (n.val ≠ 0 ∨ s.isHead = true ∨ byteAt c.payload 0 ≠ 2 ∨
        s.cas.echoes.find? (fun e => e.1 == byteAt c.payload 1) = none) →
      ∃ t, exec (.echoReply n cell) s = .next t ∧ s.portsOnly t) ∧
    (∀ e, s.arrives n .echo cell c → n.val = 0 → s.isHead = false → byteAt c.payload 0 = 2 →
      s.cas.echoes.find? (fun e => e.1 == byteAt c.payload 1) = some e →
      let d := (psOfUnits ((s.clock : Int) - (e.2 : Int)) - (leAt c.payload 4 4 : Int)).toNat / 2
      ∃ t, exec (.echoReply n cell) s = .next t ∧ t.cas.echoes = s.cas.echoes.filter (fun q => q.1 != e.1) ∧
        t.cas.delays = (d :: s.cas.delays).take 16 ∧ t = { s with regs := t.regs, cyc := t.cyc, cas := t.cas } ∧ s.regsBut t [R.CAS_DELAY] ∧
        (s.cas.delays.length < 15 → t.regs = s.regs) ∧
        (15 ≤ s.cas.delays.length → t.flag F.CAS_DELAY_VALID = true ∧ t.fget F.CAS_DELAY_D = min (2 ^ 20 - 1) (t.cas.delays.sum / 16))) ∧
    (s.cas.echoes = [] → exec .echoReplyMissing s = .next s) ∧
    (∀ e l, s.cas.echoes = e :: l → ∃ t, exec .echoReplyMissing s = .next t ∧ t.flag F.CAS_DELAY_VALID = false ∧
      t = { s with regs := t.regs, cyc := t.cyc, cas := { s.cas with delays := [], echoes := l } } ∧ s.regsBut t [R.CAS_DELAY])

/-- R281, R282, R284: a device that is assigned a number takes it with its level, numbers the first downstream port that is UP from the next
and waits for its DONE, or, with none UP, reports a subtree of one upward; an excluded one takes no number and passes the exclusion on. A
DONE gives the awaited port's size; the next port that is UP is numbered from after it, and with none left the enumeration ends. R287, R289:
a TURN cell of the parent, of either KIND, gives a follower its parent's turn, and with a valid delay the time base, forward at once and
backward by holding the count. R301: a SEQST cell of a pair is noted, a twin partner mirrors it, and a fault or a DOWN of the other device
is one here too.
Choices of the model it rests on: log entries 45, 46, 47. -/
def Obligations.CascadeTree : Prop :=
  ∀ (n : Fin 5) (cell : List Byte) (c : Cell) (s : State), s.Shaped →
    -- what a TURN cell of the parent does
    let followed := fun (t : State) =>
      let tick := s.tickTime c.payload
      t.cas.parent = some (readParent c.payload) ∧
        (s.flag F.CAS_DELAY_VALID = false → t.time = s.time ∧ t.casState = s.casState) ∧
        (s.flag F.CAS_DELAY_VALID = true → (s.time ≤ tick → t.time = tick % 2 ^ 80 ∧ t.cas.hold = 0) ∧
          (tick < s.time → t.time = s.time ∧ t.cas.hold = s.time - tick) ∧
          (s.tim.run = false → (s.casState = 1 ∨ s.casState = 2 ∨ s.casState = 4 ∨ s.casState = 5) → t.casState = 3) ∧
          (s.casState = 6 → t.casState = if s.tim.restart then 3 else 6))
    ((s.casUp n = false ∨ readCell cell = none) → exec (.enumAssign n cell) s = .next s ∧ exec (.enumDone n cell) s = .next s ∧
      exec (.turnTick n cell) s = .next s ∧ exec (.turnSeqst n cell) s = .next s) ∧
    (s.arrives n .enum cell c → n.val = 0 → s.isHead = false → byteAt c.payload 0 = 1 →
      let v := leAt c.payload 4 4
      let level := byteAt c.payload 1
      let first := fun k => k < 4 ∧ s.casUp (k + 1) = true ∧ ∀ j, j < k → s.casUp (j + 1) = false
      (bitOf (byteAt c.payload 2) 0 = false → level ≤ 9 →
        ∃ t, exec (.enumAssign n cell) s = .next t ∧ t.numbered = true ∧ t.devNum = v ∧ t.flag F.CAS_STAT_NUMBERED = true ∧
          t.fget F.CAS_STAT_LEVEL = level ∧ t.casState = (if s.casState = 7 then 2 else s.casState) ∧
          ((∀ k, k < 4 → s.casUp (k + 1) = false) → t.flag F.CAS_STAT_ENUM_BUSY = false ∧ t.cas.enum = none ∧
            t.fget F.CAS_STAT_SUBTREE = 1 ∧ (∀ k, k < 4 → t.fget (F.CAS_PORT_SIZE_SIZE k) = 0) ∧
            t.cellOn 0 3 (leBytes 1 2 ++ leBytes 1 0 ++ leBytes 1 0 ++ leBytes 1 0 ++ leBytes 4 1)) ∧
          (∀ k, first k → t.flag F.CAS_STAT_ENUM_BUSY = true ∧ t.cas.enum = some ⟨v + 1, k, false⟩ ∧
            (level < 9 → v + 1 < 2 ^ 18 →
              t.cellOn (k + 1) 3 (leBytes 1 1 ++ leBytes 1 (level + 1) ++ leBytes 1 0 ++ leBytes 1 0 ++ leBytes 4 (v + 1))) ∧
            ((level = 9 ∨ 2 ^ 18 ≤ v + 1) →
              t.cellOn (k + 1) 3 (leBytes 1 1 ++ leBytes 1 (min 9 (level + 1)) ++ leBytes 1 1 ++ leBytes 1 0 ++ leBytes 4 0)))) ∧
      (bitOf (byteAt c.payload 2) 0 = true →
        ∃ t, exec (.enumAssign n cell) s = .next t ∧ t.numbered = false ∧
          ((∀ k, k < 4 → s.casUp (k + 1) = false) → t.casState = 7 ∧ t.fget F.CAS_STAT_SUBTREE = 0 ∧
            t.cellOn 0 3 (leBytes 1 2 ++ leBytes 1 0 ++ leBytes 1 0 ++ leBytes 1 0 ++ leBytes 4 0)) ∧
          (∀ k, first k → t.flag F.CAS_STAT_ENUM_BUSY = true ∧ t.cas.enum = some ⟨v + 1, k, true⟩ ∧
            ∃ l, t.cellOn (k + 1) 3 (leBytes 1 1 ++ leBytes 1 l ++ leBytes 1 1 ++ leBytes 1 0 ++ leBytes 4 0)))) ∧
    (s.arrives n .enum cell c → (n.val ≠ 0 ∨ s.isHead = true ∨ byteAt c.payload 0 ≠ 1) → ∃ t, exec (.enumAssign n cell) s = .next t ∧
      s.portsOnly t) ∧
    (s.arrives n .enum cell c → (s.cas.enum = none ∨ byteAt c.payload 0 ≠ 2) →
      ∃ t, exec (.enumDone n cell) s = .next t ∧ s.portsOnly t) ∧
    (∀ e, s.arrives n .enum cell c → s.cas.enum = some e → n.val ≠ e.port + 1 →
      ∃ t, exec (.enumDone n cell) s = .next t ∧ s.portsOnly t) ∧
    (∀ e, s.arrives n .enum cell c → s.cas.enum = some e → n.val = e.port + 1 → byteAt c.payload 0 = 2 →
      ∃ t, exec (.enumDone n cell) s = .next t ∧ t.fget (F.CAS_PORT_SIZE_SIZE e.port) = leAt c.payload 4 4 ∧
        (∀ k, k < e.port → t.fget (F.CAS_PORT_SIZE_SIZE k) = s.fget (F.CAS_PORT_SIZE_SIZE k)) ∧
        ((∀ k, e.port < k → k < 4 → s.casUp (k + 1) = false) → t.cas.enum = none ∧ t.flag F.CAS_STAT_ENUM_BUSY = false ∧
          (e.excl = false →
            t.fget F.CAS_STAT_SUBTREE = (1 + ((List.range 4).map (fun k => t.fget (F.CAS_PORT_SIZE_SIZE k))).sum) % 2 ^ 19) ∧
          (e.excl = true → t.casState = 7 ∧ t.fget F.CAS_STAT_SUBTREE = 0)) ∧
        (∀ k, e.port < k → k < 4 → s.casUp (k + 1) = true → (∀ j, e.port < j → j < k → s.casUp (j + 1) = false) →
          t.cas.enum = some ⟨e.next + leAt c.payload 4 4, k, e.excl⟩ ∧
          (e.excl = false → s.fget F.CAS_STAT_LEVEL < 9 → e.next + leAt c.payload 4 4 < 2 ^ 18 →
            t.cellOn (k + 1) 3 (leBytes 1 1 ++ leBytes 1 (s.fget F.CAS_STAT_LEVEL + 1) ++ leBytes 1 0 ++ leBytes 1 0 ++
              leBytes 4 (e.next + leAt c.payload 4 4))))) ∧
    (s.arrives n .turn cell c → (n.val ≠ 0 ∨ s.isHead = true ∨ byteAt c.payload 27 ≠ 0) →
      ∃ t, exec (.turnTick n cell) s = .next t ∧ s.portsOnly t) ∧
    (s.arrives n .turn cell c → n.val = 0 → s.isHead = false → byteAt c.payload 27 = 0 →
      ∃ t, exec (.turnTick n cell) s = .next t ∧ followed t ∧ t.slots = s.slots ∧ t.hbm = s.hbm ∧ s.keepsBase t ∧
        (s.flag F.CAS_DELAY_VALID = false → t.tim = s.tim ∧ t.lyr = s.lyr)) ∧
    (s.arrives n .turn cell c → (byteAt c.payload 27 ≠ 1 ∨ (n.val ≠ s.pairPort ∧ (n.val ≠ 0 ∨ s.isHead = true))) →
      ∃ t, exec (.turnSeqst n cell) s = .next t ∧ s.portsOnly t) ∧
    (s.arrives n .turn cell c → n.val = 0 → s.isHead = false → byteAt c.payload 27 = 1 → n.val ≠ s.pairPort →
      ∃ t, exec (.turnSeqst n cell) s = .next t ∧ followed t ∧ t.slots = s.slots ∧ t.hbm = s.hbm ∧ s.keepsBase t) ∧
    (s.arrives n .turn cell c → n.val = s.pairPort → byteAt c.payload 27 = 1 →
      let q := byteAt c.payload 26
      ∃ t, exec (.turnSeqst n cell) s = .next t ∧ t.lyr.commits = s.lyr.commits ∧ t.slots = s.slots ∧ t.hbm = s.hbm ∧
        (n.val = 0 → s.isHead = false → t.cas.parent = some (readParent c.payload)) ∧
        (s.fget F.CAS_PAIR_CFG_MODE ≠ 0 → s.fget F.CAS_PAIR_CFG_MODE ≠ 3 →
          t.fget F.CAS_PAIR_STAT_PSEQ = bitsOf q 1 0 + 4 * bitsOf q 3 3) ∧
        (s.twinPartner = false → s.splitPair = false → s.twinLead = false → (n.val ≠ 0 ∨ s.isHead = true) → s.portsOnly t) ∧
        (s.twinPartner = true → t.fget F.PWD_SEQ_STAT_STATE = bitsOf q 1 0 ∧
          (bitsOf q 1 0 = 0 → bitOf q 2 = true → t.tim.run = false)) ∧
        ((s.splitPair = true ∨ s.twinLead = true) →
          (bitOf q 3 = true → t.pwd.pos.upOrRun = false) ∧
          (bitOf q 3 = false → bitsOf q 1 0 = 3 →
            (s.pwd.pos = .run → s.tim.run = true → t.pwd.downReq = true) ∧
            ((s.pwd.pos ≠ .run ∨ s.tim.run = false) → t.pwd.pos.upOrRun = false))))

/-- R290, R291, R304: a broadcast commit goes on to every device below and waits for its target turn, or, late, takes effect at once with
its count and event; the FENCE, MODE and SWAP cells whose turn is next are applied, and no others. R292: with system fences an update of a
fence from 48 on goes to the head, and the head issues a newer fence value that is asked for to every device below. R294, R295: a DATA
cell's pixels inside a channel's image go into its inactive buffer and on to every device below; the head sends a queued copy row by row,
and a SWAP once every port has acknowledged it.
Choices of the model it rests on: log entries 40, 44. -/
def Obligations.BroadcastCells : Prop :=
  ∀ (n : Fin 5) (ch : Fin 8) (cell : List Byte) (c : Cell) (s : State), s.Shaped →
    let q := s.cas.chans.getD ch Bcast.reset
    -- a cell goes to every downstream port that is enumerated and UP
    let below := fun (t : State) (ty : Nat) (p : List Byte) =>
      ∀ k, k < 4 → s.dnEnumerated k = true → s.casUp (k + 1) = true → t.cellOn (k + 1) ty p
    (∀ (k : Fin 64) (v : W32), s.isOff (R.LYR_FENCE_VAL k) = false → s.flag F.CAS_CTL_SYSFENCE = true → 48 ≤ k.val →
      (s.isHead = true → newer32 v.toNat (s.fenceIssued k) = false → exec (.fenceValueWrite k v) s = .next s) ∧
      (s.isHead = true → newer32 v.toNat (s.fenceIssued k) = true →
        ∃ t, exec (.fenceValueWrite k v) s = .next t ∧ t = { s with cas := t.cas } ∧
          t.cas.bcHold = s.cas.bcHold ++ [⟨1, k, s.bcTarget, v.toNat⟩] ∧
          (s.casState ≠ 7 → below t 4 (leBytes 1 1 ++ leBytes 1 k ++ leBytes 6 s.bcTarget ++ leBytes 4 v.toNat ++ leBytes 4 0))) ∧
      (s.isHead = false →
        exec (.fenceValueWrite k v) s = .next (s.routeCell (s.ownCell .bcommit false 0 (bcPayload ⟨4, k, 0, v.toNat⟩))))) ∧
    ((s.casUp n = false ∨ readCell cell = none) → exec (.bcommitReceive n cell) s = .next s ∧
      exec (.fenceRequest n cell) s = .next s ∧ exec (.dataCell n cell) s = .next s) ∧
    (s.arrives n .bcommit cell c → n.val = 0 → s.isHead = false → c.all = true → (readBc c.payload).downOk = true →
      let b := readBc c.payload
      ∃ t, exec (.bcommitReceive n cell) s = .next t ∧ below t 4 c.payload ∧
        (s.bcLate b = false → t.cas.bcHold = s.cas.bcHold ++ [b] ∧ t = { s with cas := t.cas }) ∧
        (s.bcLate b = true → t.fget F.CAS_BC_STAT_LATE = min (s.fget F.CAS_BC_STAT_LATE + 1) 255 ∧ t.pendingEvt 10 = true ∧
          t.cas.bcHold = s.cas.bcHold ∧
          (b.kind = 1 → t.fget (F.LYR_FENCE_VAL_VALUE b.arg) =
            if newer32 b.value (s.fget (F.LYR_FENCE_VAL_VALUE b.arg)) then b.value else s.fget (F.LYR_FENCE_VAL_VALUE b.arg)))) ∧
    (s.arrives n .bcommit cell c → (n.val ≠ 0 ∨ s.isHead = true ∨ c.all = false ∨ (readBc c.payload).downOk = false) →
      ∃ t, exec (.bcommitReceive n cell) s = .next t ∧ s.portsOnly t) ∧
    (let due := fun (b : BCommit) => b.kind == 1 && due48 b.target s.nextTurn
     ∃ t, exec .bcommitFence s = .next t ∧ t.cas = { s.cas with bcHold := s.cas.bcHold.filter (fun b => !due b) } ∧
      t = { s with regs := t.regs, cyc := t.cyc, cas := t.cas } ∧ (s.cas.bcHold.all (fun b => !due b) = true → t = s) ∧
      ∀ b, s.cas.bcHold.filter due = [b] → b.arg < 64 → b.value < 2 ^ 32 → t.fget (F.LYR_FENCE_VAL_VALUE b.arg) =
        if newer32 b.value (s.fget (F.LYR_FENCE_VAL_VALUE b.arg)) then b.value else s.fget (F.LYR_FENCE_VAL_VALUE b.arg)) ∧
    (let due := fun (b : BCommit) => b.kind == 2 && due48 b.target s.nextTurn
     ∃ t, exec .bcommitMode s = .next t ∧ t.cas.bcHold = s.cas.bcHold.filter (fun b => !due b) ∧ t.hbm = s.hbm ∧ t.tim.run = s.tim.run ∧
      (s.cas.bcHold.all (fun b => !due b) = true → t = s) ∧
      ∀ b, s.cas.bcHold.filter due = [b] →
        (s.isHead = true → s.lyr.mode = .waiting → s.lyr.modeTarget = b.arg → t.lyr = { s.lyr with modeGo := true }) ∧
        (s.isHead = false → s.lyr.mode = .idle → b.arg ≠ s.activeSet → s.tsetValid b.arg = true →
          t.lyr.mode = .waiting ∧ t.lyr.modeTarget = b.arg ∧ t.lyr.modeGo = true)) ∧
    (let due := fun (b : BCommit) => b.kind == 3 && due48 b.target s.nextTurn
     s.modeStarts = false →
     ∃ t, exec .bcommitSwap s = .next t ∧ t.cas.bcHold = s.cas.bcHold.filter (fun b => !due b) ∧
      t = { s with regs := t.regs, cyc := t.cyc, cas := t.cas, free := t.free } ∧ s.regsBut t [R.CAS_BC_STAT] ∧ t.cas.ports = s.cas.ports ∧
      ∀ b, s.cas.bcHold.filter due = [b] → b.arg = ch.val →
        (∀ k : Fin 8, k ≠ ch → t.cas.chans[k.val]? = s.cas.chans[k.val]?) ∧
        (t.cas.chans.getD ch Bcast.reset).rows = 0 ∧ (t.cas.chans.getD ch Bcast.reset).whole = false ∧
        let swapped := (t.cas.chans.getD ch Bcast.reset).active = 1 - q.active ∧ (t.cas.chans.getD ch Bcast.reset).lastTurn = b.target
        let stale := (t.cas.chans.getD ch Bcast.reset).active = q.active ∧
          t.fget F.CAS_BC_STAT_STALE = min (s.fget F.CAS_BC_STAT_STALE + 1) 255
        let last := q.rows + 1 = s.fget (F.CAS_BOVL_CFG_H ch)
        (q.complete = true → (s.isHead = true ∨ last) → swapped ∧ t.free = s.free) ∧
        (q.complete = true → s.isHead = false → ¬ last → (swapped ∨ stale) ∧ t.free = s.free + 1) ∧
        (q.complete = false → stale ∧ t.free = s.free)) ∧
    (s.modeStarts = true → ∃ t, exec .bcommitSwap s = .next t ∧ t = { s with cas := t.cas } ∧
      t.cas.chans = s.cas.chans ∧ t.cas.bcHold = s.cas.bcHold.map (fun b =>
        if b.kind = 3 ∧ due48 b.target s.nextTurn = true then { b with target := (s.nextTurn + 2) % 2 ^ 48 } else b)) ∧
    (s.arrives n .bcommit cell c → (readBc c.payload).kind = 4 → 1 ≤ n.val → s.isHead = true →
      48 ≤ (readBc c.payload).arg → (readBc c.payload).arg ≤ 63 →
      let b := readBc c.payload
      ∃ t, exec (.fenceRequest n cell) s = .next t ∧ t = { s with cas := t.cas } ∧
        (newer32 b.value (s.fenceIssued b.arg) = true → t.cas.bcHold = s.cas.bcHold ++ [⟨1, b.arg, s.bcTarget, b.value⟩] ∧
          below t 4 (leBytes 1 1 ++ leBytes 1 b.arg ++ leBytes 6 s.bcTarget ++ leBytes 4 b.value ++ leBytes 4 0)) ∧
        (newer32 b.value (s.fenceIssued b.arg) = false → t.cas.bcHold = s.cas.bcHold)) ∧
    (s.arrives n .bcommit cell c → s.isHead = false → ∃ t, exec (.fenceRequest n cell) s = .next t ∧ s.portsOnly t ∧
      ∀ k, (readBc c.payload).kind = 4 → 1 ≤ n.val → 48 ≤ (readBc c.payload).arg → (readBc c.payload).arg ≤ 63 →
        c.all = false → s.routeOf c.dst = .port k → k < 5 → t.cellOn k 4 c.payload) ∧
    (s.arrives n .bcommit cell c →
      ((readBc c.payload).kind ≠ 4 ∨ n.val = 0 ∨ (readBc c.payload).arg < 48 ∨ 63 < (readBc c.payload).arg) →
      ∃ t, exec (.fenceRequest n cell) s = .next t ∧ s.portsOnly t) ∧
    (s.arrives n .data cell c → (n.val ≠ 0 ∨ s.isHead = true) → ∃ t, exec (.dataCell n cell) s = .next t ∧ s.portsOnly t) ∧
    (s.arrives n .data cell c → n.val = 0 → s.isHead = false → byteAt c.payload 0 = ch.val →
      let row := leAt c.payload 2 2
      let x := leAt c.payload 4 2
      let w := s.fget (F.CAS_BOVL_CFG_W ch)
      let m := min (leAt c.payload 6 2) (w - x)
      let a := s.bcastAddr ch (1 - q.active) row x
      ∃ t, exec (.dataCell n cell) s = .next t ∧ below t 8 c.payload ∧
        t.cas.chans.getD ch Bcast.reset = q.take row x (leAt c.payload 6 2) ∧ t.lyr = s.lyr ∧ t.slots = s.slots ∧
        ((s.flag (F.CAS_BOVL_CFG_EN ch) = false ∨ m = 0 ∨ s.fget (F.CAS_BOVL_CFG_H ch) ≤ row ∨
          s.inRegions Client.ovlWr.writes a (5 * m) = false) → t.hbm = s.hbm) ∧
        (s.flag (F.CAS_BOVL_CFG_EN ch) = true → m ≠ 0 → row < s.fget (F.CAS_BOVL_CFG_H ch) →
          s.inRegions Client.ovlWr.writes a (5 * m) = true →
          (s.ownPlaces a (5 * m) → t.hbmRead a (5 * m) = sliceB c.payload 8 (5 * m)) ∧
          ∀ k, (∀ i < 5 * m, hbmPlace s.mapMasks (a + i) ≠ k) → SMap.get hbmDefault t.hbm k = SMap.get hbmDefault s.hbm k)) ∧
    ((q.queued = none ∨ q.copy ≠ none ∨ s.isHead = false) → exec (.bcastCopyStart ch) s = .next s) ∧
    (∀ k, q.queued = some k → q.copy = none → s.isHead = true →
      ∃ t, exec (.bcastCopyStart ch) s = .next t ∧ (t.cas.chans.getD ch Bcast.reset).copy = some k ∧
        (t.cas.chans.getD ch Bcast.reset).queued = none ∧ t.lyr = s.lyr ∧ t.slots = s.slots ∧ s.keepsBase t ∧
        (s.casState ≠ 7 → ∀ row j, row < min k.h (s.fget (F.CAS_BOVL_CFG_H ch)) → 200 * j < min k.w (s.fget (F.CAS_BOVL_CFG_W ch)) →
          ∀ p, p < 4 → s.dnEnumerated p = true → s.casUp (p + 1) = true →
          ∃ d ∈ (t.casPort (p + 1)).unacked ++ (t.casPort (p + 1)).waiting, d.ty = 8 ∧ byteAt d.payload 0 = ch.val ∧
            leAt d.payload 2 2 = row ∧ leAt d.payload 4 2 = 200 * j)) ∧
    ((q.copy = none ∨ s.copyPending ch = true) → exec (.bcastCopyDone ch) s = .next s) ∧
    (q.copy ≠ none → s.copyPending ch = false → ∃ t, exec (.bcastCopyDone ch) s = .next t ∧ t = { s with cas := t.cas } ∧
      t.cas.bcHold = s.cas.bcHold ++ [⟨3, ch.val, s.bcTarget, 0⟩] ∧
      t.cas.chans.getD ch Bcast.reset = { q with copy := none } ∧
      (s.casState ≠ 7 → below t 4 (leBytes 1 3 ++ leBytes 1 ch.val ++ leBytes 6 s.bcTarget ++ leBytes 4 0 ++ leBytes 4 0)))

/-! Mail, Heath's services and jobs (11, 13, 14). -/

/-- R280, R297, R298, R299, R345: a MAIL or EVENT cell waits until the device knows its ranges; a MAIL cell for another device goes on, or
draws NOROUTE; one for this device places its message in the box it names, or counts it refused where IN is full; its response clears the
OUT that holds the message, with the outcome; the head keeps an EVENT record of the tree, or counts it lost; a WAKE cell is a request for
its state and goes on to every device below. R340, R347, R348: Heath takes a message and answers, keeps or relays it; a forwarded request
goes out through box 3 and is answered TIMEOUT when nothing comes back; a response that waits is placed once OUT is clear. R349: a fault
stops Heath, and its restart takes a new epoch; a save before DEEP that the fault broke off is made anew. R366: a message that comes as its
IN is cleared is discarded too, and one that box 0 turned away in the cycle in which Heath takes the message there is placed.
Choices of the model it rests on: log entries 2, 41, 42, 43, 53, 56. -/
def Obligations.MailAndEvents : Prop :=
  ∀ (n : Fin 5) (b : Fin 8) (cell : List Byte) (c : Cell) (s : State), s.Shaped →
    ((s.casUp n = false ∨ readCell cell = none) → exec (.mailCell n cell) s = .next s ∧ exec (.mailCellResponse n cell) s = .next s ∧
      exec (.eventCell n cell) s = .next s ∧ exec (.wakeCell n cell) s = .next s) ∧
    (s.arrives n .mail cell c → bitOf (byteAt c.payload 0) 0 = true → exec (.mailCell n cell) s = .next s) ∧
    (s.arrives n .mail cell c → bitOf (byteAt c.payload 0) 0 = false → exec (.mailCellResponse n cell) s = .next s) ∧
    (s.arrives n .mail cell c → (s.numbered = false ∨ s.cas.enum ≠ none) →
      ∃ t, exec (if bitOf (byteAt c.payload 0) 0 then .mailCellResponse n cell else .mailCell n cell) s = .next t ∧
        t = { s with cas := { s.cas with ports := t.cas.ports, held := s.cas.held ++ [c] } }) ∧
    (∀ k, s.arrives n .mail cell c → c.all = false → s.numbered = true → s.cas.enum = none → c.dst ≠ s.devNum →
      s.routeOf c.dst = .port k → k < 5 →
      ∃ t, exec (if bitOf (byteAt c.payload 0) 0 then .mailCellResponse n cell else .mailCell n cell) s = .next t ∧ s.portsOnly t ∧
        t.cellOn k 5 c.payload) ∧
    (∀ k, s.arrives n .mail cell c → bitOf (byteAt c.payload 0) 0 = false → c.all = false → s.numbered = true → s.cas.enum = none →
      c.dst ≠ s.devNum → s.routeOf c.dst = .none → c.srcNone = false → c.src ≠ s.devNum → s.routeOf c.src = .port k → k < 5 →
      ∃ t, exec (.mailCell n cell) s = .next t ∧ s.portsOnly t ∧
        t.cellOn k 5 (leBytes 1 1 ++ leBytes 1 2 ++ leBytes 6 0 ++ c.payload.drop 8)) ∧
    (s.arrives n .mail cell c → bitOf (byteAt c.payload 0) 0 = false → c.all = false → s.numbered = true → s.cas.enum = none →
      c.dst = s.devNum → c.srcNone = false →
      let m := c.payload.drop 8
      3 ≤ b.val → byteAt m 2 = b.val → 8 ≤ m.length → m.length = 8 + msgLen m →
      ((s.box b).inMsg = none → (s.box b).last ≠ some (msgKey m) → b.val ∈ s.cyc.cleared →
        ∃ t, exec (.mailCell n cell) s = .next t ∧ (t.box b).inMsg = none ∧ bitOf (t.rget (R.MBX_BOX_STAT b)).toNat 30 = true) ∧
      ((s.box b).inMsg = none → (s.box b).last ≠ some (msgKey m) → b.val ∉ s.cyc.cleared →
        ∃ t, exec (.mailCell n cell) s = .next t ∧
          t.box b = { s.box b with inMsg := some m, inFrom := c.src, last := some (msgKey m) } ∧
          t = { s with boxes := t.boxes, cas := { s.cas with ports := t.cas.ports } } ∧ ∀ k : Fin 8, k ≠ b → t.box k = s.box k) ∧
      ((s.box b).inMsg ≠ none → (s.box b).last ≠ some (msgKey m) → c.src ≠ s.devNum →
        ∃ t, exec (.mailCell n cell) s = .next t ∧ t.boxes = s.boxes ∧
          t.fget (F.MBX_BOX_STAT_FULLREF b) = min (s.fget (F.MBX_BOX_STAT_FULLREF b) + 1) 255)) ∧
    (s.arrives n .mail cell c → bitOf (byteAt c.payload 0) 0 = false → c.all = true → s.numbered = true → s.cas.enum = none →
      c.srcNone = false →
      let m := c.payload.drop 8
      3 ≤ b.val → byteAt m 2 = b.val → 8 ≤ m.length → m.length = 8 + msgLen m → (s.box b).inMsg = none →
      (s.box b).last ≠ some (msgKey m) → b.val ∉ s.cyc.cleared →
      ∃ t, exec (.mailCell n cell) s = .next t ∧ (t.box b).inMsg = some m ∧
        ∀ k, k < 4 → s.dnEnumerated k = true → s.casUp (k + 1) = true → t.cellOn (k + 1) 5 c.payload) ∧
    (s.arrives n .mail cell c → bitOf (byteAt c.payload 0) 0 = true → c.all = false → s.numbered = true → s.cas.enum = none →
      c.dst = s.devNum →
      (s.outBoxOf (c.payload.drop 8) = none → ∃ t, exec (.mailCellResponse n cell) s = .next t ∧ s.portsOnly t) ∧
      (s.outBoxOf (c.payload.drop 8) = some b → byteAt c.payload 1 ≤ 3 →
        ∃ t, exec (.mailCellResponse n cell) s = .next t ∧ (t.box b).outMsg = none ∧
          t.fget (F.MBX_BOX_STAT_OUT_RES b) = byteAt c.payload 1 + 1 ∧ s.regsBut t [R.MBX_BOX_STAT b])) ∧
    (s.arrives n .event cell c →
      (n.val = 0 → ∃ t, exec (.eventCell n cell) s = .next t ∧ s.portsOnly t) ∧
      (1 ≤ n.val → (s.numbered = false ∨ s.cas.enum ≠ none) → eventsFull s.cas.held = false →
        ∃ t, exec (.eventCell n cell) s = .next t ∧ t = { s with cas := { s.cas with ports := t.cas.ports, held := s.cas.held ++ [c] } }) ∧
      (1 ≤ n.val → s.isHead = true → s.numbered = true → s.cas.enum = none → s.cas.fifo.length < 512 →
        ∃ t, exec (.eventCell n cell) s = .next t ∧
        t.cas.fifo = s.cas.fifo ++ [⟨c.src, leAt c.payload 0 2, byteAt c.payload 2, leAt c.payload 4 6⟩] ∧
        (s.cas.fifo = [] → t.pendingEvt 11 = true) ∧ (s.cas.fifo ≠ [] → t.regs = s.regs)) ∧
      (1 ≤ n.val → s.isHead = true → s.numbered = true → s.cas.enum = none → 512 ≤ s.cas.fifo.length →
        ∃ t, exec (.eventCell n cell) s = .next t ∧ t.cas.fifo = s.cas.fifo ∧
        t.fget F.CAS_EVT_LOST_COUNT = min (s.fget F.CAS_EVT_LOST_COUNT + 1) (2 ^ 32 - 1)) ∧
      (1 ≤ n.val → s.isHead = false → c.all = false → s.numbered = true → s.cas.enum = none → s.routeOf c.dst = .port 0 →
        ((s.casPort 0).waiting.filter (fun d => d.ty == 6)) = [] →
        ∃ t, exec (.eventCell n cell) s = .next t ∧ s.portsOnly t ∧ t.cellOn 0 6 c.payload)) ∧
    (s.arrives n .wake cell c →
      ((n.val ≠ 0 ∨ s.isHead = true) → ∃ t, exec (.wakeCell n cell) s = .next t ∧ s.portsOnly t) ∧
      (n.val = 0 → s.isHead = false → byteAt c.payload 0 = 1 → s.pstate = 2 → s.pwr.due = none → s.pwr.going = none →
        ∃ t, exec (.wakeCell n cell) s = .next t ∧ t.fget F.PWR_STATE_STAT_WAKE = 7 ∧ t.fget F.PWR_STATE_STAT_TARGET = 1 ∧
          t.pwr = { s.pwr with due := some 1 } ∧ s.regsBut t [R.PWR_STATE_STAT] ∧
          ∀ k, k < 4 → s.dnEnumerated k = true → t.cellOn (k + 1) 7 c.payload)) ∧
    (((s.box b).inMsg = none ∨ s.heathServes b = false ∨ (s.box b).req ≠ none) → exec (.mailboxTake b) s = .next s) ∧
    (∀ m, (s.box b).inMsg = some m → s.heathServes b = true → (s.box b).req = none →
      let body := msgBody m
      let again := if b = 0 then s.cyc.turned.find? (fun e => e.1 == 0) else none
      ∃ t, exec (.mailboxTake b) s = .next t ∧ (t.box b).inMsg = again.map (fun e => e.2.2) ∧
        (∀ e, again = some e → (t.box 0).inFrom = e.2.1 ∧
          t.fget (F.MBX_BOX_STAT_FULLREF 0) = (s.uncount (F.MBX_BOX_STAT_FULLREF 0)).fget (F.MBX_BOX_STAT_FULLREF 0)) ∧
        (b = 0 → t = { s with regs := t.regs, cyc := t.cyc, boxes := t.boxes, i2cNack := t.i2cNack }) ∧
        ((b.val < 3 ∨ body.length < 8 ∨ bitOf (reqSvc body) 15 = false) → (s.box b).responses.length < 16 →
          ((body.length < 8 ∨ (s.forwards body = false ∧ s.svcKnown (reqSvc body) = false)) → (t.box b).req = none ∧
            (t.box b).responses = (s.box b).responses ++ [((s.box b).inFrom, responseBody 0xFFFF (reqRid body) 1 [])]) ∧
          (8 ≤ body.length → s.svcKnown (reqSvc body) = true → s.forwards body = false → s.svcDenied b (reqSvc body) = true →
            s.answers t b (s.box b).inFrom body 4 []) ∧
          (8 ≤ body.length → (s.forwards body = true ∨ (s.svcKnown (reqSvc body) = true ∧ s.svcDenied b (reqSvc body) = false)) →
            (t.box b).req = some ((s.box b).inFrom, body) ∧ (t.box b).responses = (s.box b).responses)) ∧
        ((b.val < 3 ∨ body.length < 8 ∨ bitOf (reqSvc body) 15 = false) → 16 ≤ (s.box b).responses.length → (t.box b).req = none ∧
          t.fget F.MBX_HEATH_STAT_DROPPED = min (s.fget F.MBX_HEATH_STAT_DROPPED + 1) 15) ∧
        (3 ≤ b.val → 8 ≤ body.length → bitOf (reqSvc body) 15 = true →
          let from_ := s.heath.forwards.find? (fun f => f.dev == (s.box b).inFrom &&
            (f.svc == reqSvc body % 32768 || reqSvc body == 0xFFFF) && f.req.rid == reqRid body)
          (from_ = none → t.heath = s.heath ∧ (t.box b).responses = (s.box b).responses) ∧
          ∀ f, from_ = some f → f.req.box < 8 → t.heath = { s.heath with forwards := s.heath.forwards.erase f } ∧
            (t.box f.req.box).responses = (s.box f.req.box).responses ++ [(f.req.dev, body)])) ∧
    (∀ dev body, s.heathServes b = true → (s.box b).req = some (dev, body) → 8 ≤ body.length → s.forwards body = true →
      (s.numbered = false → ∃ t, exec (.forwardRequest b) s = .next t ∧ s.answers t b dev body 5 [] ∧ t = { s with boxes := t.boxes }) ∧
      (s.numbered = true → ∃ t, exec (.forwardRequest b) s = .next t ∧ (t.box b).req = none ∧
        t = { s with boxes := t.boxes, heath := t.heath } ∧
        t.heath = { s.heath with forwards := s.heath.forwards ++ [⟨⟨b, dev, reqRid body⟩, reqSvc body, leAt body 4 4 % 2 ^ 18⟩] } ∧
        (t.box 3).responses = (s.box 3).responses ++ [(leAt body 4 4 % 2 ^ 18, spliceB body 4 (leBytes 4 (leAt body 4 4 % 2 ^ 31)))])) ∧
    (s.heath.forwards = [] → exec .forwardTimeout s = .next s) ∧
    (∀ f fs, s.heath.forwards = f :: fs → f.req.box < 8 → ∃ t, exec .forwardTimeout s = .next t ∧
      t.heath = { s.heath with forwards := fs } ∧
      t = { s with boxes := t.boxes, heath := t.heath } ∧ (t.box f.req.box).responses =
        (s.box f.req.box).responses ++ [(f.req.dev, responseBody f.svc f.req.rid 8 [])]) ∧
    (((s.box b).responses = [] ∨ (s.box b).outMsg ≠ none ∨ s.heathServes b = false) → exec (.heathResponsePlace b) s = .next s) ∧
    (∀ r rs, (s.box b).responses = r :: rs → (s.box b).outMsg = none → s.heathServes b = true →
      (b = 0 → ∃ t, exec (.heathResponsePlace b) s = .next t ∧ (t.box 0).outMsg = some (s.heathMsg 0 r.2) ∧ (t.box 0).responses = rs ∧
        (t.box 0).outSeq = ((s.box 0).outSeq + 1) % 2 ^ 16 ∧ t.pendingEvt 14 = true) ∧
      ((b = 1 ∨ b = 2) → s.boxAtt b = none → ∃ t, exec (.heathResponsePlace b) s = .next t ∧ (t.box b).outMsg = none ∧
        (t.box b).responses = rs ∧ t.fget (F.MBX_BOX_STAT_OUT_RES b) = 4) ∧
      (∀ i, (b = 1 ∨ b = 2) → s.boxAtt b = some i → ((s.att i).map Att.keyedUp).getD false = true →
        ∃ t, exec (.heathResponsePlace b) s = .next t ∧ (t.box b).outMsg = some (s.heathMsg b r.2) ∧ (t.box b).responses = rs) ∧
      (∀ k, 3 ≤ b.val → s.numbered = true → s.cas.enum = none → s.casState ≠ 7 → s.routeOf r.1 = .port k → k < 5 →
        ∃ t, exec (.heathResponsePlace b) s = .next t ∧
        (t.box b).outMsg = some (s.heathMsg b r.2) ∧ (t.box b).outDst = r.1 ∧ (t.box b).responses = rs ∧
        t.cellOn k 5 (leBytes 1 0 ++ leBytes 1 0 ++ leBytes 6 0 ++ s.heathMsg b r.2))) ∧
    (s.fget F.MBX_HEATH_STAT_STATE ≠ 1 → exec .heathWatchdogExpiry s = .next s) ∧
    (s.fget F.MBX_HEATH_STAT_STATE = 1 → ∃ t, exec .heathWatchdogExpiry s = .next t ∧ t.fget F.MBX_HEATH_STAT_STATE = 3 ∧
      t.fget F.MBX_HEATH_STAT_FAULTS = min (s.fget F.MBX_HEATH_STAT_FAULTS + 1) 15 ∧ t.pendingEvt 16 = true ∧
      (∀ k : Fin 8, (t.box k).inMsg = none ∧ (t.box k).req = none) ∧ t.heath.mapLoad = none ∧ t.heath.ledgerSave = none ∧
      t.heath.imgWrite = none ∧ t.heath.forwards = [] ∧ t.tim = s.tim ∧ t.slots = s.slots ∧ t.hbm = s.hbm) ∧
    (s.fget F.MBX_HEATH_STAT_STATE ≠ 3 → exec .heathRestartDone s = .next s) ∧
    (s.fget F.MBX_HEATH_STAT_STATE = 3 → ∃ t, exec .heathRestartDone s = .next t ∧
      (s.pwr.going ≠ some 3 → t.fget F.MBX_HEATH_STAT_STATE = 1 ∧ t.epoch = (s.epoch + 1) % 2 ^ 16 ∧ s.regsOnly t [R.MBX_HEATH_STAT]) ∧
      (s.pwr.going = some 3 → t.heath.ledgerSave ≠ none ∨ t.pstate = 3))

/-- R346, R347: each service answers the request that waits, OK with its result, BADARG where the arguments are not its own, BADADDR outside
the register map, BUSY where one runs; R382: a map load and a ledger save run on and answer when they are done; R372: RAILS_UP after a fault
is honoured as often as POLICY says. R349: a save whose read of SNAP is lost ends as a fault of Heath. R383: an image write opens, takes
data, ends with the checks of a copy, or is aborted.
Choices of the model it rests on: log entries 10, 57, 58, 60, 66. -/
def Obligations.Services : Prop :=
  ∀ (b : Fin 8) (dev : Nat) (body : List Byte) (ok : Bool) (s : State), s.Shaped →
    let a := reqArgs body
    let s0 := s.modBox b (fun x => { x with req := none })
    (s.holdsReq b dev 0x0001 body →
      (body.length ≠ 8 → ∃ t, exec (.svcInfo b) s = .next t ∧ s.answers t b dev body 2 []) ∧
      (body.length = 8 → ∃ t, exec (.svcInfo b) s = .next t ∧ (s.img ≠ none → t = { s with boxes := t.boxes }) ∧
        ∃ fw v, s.answers t b dev body 0
        (leBytes 4 fw ++ leBytes 4 v ++ leBytes 2 s.epoch ++ leBytes 2 0 ++ leBytes 4 (if s.numbered then s.devNum else 2 ^ 32 - 1)) ∧
        ∀ m, s.img = some m → fw = m.fwVersion ∧ v = m.version)) ∧
    (s.holdsReq b dev 0x0002 body →
      let n := leAt a 4 2
      let noinc := leAt a 6 2 == 1
      let ok := a.length = 8 ∧ 1 ≤ n ∧ n ≤ 250 ∧ leAt a 6 2 ≤ 1
      let good := ∀ i, i < n → addrOk (if noinc then leAt a 0 4 else leAt a 0 4 + 4 * i) = true
      (¬ ok → ∃ t, exec (.svcRegRead b) s = .next t ∧ s.answers t b dev body 2 [] ∧ t = { s with boxes := t.boxes }) ∧
      (ok → ¬ good → ∃ t, exec (.svcRegRead b) s = .next t ∧ s.answers t b dev body 7 [] ∧ t = { s with boxes := t.boxes }) ∧
      (ok → good → ∃ t, exec (.svcRegRead b) s = .next t ∧ s.answers t b dev body 0 (s0.readRun noinc (leAt a 0 4) n).1 ∧
        t = { (s0.readRun noinc (leAt a 0 4) n).2 with boxes := t.boxes })) ∧
    (s.holdsReq b dev 0x0003 body →
      let n := leAt a 0 2
      let pairs := (List.range n).map (fun i => (leAt a (4 + 8 * i) 4, leAt a (8 + 8 * i) 4))
      let ok := 1 ≤ n ∧ n ≤ 124 ∧ a.length = 4 + 8 * n ∧ leAt a 2 2 = 0
      (¬ ok → ∃ t, exec (.svcRegWrite b) s = .next t ∧ s.answers t b dev body 2 [] ∧ t = { s with boxes := t.boxes }) ∧
      (ok → (∃ e ∈ pairs, addrOk e.1 = false) → ∃ t, exec (.svcRegWrite b) s = .next t ∧ s.answers t b dev body 7 [] ∧
        t = { s with boxes := t.boxes }) ∧
      (ok → (∀ e ∈ pairs, addrOk e.1 = true) → (s0.writeRun pairs).2.heathServes b = true →
        ∃ t, exec (.svcRegWrite b) s = .next t ∧ t = { (s0.writeRun pairs).2 with boxes := t.boxes } ∧
          (t.box b).responses = ((s0.writeRun pairs).2.box b).responses ++
            (if b.val < (s0.writeRun pairs).2.boxes.length then
              [(dev, responseBody (reqSvc body) (reqRid body) 0 (s0.writeRun pairs).1)] else []))) ∧
    (s.flag F.EMC_MAP_CTL_PEND = true → exec (.svcMapLoad b) s = .next s) ∧
    (s.flag F.EMC_MAP_CTL_PEND = false → s.holdsReq b dev 0x0010 body →
      let ok := a.length = 4 ∧ byteAt a 0 < 16 ∧ byteAt a 1 < 2 ∧ leAt a 2 2 = 0
      (¬ ok → ∃ t, exec (.svcMapLoad b) s = .next t ∧ s.answers t b dev body 2 [] ∧ t = { s with boxes := t.boxes }) ∧
      (ok → s.heath.mapLoad ≠ none → ∃ t, exec (.svcMapLoad b) s = .next t ∧ s.answers t b dev body 3 [] ∧
        t = { s with boxes := t.boxes }) ∧
      (ok → s.heath.mapLoad = none → ∃ t, exec (.svcMapLoad b) s = .next t ∧ (t.box b).req = none ∧
        t.heath = { s.heath with mapLoad := some ⟨some ⟨b, dev, reqRid body⟩, byteAt a 0, s.spareGen, byteAt a 1 == 1⟩ } ∧
        t.flag (F.EMC_MAP_CFG_VALID s.spareGen) = false ∧
          t = { s with regs := t.regs, cyc := t.cyc, boxes := t.boxes, heath := t.heath })) ∧
    ((s.heath.mapLoad = none ∨ s.flag F.EMC_MAP_CTL_PEND = true ∨ s.coreRuns = false) → exec (.mapLoadDone ok) s = .next s) ∧
    (∀ l q, s.heath.mapLoad = some l → s.flag F.EMC_MAP_CTL_PEND = false → s.coreRuns = true → l.req = some q → q.box < 8 →
      let fill := (s.modHeath (fun h => { h with mapLoad := none })).mapFill (s.areaNgs l.area) l.area l.gen ok
      ∃ t, exec (.mapLoadDone ok) s = .next t ∧ t.heath = { s.heath with mapLoad := none } ∧ t.hbm = fill.2.hbm ∧
      t.flag (F.EMC_MAP_CFG_VALID l.gen) = fill.2.flag (F.EMC_MAP_CFG_VALID l.gen) ∧
      (fill.1 = none → (t.box q.box).responses =
        (s.box q.box).responses ++ [(q.dev, responseBody 0x0010 q.rid 6 [])] ∧ t.pendingEvt 23 = true) ∧
      (∀ rows, fill.1 = some rows → (t.box q.box).responses =
        (s.box q.box).responses ++ [(q.dev, responseBody 0x0010 q.rid 0 (leBytes 4 rows))] ∧
        (l.swap = true → t.flag F.EMC_MAP_CTL_PEND = true))) ∧
    (s.holdsReq b dev 0x0011 body →
      (s.area (byteAt a 0) = none → ∃ t, exec (.svcLedgerSave b) s = .next t ∧ s.answers t b dev body 2 []) ∧
      ∀ ar, s.area (byteAt a 0) = some ar →
        let ok := a.length = 4 ∧ leAt a 1 3 = 0 ∧ ar.ty = 2
        (¬ ok → ∃ t, exec (.svcLedgerSave b) s = .next t ∧ s.answers t b dev body 2 []) ∧
        (ok → s.heath.ledgerSave ≠ none → ∃ t, exec (.svcLedgerSave b) s = .next t ∧ s.answers t b dev body 3 []) ∧
        (ok → s.heath.ledgerSave = none → s.heathRing = none → ∃ t, exec (.svcLedgerSave b) s = .next t ∧ s.answers t b dev body 6 []) ∧
        (ok → s.heath.ledgerSave = none → s.heathRing ≠ none → ∃ t, exec (.svcLedgerSave b) s = .next t ∧ (t.box b).req = none ∧
          (t.box b).responses = (s.box b).responses ∧ ∃ l, t.heath = { s.heath with ledgerSave := some l } ∧
          l.req = some ⟨b, dev, reqRid body⟩ ∧ l.area = byteAt a 0 ∧ l.snap = none ∧
          l.seq = if s.areaValid ar then s.areaSeq ar + 1 else 1)) ∧
    ((s.heath.ledgerSave = none ∨ s.coreRuns = false) → exec (.ledgerSaveDone ok) s = .next s) ∧
    (∀ l, s.heath.ledgerSave = some l → l.snap = none → exec (.ledgerSaveDone ok) s = .next s) ∧
    (∀ l q, s.heath.ledgerSave = some l → l.snap ≠ none → s.coreRuns = true → l.req = some q → q.box < 8 → s.pwr.going ≠ some 3 →
      (s.saveSize l = none → ∃ t, exec (.ledgerSaveDone ok) s = .next t ∧ t.heath = { s.heath with ledgerSave := none } ∧
        t.hbm = s.hbm ∧ t.emmc = s.emmc ∧ t.pendingEvt 23 = true ∧
        (t.box q.box).responses = (s.box q.box).responses ++ [(q.dev, responseBody 0x0011 q.rid 6 [])]) ∧
      ∀ made ar turn0, s.saveSize l = some (made, ar, turn0) →
        let got := s.heathGet (s.regionBase 3) made
        (got.1 = true → exec (.ledgerSaveDone ok) s = .next got.2 ∧ (s.fget F.MBX_HEATH_STAT_STATE = 1 →
          got.2.fget F.MBX_HEATH_STAT_STATE = 3 ∧ got.2.heath.ledgerSave = none ∧ got.2.pendingEvt 16 = true)) ∧
        (got.1 = false → ∃ t, exec (.ledgerSaveDone ok) s = .next t ∧ t.heath = { s.heath with ledgerSave := none } ∧ t.hbm = s.hbm ∧
          (ok = true → t.emmc = (s.saveWrite l ar made turn0).emmc ∧ (t.box q.box).responses =
            (s.box q.box).responses ++ [(q.dev, responseBody 0x0011 q.rid 0 (leBytes 4 made))]) ∧
          (ok = false → t.emmc = s.emmc ∧ t.pendingEvt 23 = true ∧ (t.box q.box).responses =
            (s.box q.box).responses ++ [(q.dev, responseBody 0x0011 q.rid 6 [])]))) ∧
    (s.holdsReq b dev 0x0012 body →
      (a.length ≠ 8 → ∃ t, exec (.svcCapture b) s = .next t ∧ s.answers t b dev body 2 []) ∧
      (a.length = 8 → s.heath.capture ≠ none → ∃ t, exec (.svcCapture b) s = .next t ∧ s.answers t b dev body 3 []) ∧
      (a.length = 8 → s.heath.capture = none → s.heathRing = none → ∃ t, exec (.svcCapture b) s = .next t ∧ s.answers t b dev body 6 []) ∧
      (a.length = 8 → s.heath.capture = none → s.heathRing ≠ none → ∃ t, exec (.svcCapture b) s = .next t ∧ (t.box b).req = none ∧
        (t.box b).responses = (s.box b).responses ∧ ∃ c, t.heath.capture = some c ∧ c.1 = ⟨b, dev, reqRid body⟩ ∧ c.2.1 < 6 ∧
        t.heath = { s.heath with capture := some c })) ∧
    (s.holdsReq b dev 0x0020 body →
      let fault := s.rget R.PWD_FAULT ≠ 0 ∨ s.flag F.PWD_SEQ_STAT_FAULT = true
      (body.length ≠ 8 → ∃ t, exec (.svcRailsUp b) s = .next t ∧ s.answers t b dev body 2 []) ∧
      (body.length = 8 → fault → s.retryLeft = false → ∃ t, exec (.svcRailsUp b) s = .next t ∧ s.answers t b dev body 4 [] ∧
        t = { s with boxes := t.boxes }) ∧
      (body.length = 8 → (¬ fault ∨ s.retryLeft = true) → ∃ t, exec (.svcRailsUp b) s = .next t ∧ s.answers t b dev body 0 [] ∧
        t.rget R.PWD_FAULT = 0 ∧ (fault → t.heath = { s.heath with retries := s.heath.retries + 1 }) ∧ (¬ fault → t.heath = s.heath) ∧
        (s.pwd.pos = .off → s.flag F.PWD_SEQ_STAT_SAFE = true → s.twinPartner = false → s.railsBarred = false →
          s.waitsForPeer = false → t.pwd.pos = .ramp 0))) ∧
    (s.holdsReq b dev 0x0021 body →
      (¬ (a.length = 4 ∧ byteAt a 0 ≤ 3 ∧ leAt a 1 3 = 0) → ∃ t, exec (.svcPower b) s = .next t ∧ s.answers t b dev body 2 [] ∧
        t = { s with boxes := t.boxes }) ∧
      (a.length = 4 → byteAt a 0 ≤ 3 → leAt a 1 3 = 0 → ∃ t, exec (.svcPower b) s = .next t ∧ s.answers t b dev body 0 [] ∧
        t.fget F.PWR_STATE_STAT_WAKE = 8 ∧ t = { s with regs := t.regs, cyc := t.cyc, boxes := t.boxes, pwr := t.pwr } ∧
        s.regsBut t [R.PWR_STATE_STAT])) ∧
    (s.holdsReq b dev 0x0022 body →
      let target := byteAt a 1
      (writeOp body = 1 → ∀ at_ size, s.writeRange target (byteAt a 2) = some (at_, size) →
        let good := a.length = 8 ∧ byteAt a 3 = 0 ∧ 1 ≤ leAt a 4 4 ∧ leAt a 4 4 ≤ size
        (¬ good → ∃ t, exec (.imageWriteBegin b ok) s = .next t ∧ s.answers t b dev body 2 [] ∧ t = { s with boxes := t.boxes }) ∧
        (good → s.heath.imgWrite ≠ none → ∃ t, exec (.imageWriteBegin b ok) s = .next t ∧ s.answers t b dev body 3 []) ∧
        (good → s.heath.imgWrite = none → ok = true → ∃ t, exec (.imageWriteBegin b ok) s = .next t ∧ s.answers t b dev body 0 [] ∧
          t.heath = { s.heath with imgWrite := some ⟨target, byteAt a 2, leAt a 4 4, []⟩ } ∧
          (target = 0 → t.emmc = s.emmc ∧ ∀ k, SMap.get norDefault t.nor k =
            if at_ ≤ k ∧ k < at_ + size then norDefault k else SMap.get norDefault s.nor k) ∧ (target ≠ 0 → t.nor = s.nor)) ∧
        (good → s.heath.imgWrite = none → ok = false → ∃ t, exec (.imageWriteBegin b ok) s = .next t ∧ t.heath = s.heath ∧
          t.pendingEvt 23 = true ∧ (∃ v, s.answers t b dev body 6 [v]) ∧
          (target = 0 → t.emmc = s.emmc ∧ ∀ k, SMap.get norDefault t.nor k =
            if at_ ≤ k ∧ k < at_ + 64 then norDefault k else SMap.get norDefault s.nor k) ∧ (target ≠ 0 → t.nor = s.nor))) ∧
      (writeOp body = 1 → s.writeRange target (byteAt a 2) = none →
        ∃ t, exec (.imageWriteBegin b ok) s = .next t ∧ s.answers t b dev body 2 [] ∧ t = { s with boxes := t.boxes }) ∧
      ((writeOp body = 2 ∨ writeOp body = 3 ∨ writeOp body = 4) → exec (.imageWriteBegin b ok) s = .next s) ∧
      (s.openWrite body = none →
        (writeOp body = 2 → ∃ t, exec (.imageWriteData b ok) s = .next t ∧ s.answers t b dev body 2 [] ∧ t = { s with boxes := t.boxes }) ∧
        (writeOp body = 3 → ∃ t, exec (.imageWriteEnd b ok) s = .next t ∧ s.answers t b dev body 2 [] ∧ t = { s with boxes := t.boxes }) ∧
        (writeOp body = 4 → ∃ t, exec (.imageWriteAbort b) s = .next t ∧ s.answers t b dev body 2 [] ∧ t = { s with boxes := t.boxes })) ∧
      (∀ w at_ size, s.openWrite body = some w → s.writeRange w.target w.area = some (at_, size) →
        (writeOp body = 2 →
          let bs := a.drop 8
          let off := leAt a 4 4
          (8 ≤ a.length → bs.length ≤ 992 → off + bs.length ≤ w.total → ok = true →
            ∃ t, exec (.imageWriteData b ok) s = .next t ∧ s.answers t b dev body 0 [] ∧ t.hbm = s.hbm ∧ t.img = s.img ∧
              (w.target = 0 → 64 ≤ off → t.emmc = s.emmc ∧ ∀ k, SMap.get norDefault t.nor k =
                if at_ + off ≤ k ∧ k < at_ + off + bs.length then bs.getD (k - (at_ + off)) 0 else SMap.get norDefault s.nor k) ∧
              (w.target = 0 → off + bs.length ≤ 64 → t.nor = s.nor)) ∧
          (8 ≤ a.length → bs.length ≤ 992 → off + bs.length ≤ w.total → ok = false →
            ∃ t, exec (.imageWriteData b ok) s = .next t ∧ t.heath = { s.heath with imgWrite := none } ∧ t.pendingEvt 23 = true ∧
              ∃ v, s.answers t b dev body 6 [v]) ∧
          ((a.length < 8 ∨ 992 < bs.length ∨ w.total < off + bs.length) →
            ∃ t, exec (.imageWriteData b ok) s = .next t ∧ s.answers t b dev body 2 [] ∧ t = { s with boxes := t.boxes })) ∧
        (writeOp body = 3 → w.target = 0 → ok = true →
          ∃ t, exec (.imageWriteEnd b ok) s = .next t ∧ t.heath = { s.heath with imgWrite := none } ∧ t.emmc = s.emmc ∧
            (s.endCopy w at_ = 0 → s.answers t b dev body 0 [] ∧ t.norRead at_ 64 = w.heldData) ∧
            (s.endCopy w at_ ≠ 0 → s.answers t b dev body 6 [BitVec.ofNat 8 (s.endCopy w at_)] ∧ t.nor = s.nor)) ∧
        (writeOp body = 3 → ok = false →
          ∃ t, exec (.imageWriteEnd b ok) s = .next t ∧ t.heath = { s.heath with imgWrite := none } ∧ t.pendingEvt 23 = true ∧
            ∃ v, s.answers t b dev body 6 [v]) ∧
        (writeOp body = 4 →
          ∃ t, exec (.imageWriteAbort b) s = .next t ∧ s.answers t b dev body 0 [] ∧ t.heath = { s.heath with imgWrite := none } ∧
            (w.target = 0 → t.emmc = s.emmc ∧ ∀ k, at_ ≤ k → k < at_ + size → SMap.get norDefault t.nor k = norDefault k))))

/-- R353, R354, R356, R357, R366: the engine starts the next descriptor of the ring that is served next, or ends it at once with its status;
at most four jobs run; a descriptor that repeats the id of the job that runs in its ring completes at once while that job goes on. R358 to
R365: a job that completes advances its ring, keeps its id and raises its events; COPY moves its bytes, COMPRESS and LEDGER_SNAP write byte
blocks, DECOMPRESS the bytes that a block gives, CALPACK compact segment records; an input outside the job's regions or with an
uncorrectable error ends it; and CAPTURE ends once its turn is over, its segments are all taken or the engine has fallen behind.
Choices of the model it rests on: log entries 10, 60, 65. -/
def Obligations.Jobs : Prop :=
  ∀ (r : Fin 8) (ecc : JobEcc) (s : State), s.Shaped →
    ((s.coreRuns = false ∨ s.pwr.grace = true ∨ s.boot.state = 8) → exec .jobStart s = .next s) ∧
    ((List.range 8).find? s.repeatsRunning = none → (4 ≤ s.jobsRunning ∨ s.nextJobRing = none) → exec .jobStart s = .next s) ∧
    (s.coreRuns = true → s.pwr.grace = false → s.boot.state ≠ 8 → (List.range 8).find? s.repeatsRunning = some r.val →
      ∃ t, exec .jobStart s = .next t ∧ (t.jring r).running = (s.jring r).running ∧ (t.jring r).ids = (s.jring r).ids ∧
        t.fget (F.JOB_RING_HEAD_HEAD r) = s.fget (F.JOB_RING_HEAD_HEAD r) ∧
        (((t.jring r).early = (s.jring r).early + 1 ∧
            t.fget (F.JOB_RING_CFG_DUPS r) = min (s.fget (F.JOB_RING_CFG_DUPS r) + 1) 255 ∧ t.pendingEvt 18 = true) ∨
          (t.jobs = s.jobs ∧ t.hbm = s.hbm ∧ t.fget F.MEM_ECC_CNT_UNCORR = min (s.fget F.MEM_ECC_CNT_UNCORR + 1) 255)) ∧
        t.lyr = s.lyr ∧ t.slots = s.slots ∧ ∀ k, k ≠ r.val → t.jobs.rings[k]? = s.jobs.rings[k]?) ∧
    (s.coreRuns = true → s.pwr.grace = false → s.boot.state ≠ 8 → (List.range 8).find? s.repeatsRunning = none → s.jobsRunning < 4 →
      s.nextJobRing = some r.val →
      let a := s.ringEntry r (s.fget (F.JOB_RING_HEAD_HEAD r))
      let d := readDesc (s.hbmRead a 64)
      ∃ t, exec .jobStart s = .next t ∧ t.lyr = s.lyr ∧ t.slots = s.slots ∧
        (if s.flag (F.JOB_RING_CFG_PRIO r) then t.jobs.nextPrio = (r.val + 1) % 8 ∧ t.jobs.nextRing = s.jobs.nextRing
          else t.jobs.nextRing = (r.val + 1) % 8 ∧ t.jobs.nextPrio = s.jobs.nextPrio) ∧
        (s.inRegions Client.job.reads a 64 = false → ∃ d, s.jobEnded t r d 4) ∧
        (s.inRegions Client.job.reads a 64 = true →
          ((∃ d, s.jobEnded t r d 3) ∧ min (s.fget F.MEM_ECC_CNT_UNCORR + 1) 255 ≤ t.fget F.MEM_ECC_CNT_UNCORR) ∨
          (s.descBad d = true → s.jobEnded t r d 5) ∧
          (∀ q, s.descBad d = false → (s.jring r).ids.find? (fun q => q.1 == d.id) = some q → s.jobEnded t r d 7 ∧
            t.fget (F.JOB_RING_CFG_DUPS r) = min (s.fget (F.JOB_RING_CFG_DUPS r) + 1) 255) ∧
          (s.descBad d = false → (s.jring r).ids.find? (fun q => q.1 == d.id) = none →
            let runs := (t.jring r).running = some ⟨d, s.lyr.turn, s.lyr.turn, none, [], false⟩ ∧ (t.jring r).ids = (s.jring r).ids ∧
              s.regsBut t [R.MEM_ECC_CNT, R.SWD_ECC_CNT] ∧ t.hbm = s.hbm
            let head := (s.jobRead (d.src + d.tokOff) (min 16 (d.total - d.tokOff))).1
            (d.tokenBad = true → s.jobEnded t r d 6) ∧
            (d.tokenBad = false → (d.resume = false ∨ d.opcode ≠ 2 ∨ d.tokOff = d.total) → runs) ∧
            (d.tokenBad = false → d.resume = true → d.opcode = 2 → d.tokOff ≠ d.total →
              (head = none → s.jobEnded t r d 4) ∧
              ∀ h, head = some h →
                s.jobEnded t r d 3 ∨ (if blkHeaderOk h (d.total - d.tokOff) = true then runs else s.jobEnded t r d 6))))) ∧
    ((s.coreRuns = false ∨ (s.jring r).running = none) → exec (.jobCopyDone r ecc) s = .next s ∧ exec (.jobCompressDone r ecc) s = .next s ∧
      exec (.jobDecompressDone r ecc) s = .next s ∧ exec (.jobLedgerSnapDone r ecc) s = .next s ∧
      exec (.jobCalpackDone r ecc) s = .next s ∧ exec (.jobCaptureDone r) s = .next s) ∧
    (∀ j, (s.jring r).running = some j → s.coreRuns = true → s.pwr.grace = false →
      let d := j.desc
      let ends := fun (t : State) => t.lyr = s.lyr ∧ t.slots = s.slots ∧ (ecc.bad = none → s.heath.ledgerSave = none → s.keepsBase t) ∧
        ∃ st, s.jobEnded t r d st
      (d.opcode = 0 → ∃ t, exec (.jobCopyDone r ecc) s = .next t ∧ ends t) ∧
      (d.opcode = 1 → ∃ t, exec (.jobCompressDone r ecc) s = .next t ∧ ends t) ∧
      (d.opcode = 2 → ∃ t, exec (.jobDecompressDone r ecc) s = .next t ∧ ends t) ∧
      (d.opcode = 3 → ∃ t, exec (.jobLedgerSnapDone r ecc) s = .next t ∧ ends t) ∧
      (d.opcode = 4 → ∃ t, exec (.jobCalpackDone r ecc) s = .next t ∧ ends t) ∧
      (d.opcode = 5 → (j.capTurn = none → exec (.jobCaptureDone r) s = .next s) ∧
        ∀ k, j.capTurn = some k →
          let all := (captureList d).all (fun e => j.capSegs.any (fun g => g.row == e.1 && g.group == e.2))
          (s.tim.run = true → s.lyr.turn = k → all = false → j.capLost = false → exec (.jobCaptureDone r) s = .next s) ∧
          ((s.tim.run = false ∨ s.lyr.turn ≠ k ∨ all = true ∨ j.capLost = true) →
            ∃ t, exec (.jobCaptureDone r) s = .next t ∧ t.lyr = s.lyr ∧ (s.heath.ledgerSave = none → s.keepsBase t) ∧
              ∃ st, s.jobEnded t r d st ∧ (all = false → st ≠ 0))) ∧
      -- a job of one block, from HBM or the Heath data area to a place in HBM that the completion record does not touch
      (∀ src out : List Byte, d.resume = false → bitOf d.dst 63 = false → out.length ≤ d.dstCap → 0 < out.length →
        s.inRegions Client.job.writes d.dst out.length = true → s.ownPlaces d.dst out.length →
        s.apartPlaces (s.ringEntry r (s.fget (F.JOB_RING_HEAD_HEAD r))) 64 d.dst out.length → ecc.bad = none → 0 < d.total →
        (d.total ≤ d.blockLen →
          (d.opcode = 0 → (s.jobRead d.src d.total).1 = some out →
            ∃ t, exec (.jobCopyDone r ecc) s = .next t ∧ s.jobEnded t r d 0 ∧ t.hbmRead d.dst out.length = out) ∧
          (d.opcode = 1 → (s.jobRead d.src d.total).1 = some src → encodeByteBlock s.byteTabs d.effort d.tab src = out →
            ∃ t, exec (.jobCompressDone r ecc) s = .next t ∧ s.jobEnded t r d 0 ∧ t.hbmRead d.dst out.length = out) ∧
          (d.opcode = 3 → (s.jobRead (s.ledgerRow d.row0) d.total).1 = some src → encodeByteBlock s.byteTabs d.effort d.tab src = out →
            ∃ t, exec (.jobLedgerSnapDone r ecc) s = .next t ∧ s.jobEnded t r d 0 ∧ t.hbmRead d.dst out.length = out) ∧
          (d.opcode = 4 → (s.jobRead d.src d.total).1 = some src → packSegment src d.row0 0 = out →
            ∃ t, exec (.jobCalpackDone r ecc) s = .next t ∧ s.jobEnded t r d 0 ∧ t.hbmRead d.dst out.length = out)) ∧
        (∀ h, d.opcode = 2 → (s.jobRead d.src (min 16 d.total)).1 = some h → blkHeaderOk h d.total = true → blkUlen h ≤ d.dstCap →
          (s.jobRead d.src (blkClen h)).1 = some src → decodeByteBlock s.byteTabs src = .ok out d.total →
          ∃ t, exec (.jobDecompressDone r ecc) s = .next t ∧ s.jobEnded t r d 0 ∧ t.hbmRead d.dst out.length = out)) ∧
      (d.opcode = 0 → d.resume = false → 0 < d.total → d.total ≤ d.blockLen →
        ((s.jobRead d.src d.total).1 = none → ∃ t, exec (.jobCopyDone r ecc) s = .next t ∧ s.jobEnded t r d 4) ∧
        (ecc.bad = some 0 → (s.jobRead d.src d.total).1 ≠ none →
          ∃ t, exec (.jobCopyDone r ecc) s = .next t ∧ s.jobEnded t r d 3)))

/-! The machine as a whole. -/

/-- No command touches the queue of waiting commands: commands come from outside only.
Choices of the model it rests on: log entry 9. -/
def Obligations.CommandsLeaveTheQueue : Prop :=
  ∀ (c : Instr) (s t : State), exec c s = .next t → t.pending = s.pending

/-- Every step keeps the canonical form of the memories and of the registers, and the fixed number of each set of like things.
Choices of the model it rests on: log entry 2. -/
def Obligations.StepKeepsForm : Prop :=
  ∀ s t : State, s.Shaped → Registers.wf s = true → Memory.wf s = true → step s = .next t →
    t.Shaped ∧ Registers.wf t = true ∧ Memory.wf t = true

/-- The machine after reset has the form that every step keeps, and nothing waits.
Choices of the model it rests on: log entries 5, 6. -/
def Obligations.ResetHasForm : Prop :=
  State.reset.Shaped ∧ Registers.wf State.reset = true ∧ Memory.wf State.reset = true ∧ State.reset.pending = []
end

