-- ==== Sys2Proof/Laws/SMap.lean ====
section
/-! SUPPORT. The laws of sparse maps: a read after a write, and that every operation keeps the canonical form. -/

namespace Sys2Proof.Machine

variable {α : Type}

@[simp] theorem SMap.get_nil (d : Nat → α) (k : Nat) : SMap.get d [] k = d k := rfl

theorem SMap.get_put_same (d : Nat → α) (m : SMap α) (k : Nat) (v : α) : SMap.get d (SMap.put m k v) k = v := by
  induction m with
  | nil => simp [SMap.put, SMap.get]
  | cons e m ih =>
    obtain ⟨a, w⟩ := e
    simp only [SMap.put]
    split
    · simp [SMap.get]
    · split
      · simp [SMap.get]
      · rename_i h1 h2
        simp [SMap.get, ih, Ne.symm h2]

theorem SMap.get_put_other (d : Nat → α) (m : SMap α) {k j : Nat} (v : α) (h : k ≠ j) :
    SMap.get d (SMap.put m k v) j = SMap.get d m j := by
  induction m with
  | nil => simp [SMap.put, SMap.get, h]
  | cons e m ih =>
    obtain ⟨a, w⟩ := e
    simp only [SMap.put]
    split
    · simp [SMap.get, h]
    · split
      · rename_i h1 h2
        subst h2
        simp [SMap.get, h]
      · simp [SMap.get, ih]

theorem SMap.get_drop_same (d : Nat → α) (m : SMap α) (k : Nat) : SMap.get d (SMap.drop m k) k = d k := by
  induction m with
  | nil => rfl
  | cons e m ih =>
    obtain ⟨a, w⟩ := e
    simp only [SMap.drop]
    split
    · exact ih
    · rename_i h
      simp [SMap.get, Ne.symm h, ih]

theorem SMap.get_drop_other (d : Nat → α) (m : SMap α) {k j : Nat} (h : k ≠ j) :
    SMap.get d (SMap.drop m k) j = SMap.get d m j := by
  induction m with
  | nil => rfl
  | cons e m ih =>
    obtain ⟨a, w⟩ := e
    simp only [SMap.drop]
    split
    · rename_i h1
      subst h1
      simp [SMap.get, h, ih]
    · simp [SMap.get, ih]

@[simp] theorem SMap.length_getMany (d : Nat → α) (m : SMap α) (k n : Nat) : (SMap.getMany d m k n).length = n := by
  induction n generalizing k with
  | zero => rfl
  | succ n ih => simp [SMap.getMany, ih]

/-- Each value of a string read is the value at its key. -/
theorem SMap.getElem_getMany (d : Nat → α) (m : SMap α) (k n i : Nat) (h : i < (SMap.getMany d m k n).length) :
    (SMap.getMany d m k n)[i] = SMap.get d m (k + i) := by
  induction n generalizing k i with
  | zero => simp [SMap.getMany] at h
  | succ n ih =>
    cases i with
    | zero => rfl
    | succ i =>
      simp only [SMap.getMany, List.getElem_cons_succ]
      rw [ih]
      congr 1
      omega

section

variable [DecidableEq α]

/-- A read after a write to the same key gives the value written. -/
theorem SMap.get_set_same (d : Nat → α) (m : SMap α) (k : Nat) (v : α) : SMap.get d (SMap.set d m k v) k = v := by
  unfold SMap.set
  split
  · rename_i h
    rw [SMap.get_drop_same, h]
  · exact SMap.get_put_same d m k v

/-- A write leaves every other key alone. -/
theorem SMap.get_set_other (d : Nat → α) (m : SMap α) {k j : Nat} (v : α) (h : k ≠ j) :
    SMap.get d (SMap.set d m k v) j = SMap.get d m j := by
  unfold SMap.set
  split
  · exact SMap.get_drop_other d m h
  · exact SMap.get_put_other d m v h

/-- A write of a string leaves every key outside it alone. -/
theorem SMap.get_setMany_other (d : Nat → α) (vs : List α) (m : SMap α) (k j : Nat) (h : j < k ∨ k + vs.length ≤ j) :
    SMap.get d (SMap.setMany d m k vs) j = SMap.get d m j := by
  induction vs generalizing m k with
  | nil => rfl
  | cons v vs ih =>
    simp only [List.length_cons] at h
    rw [SMap.setMany, ih _ _ (by omega), SMap.get_set_other _ _ _ (by omega)]

/-- A read within a written string gives its value. -/
theorem SMap.get_setMany_in (d : Nat → α) (vs : List α) (m : SMap α) (k i : Nat) (h : i < vs.length) :
    SMap.get d (SMap.setMany d m k vs) (k + i) = vs[i] := by
  induction vs generalizing m k i with
  | nil => simp at h
  | cons v vs ih =>
    rw [SMap.setMany]
    cases i with
    | zero =>
      rw [SMap.get_setMany_other _ _ _ _ _ (by omega)]
      exact SMap.get_set_same d m k v
    | succ i =>
      have := ih (SMap.set d m k v) (k + 1) i (by simpa using h)
      rw [show k + (i + 1) = k + 1 + i by omega, this]
      rfl

/-- A string read where a string of that length was written is that string. -/
theorem SMap.getMany_setMany_same (d : Nat → α) (vs : List α) (m : SMap α) (k : Nat) :
    SMap.getMany d (SMap.setMany d m k vs) k vs.length = vs := by
  apply List.ext_getElem (by simp)
  intro i h1 h2
  rw [SMap.getElem_getMany, SMap.get_setMany_in]

/-- A string read apart from a string written reads as before. -/
theorem SMap.getMany_setMany_apart (d : Nat → α) (vs : List α) (m : SMap α) (k j n : Nat) (h : j + n ≤ k ∨ k + vs.length ≤ j) :
    SMap.getMany d (SMap.setMany d m k vs) j n = SMap.getMany d m j n := by
  apply List.ext_getElem (by simp)
  intro i h1 h2
  rw [SMap.length_getMany] at h1
  rw [SMap.getElem_getMany, SMap.getElem_getMany, SMap.get_setMany_other _ _ _ _ _ (by omega)]

/-! Strings whose consecutive addresses lie at keys that a function gives (R311). -/

omit [DecidableEq α] in
@[simp] theorem SMap.length_getVia (d : Nat → α) (f : Nat → Nat) (m : SMap α) (k n : Nat) : (SMap.getVia d f m k n).length = n := by
  induction n generalizing k with
  | zero => rfl
  | succ n ih => simp [SMap.getVia, ih]

omit [DecidableEq α] in
/-- Each value of a string read is the value at the key of its address. -/
theorem SMap.getElem_getVia (d : Nat → α) (f : Nat → Nat) (m : SMap α) (k n i : Nat) (h : i < (SMap.getVia d f m k n).length) :
    (SMap.getVia d f m k n)[i] = SMap.get d m (f (k + i)) := by
  induction n generalizing k i with
  | zero => simp [SMap.getVia] at h
  | succ n ih =>
    cases i with
    | zero => rfl
    | succ i =>
      simp only [SMap.getVia, List.getElem_cons_succ]
      rw [ih, show k + 1 + i = k + (i + 1) by omega]

/-- A write of a string leaves every key alone that none of its addresses has. -/
theorem SMap.get_setVia_other (d : Nat → α) (f : Nat → Nat) (vs : List α) (m : SMap α) (k j : Nat)
    (h : ∀ i < vs.length, f (k + i) ≠ j) : SMap.get d (SMap.setVia d f m k vs) j = SMap.get d m j := by
  induction vs generalizing m k with
  | nil => rfl
  | cons v vs ih =>
    have h0 := h 0 (by simp)
    rw [SMap.setVia, ih _ _ (fun i hi => ?_), SMap.get_set_other _ _ _ (by simpa using h0)]
    have h1 := h (i + 1) (by simpa using hi)
    rwa [show k + (i + 1) = k + 1 + i by omega] at h1

/-- A read within a written string whose addresses have keys of their own gives its value. -/
theorem SMap.get_setVia_in (d : Nat → α) (f : Nat → Nat) (vs : List α) (m : SMap α) (k i : Nat) (h : i < vs.length)
    (hf : ∀ a < vs.length, ∀ b < vs.length, f (k + a) = f (k + b) → a = b) :
    SMap.get d (SMap.setVia d f m k vs) (f (k + i)) = vs[i] := by
  induction vs generalizing m k i with
  | nil => simp at h
  | cons v vs ih =>
    rw [SMap.setVia]
    cases i with
    | zero =>
      rw [SMap.get_setVia_other _ _ _ _ _ _ (fun a ha e => ?_)]
      · exact SMap.get_set_same d m (f k) v
      · have := hf (a + 1) (by simpa using ha) 0 (by simp) (by rw [show k + (a + 1) = k + 1 + a by omega]; exact e)
        omega
    | succ i =>
      have := ih (SMap.set d m (f k) v) (k + 1) i (by simpa using h) (fun a ha b hb e => by
        have := hf (a + 1) (by simpa using ha) (b + 1) (by simpa using hb)
          (by rw [show k + (a + 1) = k + 1 + a by omega, show k + (b + 1) = k + 1 + b by omega]; exact e)
        omega)
      rw [show k + (i + 1) = k + 1 + i by omega, this]
      rfl

/-- A string read where a string of that length was written is that string. -/
theorem SMap.getVia_setVia_same (d : Nat → α) (f : Nat → Nat) (vs : List α) (m : SMap α) (k : Nat)
    (hf : ∀ a < vs.length, ∀ b < vs.length, f (k + a) = f (k + b) → a = b) :
    SMap.getVia d f (SMap.setVia d f m k vs) k vs.length = vs := by
  apply List.ext_getElem (by simp)
  intro i h1 h2
  rw [SMap.getElem_getVia, SMap.get_setVia_in _ _ _ _ _ _ h2 hf]

/-- A string read whose keys are apart from those of a string written reads as before. -/
theorem SMap.getVia_setVia_apart (d : Nat → α) (f : Nat → Nat) (vs : List α) (m : SMap α) (k j n : Nat)
    (h : ∀ a < vs.length, ∀ b < n, f (k + a) ≠ f (j + b)) :
    SMap.getVia d f (SMap.setVia d f m k vs) j n = SMap.getVia d f m j n := by
  apply List.ext_getElem (by simp)
  intro i h1 h2
  rw [SMap.length_getVia] at h1
  rw [SMap.getElem_getVia, SMap.getElem_getVia, SMap.get_setVia_other _ _ _ _ _ _ (fun a ha => h a ha i h1)]

end

/-! The canonical form. -/

/-- The least key of a list is at least `n`. -/
def SMap.above (n : Nat) : SMap α → Bool
  | [] => true
  | (a, _) :: _ => decide (n ≤ a)

theorem SMap.sorted_cons (a : Nat) (v : α) (m : SMap α) :
    SMap.sorted ((a, v) :: m) = (SMap.above (a + 1) m && SMap.sorted m) := by
  cases m with
  | nil => rfl
  | cons e m =>
    obtain ⟨b, w⟩ := e
    simp [SMap.sorted, SMap.above, Nat.succ_le_iff]

theorem SMap.above_mono {m n : Nat} (l : SMap α) (h : n ≤ m) : SMap.above m l = true → SMap.above n l = true := by
  cases l with
  | nil => simp [SMap.above]
  | cons e l =>
    obtain ⟨a, w⟩ := e
    simp only [SMap.above, decide_eq_true_eq]
    omega

theorem SMap.above_put (n : Nat) (m : SMap α) (k : Nat) (v : α) (h : n ≤ k) (hm : SMap.above n m = true) :
    SMap.above n (SMap.put m k v) = true := by
  cases m with
  | nil => simpa [SMap.put, SMap.above] using h
  | cons e m =>
    obtain ⟨a, w⟩ := e
    simp only [SMap.put]
    simp only [SMap.above, decide_eq_true_eq] at hm
    split
    · simpa [SMap.above] using h
    · split <;> simp [SMap.above, h, hm]

theorem SMap.sorted_put (m : SMap α) (k : Nat) (v : α) (h : SMap.sorted m = true) : SMap.sorted (SMap.put m k v) = true := by
  induction m with
  | nil => rfl
  | cons e m ih =>
    obtain ⟨a, w⟩ := e
    rw [SMap.sorted_cons, Bool.and_eq_true] at h
    simp only [SMap.put]
    split
    · rename_i hk
      rw [SMap.sorted_cons, SMap.sorted_cons, h.1, h.2]
      simp [SMap.above, Nat.succ_le_iff, hk]
    · split
      · rename_i hk
        subst hk
        rw [SMap.sorted_cons, h.1, h.2]
        rfl
      · rename_i h1 h2
        rw [SMap.sorted_cons, ih h.2, SMap.above_put _ _ _ _ (by omega) h.1]
        rfl

theorem SMap.above_drop (n : Nat) (m : SMap α) (k : Nat) (hs : SMap.sorted m = true) (hm : SMap.above n m = true) :
    SMap.above n (SMap.drop m k) = true := by
  induction m with
  | nil => rfl
  | cons e m ih =>
    obtain ⟨a, w⟩ := e
    rw [SMap.sorted_cons, Bool.and_eq_true] at hs
    simp only [SMap.above, decide_eq_true_eq] at hm
    simp only [SMap.drop]
    split
    · exact ih hs.2 (SMap.above_mono m (by omega) hs.1)
    · simpa [SMap.above] using hm

theorem SMap.sorted_drop (m : SMap α) (k : Nat) (h : SMap.sorted m = true) : SMap.sorted (SMap.drop m k) = true := by
  induction m with
  | nil => rfl
  | cons e m ih =>
    obtain ⟨a, w⟩ := e
    rw [SMap.sorted_cons, Bool.and_eq_true] at h
    simp only [SMap.drop]
    split
    · exact ih h.2
    · rw [SMap.sorted_cons, ih h.2, SMap.above_drop _ _ _ h.2 h.1]
      rfl

theorem SMap.mem_drop {m : SMap α} {k : Nat} {e : Nat × α} (h : e ∈ SMap.drop m k) : e ∈ m := by
  induction m with
  | nil => exact h
  | cons x m ih =>
    obtain ⟨a, w⟩ := x
    simp only [SMap.drop] at h
    split at h
    · exact List.mem_cons_of_mem _ (ih h)
    · rcases List.mem_cons.1 h with h | h
      · exact h ▸ List.mem_cons_self ..
      · exact List.mem_cons_of_mem _ (ih h)

theorem SMap.mem_put {m : SMap α} {k : Nat} {v : α} {e : Nat × α} (h : e ∈ SMap.put m k v) : e = (k, v) ∨ e ∈ m := by
  induction m with
  | nil => simpa [SMap.put] using h
  | cons x m ih =>
    obtain ⟨a, w⟩ := x
    simp only [SMap.put] at h
    split at h
    · rcases List.mem_cons.1 h with h | h
      · exact Or.inl h
      · exact Or.inr h
    · split at h
      · rcases List.mem_cons.1 h with h | h
        · exact Or.inl h
        · exact Or.inr (List.mem_cons_of_mem _ h)
      · rcases List.mem_cons.1 h with h | h
        · exact Or.inr (h ▸ List.mem_cons_self ..)
        · rcases ih h with h | h
          · exact Or.inl h
          · exact Or.inr (List.mem_cons_of_mem _ h)

theorem SMap.sorted_pairwise (m : SMap α) : SMap.sorted m = true ↔ m.Pairwise (fun x y => x.1 < y.1) := by
  induction m with
  | nil => simp [SMap.sorted]
  | cons e m ih =>
    obtain ⟨a, v⟩ := e
    cases m with
    | nil => simp [SMap.sorted]
    | cons f m =>
      obtain ⟨b, w⟩ := f
      rw [List.pairwise_cons, ← ih]
      simp only [SMap.sorted, Bool.and_eq_true, decide_eq_true_eq]
      refine ⟨fun h => ⟨fun x hx => ?_, h.2⟩, fun h => ⟨h.1 (b, w) (List.mem_cons_self ..), h.2⟩⟩
      have hp := List.pairwise_cons.1 (ih.1 h.2)
      rcases List.mem_cons.1 hx with rfl | hx
      · exact h.1
      · exact Nat.lt_trans h.1 (hp.1 x hx)

theorem SMap.get_keep (d : Nat → α) (p : Nat → Bool) (m : SMap α) (k : Nat) :
    SMap.get d (SMap.keep p m) k = if p k then SMap.get d m k else d k := by
  induction m with
  | nil => simp [SMap.keep]
  | cons e m ih =>
    obtain ⟨a, v⟩ := e
    unfold SMap.keep at ih ⊢
    by_cases hp : p a = true
    · simp only [List.filter_cons, hp, if_true, SMap.get, ih]
      by_cases ha : a = k
      · subst ha; simp [hp]
      · simp [ha]
    · simp only [List.filter_cons, hp, SMap.get]
      by_cases ha : a = k
      · subst ha; simp [ih, hp]
      · simp [ha, ih]

section

variable [DecidableEq α]

theorem SMap.wf_iff (d : Nat → α) (m : SMap α) :
    SMap.wf d m = true ↔ SMap.sorted m = true ∧ ∀ e ∈ m, e.2 ≠ d e.1 := by
  simp [SMap.wf]

/-- A write keeps the canonical form. -/
theorem SMap.wf_set (d : Nat → α) (m : SMap α) (k : Nat) (v : α) (h : SMap.wf d m = true) :
    SMap.wf d (SMap.set d m k v) = true := by
  rw [SMap.wf_iff] at h ⊢
  unfold SMap.set
  split
  · exact ⟨SMap.sorted_drop m k h.1, fun e he => h.2 e (SMap.mem_drop he)⟩
  · rename_i hv
    refine ⟨SMap.sorted_put m k v h.1, fun e he => ?_⟩
    rcases SMap.mem_put he with rfl | he
    · exact hv
    · exact h.2 e he

/-- A write of a string keeps the canonical form. -/
theorem SMap.wf_setMany (d : Nat → α) (vs : List α) (m : SMap α) (k : Nat) (h : SMap.wf d m = true) :
    SMap.wf d (SMap.setMany d m k vs) = true := by
  induction vs generalizing m k with
  | nil => exact h
  | cons v vs ih => exact ih _ _ (SMap.wf_set d m k v h)

/-- A write of a string at the keys of its addresses keeps the canonical form. -/
theorem SMap.wf_setVia (d : Nat → α) (f : Nat → Nat) (vs : List α) (m : SMap α) (k : Nat) (h : SMap.wf d m = true) :
    SMap.wf d (SMap.setVia d f m k vs) = true := by
  induction vs generalizing m k with
  | nil => exact h
  | cons v vs ih => exact ih _ _ (SMap.wf_set d m (f k) v h)

/-- Returning keys to their default keeps the canonical form. -/
theorem SMap.wf_keep (d : Nat → α) (p : Nat → Bool) (m : SMap α) (h : SMap.wf d m = true) :
    SMap.wf d (SMap.keep p m) = true := by
  rw [SMap.wf_iff] at h ⊢
  refine ⟨?_, fun e he => h.2 e (List.mem_filter.1 he).1⟩
  exact (SMap.sorted_pairwise _).2 (((SMap.sorted_pairwise m).1 h.1).filter _)

end

end Sys2Proof.Machine
end

