-- ==== Sys2Proof/Laws/State.lean ====
section
/-! SUPPORT. What each named update of the state leaves alone, one field a lemma, so that no proof unfolds a record update. -/

namespace Sys2Proof.Machine

variable (s : State)

@[simp] theorem State.rset_pending (a : Nat) (v : W32) : (s.rset a v).pending = s.pending := rfl
@[simp] theorem State.rset_snaps (a : Nat) (v : W32) : (s.rset a v).snaps = s.snaps := rfl
@[simp] theorem State.rset_rdata (a : Nat) (v : W32) : (s.rset a v).rdata = s.rdata := rfl
@[simp] theorem State.rset_i2cOut (a : Nat) (v : W32) : (s.rset a v).i2cOut = s.i2cOut := rfl
@[simp] theorem State.rset_i2cNack (a : Nat) (v : W32) : (s.rset a v).i2cNack = s.i2cNack := rfl
@[simp] theorem State.rset_free (a : Nat) (v : W32) : (s.rset a v).free = s.free := rfl
@[simp] theorem State.rset_time (a : Nat) (v : W32) : (s.rset a v).time = s.time := rfl
@[simp] theorem State.rset_clock (a : Nat) (v : W32) : (s.rset a v).clock = s.clock := rfl
@[simp] theorem State.rset_probe (a : Nat) (v : W32) : (s.rset a v).probe = s.probe := rfl
@[simp] theorem State.rset_coef0 (a : Nat) (v : W32) : (s.rset a v).coef0 = s.coef0 := rfl
@[simp] theorem State.rset_coef1 (a : Nat) (v : W32) : (s.rset a v).coef1 = s.coef1 := rfl
@[simp] theorem State.rset_lut0 (a : Nat) (v : W32) : (s.rset a v).lut0 = s.lut0 := rfl
@[simp] theorem State.rset_lut1 (a : Nat) (v : W32) : (s.rset a v).lut1 = s.lut1 := rfl
@[simp] theorem State.rset_slots (a : Nat) (v : W32) : (s.rset a v).slots = s.slots := rfl
@[simp] theorem State.rset_asms (a : Nat) (v : W32) : (s.rset a v).asms = s.asms := rfl
@[simp] theorem State.rset_asmSeq (a : Nat) (v : W32) : (s.rset a v).asmSeq = s.asmSeq := rfl
@[simp] theorem State.rset_owed (a : Nat) (v : W32) : (s.rset a v).owed = s.owed := rfl
@[simp] theorem State.rset_lyr (a : Nat) (v : W32) : (s.rset a v).lyr = s.lyr := rfl
@[simp] theorem State.rset_syn (a : Nat) (v : W32) : (s.rset a v).syn = s.syn := rfl
@[simp] theorem State.rset_tab (a : Nat) (v : W32) : (s.rset a v).tab = s.tab := rfl
@[simp] theorem State.rset_drv (a : Nat) (v : W32) : (s.rset a v).drv = s.drv := rfl
@[simp] theorem State.rset_hbm (a : Nat) (v : W32) : (s.rset a v).hbm = s.hbm := rfl
@[simp] theorem State.rset_swd (a : Nat) (v : W32) : (s.rset a v).swd = s.swd := rfl
@[simp] theorem State.rset_tsets (a : Nat) (v : W32) : (s.rset a v).tsets = s.tsets := rfl
@[simp] theorem State.rset_codeTabs (a : Nat) (v : W32) : (s.rset a v).codeTabs = s.codeTabs := rfl
@[simp] theorem State.rset_ports (a : Nat) (v : W32) : (s.rset a v).ports = s.ports := rfl
@[simp] theorem State.rset_ses (a : Nat) (v : W32) : (s.rset a v).ses = s.ses := rfl
@[simp] theorem State.rset_cas (a : Nat) (v : W32) : (s.rset a v).cas = s.cas := rfl
@[simp] theorem State.rset_tim (a : Nat) (v : W32) : (s.rset a v).tim = s.tim := rfl
@[simp] theorem State.rset_pl (a : Nat) (v : W32) : (s.rset a v).pl = s.pl := rfl
@[simp] theorem State.rset_pwd (a : Nat) (v : W32) : (s.rset a v).pwd = s.pwd := rfl
@[simp] theorem State.rset_mem (a : Nat) (v : W32) : (s.rset a v).mem = s.mem := rfl
@[simp] theorem State.rset_caps (a : Nat) (v : W32) : (s.rset a v).caps = s.caps := rfl
@[simp] theorem State.rset_cal (a : Nat) (v : W32) : (s.rset a v).cal = s.cal := rfl
@[simp] theorem State.rset_pwr (a : Nat) (v : W32) : (s.rset a v).pwr = s.pwr := rfl
@[simp] theorem State.rset_tap (a : Nat) (v : W32) : (s.rset a v).tap = s.tap := rfl
@[simp] theorem State.rset_boxes (a : Nat) (v : W32) : (s.rset a v).boxes = s.boxes := rfl
@[simp] theorem State.rset_heath (a : Nat) (v : W32) : (s.rset a v).heath = s.heath := rfl
@[simp] theorem State.rset_jobs (a : Nat) (v : W32) : (s.rset a v).jobs = s.jobs := rfl
@[simp] theorem State.rset_straps (a : Nat) (v : W32) : (s.rset a v).straps = s.straps := rfl
@[simp] theorem State.rset_fuses (a : Nat) (v : W32) : (s.rset a v).fuses = s.fuses := rfl
@[simp] theorem State.rset_img (a : Nat) (v : W32) : (s.rset a v).img = s.img := rfl
@[simp] theorem State.rset_boot (a : Nat) (v : W32) : (s.rset a v).boot = s.boot := rfl
@[simp] theorem State.rset_nor (a : Nat) (v : W32) : (s.rset a v).nor = s.nor := rfl
@[simp] theorem State.rset_emmc (a : Nat) (v : W32) : (s.rset a v).emmc = s.emmc := rfl
@[simp] theorem State.rset_evtTurn (a : Nat) (v : W32) : (s.rset a v).evtTurn = s.evtTurn := rfl
@[simp] theorem State.rset_cyc (a : Nat) (v : W32) : (s.rset a v).cyc = s.cyc := rfl

@[simp] theorem State.fset_pending (f : Fld) (n : Nat) : (s.fset f n).pending = s.pending := rfl
@[simp] theorem State.fset_snaps (f : Fld) (n : Nat) : (s.fset f n).snaps = s.snaps := rfl
@[simp] theorem State.fset_rdata (f : Fld) (n : Nat) : (s.fset f n).rdata = s.rdata := rfl
@[simp] theorem State.fset_i2cOut (f : Fld) (n : Nat) : (s.fset f n).i2cOut = s.i2cOut := rfl
@[simp] theorem State.fset_i2cNack (f : Fld) (n : Nat) : (s.fset f n).i2cNack = s.i2cNack := rfl
@[simp] theorem State.fset_free (f : Fld) (n : Nat) : (s.fset f n).free = s.free := rfl
@[simp] theorem State.fset_time (f : Fld) (n : Nat) : (s.fset f n).time = s.time := rfl
@[simp] theorem State.fset_clock (f : Fld) (n : Nat) : (s.fset f n).clock = s.clock := rfl
@[simp] theorem State.fset_probe (f : Fld) (n : Nat) : (s.fset f n).probe = s.probe := rfl
@[simp] theorem State.fset_coef0 (f : Fld) (n : Nat) : (s.fset f n).coef0 = s.coef0 := rfl
@[simp] theorem State.fset_coef1 (f : Fld) (n : Nat) : (s.fset f n).coef1 = s.coef1 := rfl
@[simp] theorem State.fset_lut0 (f : Fld) (n : Nat) : (s.fset f n).lut0 = s.lut0 := rfl
@[simp] theorem State.fset_lut1 (f : Fld) (n : Nat) : (s.fset f n).lut1 = s.lut1 := rfl
@[simp] theorem State.fset_slots (f : Fld) (n : Nat) : (s.fset f n).slots = s.slots := rfl
@[simp] theorem State.fset_asms (f : Fld) (n : Nat) : (s.fset f n).asms = s.asms := rfl
@[simp] theorem State.fset_asmSeq (f : Fld) (n : Nat) : (s.fset f n).asmSeq = s.asmSeq := rfl
@[simp] theorem State.fset_owed (f : Fld) (n : Nat) : (s.fset f n).owed = s.owed := rfl
@[simp] theorem State.fset_lyr (f : Fld) (n : Nat) : (s.fset f n).lyr = s.lyr := rfl
@[simp] theorem State.fset_syn (f : Fld) (n : Nat) : (s.fset f n).syn = s.syn := rfl
@[simp] theorem State.fset_tab (f : Fld) (n : Nat) : (s.fset f n).tab = s.tab := rfl
@[simp] theorem State.fset_drv (f : Fld) (n : Nat) : (s.fset f n).drv = s.drv := rfl
@[simp] theorem State.fset_hbm (f : Fld) (n : Nat) : (s.fset f n).hbm = s.hbm := rfl
@[simp] theorem State.fset_swd (f : Fld) (n : Nat) : (s.fset f n).swd = s.swd := rfl
@[simp] theorem State.fset_tsets (f : Fld) (n : Nat) : (s.fset f n).tsets = s.tsets := rfl
@[simp] theorem State.fset_codeTabs (f : Fld) (n : Nat) : (s.fset f n).codeTabs = s.codeTabs := rfl
@[simp] theorem State.fset_ports (f : Fld) (n : Nat) : (s.fset f n).ports = s.ports := rfl
@[simp] theorem State.fset_ses (f : Fld) (n : Nat) : (s.fset f n).ses = s.ses := rfl
@[simp] theorem State.fset_cas (f : Fld) (n : Nat) : (s.fset f n).cas = s.cas := rfl
@[simp] theorem State.fset_tim (f : Fld) (n : Nat) : (s.fset f n).tim = s.tim := rfl
@[simp] theorem State.fset_pl (f : Fld) (n : Nat) : (s.fset f n).pl = s.pl := rfl
@[simp] theorem State.fset_pwd (f : Fld) (n : Nat) : (s.fset f n).pwd = s.pwd := rfl
@[simp] theorem State.fset_mem (f : Fld) (n : Nat) : (s.fset f n).mem = s.mem := rfl
@[simp] theorem State.fset_caps (f : Fld) (n : Nat) : (s.fset f n).caps = s.caps := rfl
@[simp] theorem State.fset_cal (f : Fld) (n : Nat) : (s.fset f n).cal = s.cal := rfl
@[simp] theorem State.fset_pwr (f : Fld) (n : Nat) : (s.fset f n).pwr = s.pwr := rfl
@[simp] theorem State.fset_tap (f : Fld) (n : Nat) : (s.fset f n).tap = s.tap := rfl
@[simp] theorem State.fset_boxes (f : Fld) (n : Nat) : (s.fset f n).boxes = s.boxes := rfl
@[simp] theorem State.fset_heath (f : Fld) (n : Nat) : (s.fset f n).heath = s.heath := rfl
@[simp] theorem State.fset_jobs (f : Fld) (n : Nat) : (s.fset f n).jobs = s.jobs := rfl
@[simp] theorem State.fset_straps (f : Fld) (n : Nat) : (s.fset f n).straps = s.straps := rfl
@[simp] theorem State.fset_fuses (f : Fld) (n : Nat) : (s.fset f n).fuses = s.fuses := rfl
@[simp] theorem State.fset_img (f : Fld) (n : Nat) : (s.fset f n).img = s.img := rfl
@[simp] theorem State.fset_boot (f : Fld) (n : Nat) : (s.fset f n).boot = s.boot := rfl
@[simp] theorem State.fset_nor (f : Fld) (n : Nat) : (s.fset f n).nor = s.nor := rfl
@[simp] theorem State.fset_emmc (f : Fld) (n : Nat) : (s.fset f n).emmc = s.emmc := rfl
@[simp] theorem State.fset_evtTurn (f : Fld) (n : Nat) : (s.fset f n).evtTurn = s.evtTurn := rfl
@[simp] theorem State.fset_cyc (f : Fld) (n : Nat) : (s.fset f n).cyc = s.cyc := rfl

@[simp] theorem State.fput_pending (f : Fld) (b : Bool) : (s.fput f b).pending = s.pending := rfl
@[simp] theorem State.fput_snaps (f : Fld) (b : Bool) : (s.fput f b).snaps = s.snaps := rfl
@[simp] theorem State.fput_rdata (f : Fld) (b : Bool) : (s.fput f b).rdata = s.rdata := rfl
@[simp] theorem State.fput_i2cOut (f : Fld) (b : Bool) : (s.fput f b).i2cOut = s.i2cOut := rfl
@[simp] theorem State.fput_i2cNack (f : Fld) (b : Bool) : (s.fput f b).i2cNack = s.i2cNack := rfl
@[simp] theorem State.fput_free (f : Fld) (b : Bool) : (s.fput f b).free = s.free := rfl
@[simp] theorem State.fput_time (f : Fld) (b : Bool) : (s.fput f b).time = s.time := rfl
@[simp] theorem State.fput_clock (f : Fld) (b : Bool) : (s.fput f b).clock = s.clock := rfl
@[simp] theorem State.fput_probe (f : Fld) (b : Bool) : (s.fput f b).probe = s.probe := rfl
@[simp] theorem State.fput_coef0 (f : Fld) (b : Bool) : (s.fput f b).coef0 = s.coef0 := rfl
@[simp] theorem State.fput_coef1 (f : Fld) (b : Bool) : (s.fput f b).coef1 = s.coef1 := rfl
@[simp] theorem State.fput_lut0 (f : Fld) (b : Bool) : (s.fput f b).lut0 = s.lut0 := rfl
@[simp] theorem State.fput_lut1 (f : Fld) (b : Bool) : (s.fput f b).lut1 = s.lut1 := rfl
@[simp] theorem State.fput_slots (f : Fld) (b : Bool) : (s.fput f b).slots = s.slots := rfl
@[simp] theorem State.fput_asms (f : Fld) (b : Bool) : (s.fput f b).asms = s.asms := rfl
@[simp] theorem State.fput_asmSeq (f : Fld) (b : Bool) : (s.fput f b).asmSeq = s.asmSeq := rfl
@[simp] theorem State.fput_owed (f : Fld) (b : Bool) : (s.fput f b).owed = s.owed := rfl
@[simp] theorem State.fput_lyr (f : Fld) (b : Bool) : (s.fput f b).lyr = s.lyr := rfl
@[simp] theorem State.fput_syn (f : Fld) (b : Bool) : (s.fput f b).syn = s.syn := rfl
@[simp] theorem State.fput_tab (f : Fld) (b : Bool) : (s.fput f b).tab = s.tab := rfl
@[simp] theorem State.fput_drv (f : Fld) (b : Bool) : (s.fput f b).drv = s.drv := rfl
@[simp] theorem State.fput_hbm (f : Fld) (b : Bool) : (s.fput f b).hbm = s.hbm := rfl
@[simp] theorem State.fput_swd (f : Fld) (b : Bool) : (s.fput f b).swd = s.swd := rfl
@[simp] theorem State.fput_tsets (f : Fld) (b : Bool) : (s.fput f b).tsets = s.tsets := rfl
@[simp] theorem State.fput_codeTabs (f : Fld) (b : Bool) : (s.fput f b).codeTabs = s.codeTabs := rfl
@[simp] theorem State.fput_ports (f : Fld) (b : Bool) : (s.fput f b).ports = s.ports := rfl
@[simp] theorem State.fput_ses (f : Fld) (b : Bool) : (s.fput f b).ses = s.ses := rfl
@[simp] theorem State.fput_cas (f : Fld) (b : Bool) : (s.fput f b).cas = s.cas := rfl
@[simp] theorem State.fput_tim (f : Fld) (b : Bool) : (s.fput f b).tim = s.tim := rfl
@[simp] theorem State.fput_pl (f : Fld) (b : Bool) : (s.fput f b).pl = s.pl := rfl
@[simp] theorem State.fput_pwd (f : Fld) (b : Bool) : (s.fput f b).pwd = s.pwd := rfl
@[simp] theorem State.fput_mem (f : Fld) (b : Bool) : (s.fput f b).mem = s.mem := rfl
@[simp] theorem State.fput_caps (f : Fld) (b : Bool) : (s.fput f b).caps = s.caps := rfl
@[simp] theorem State.fput_cal (f : Fld) (b : Bool) : (s.fput f b).cal = s.cal := rfl
@[simp] theorem State.fput_pwr (f : Fld) (b : Bool) : (s.fput f b).pwr = s.pwr := rfl
@[simp] theorem State.fput_tap (f : Fld) (b : Bool) : (s.fput f b).tap = s.tap := rfl
@[simp] theorem State.fput_boxes (f : Fld) (b : Bool) : (s.fput f b).boxes = s.boxes := rfl
@[simp] theorem State.fput_heath (f : Fld) (b : Bool) : (s.fput f b).heath = s.heath := rfl
@[simp] theorem State.fput_jobs (f : Fld) (b : Bool) : (s.fput f b).jobs = s.jobs := rfl
@[simp] theorem State.fput_straps (f : Fld) (b : Bool) : (s.fput f b).straps = s.straps := rfl
@[simp] theorem State.fput_fuses (f : Fld) (b : Bool) : (s.fput f b).fuses = s.fuses := rfl
@[simp] theorem State.fput_img (f : Fld) (b : Bool) : (s.fput f b).img = s.img := rfl
@[simp] theorem State.fput_boot (f : Fld) (b : Bool) : (s.fput f b).boot = s.boot := rfl
@[simp] theorem State.fput_nor (f : Fld) (b : Bool) : (s.fput f b).nor = s.nor := rfl
@[simp] theorem State.fput_emmc (f : Fld) (b : Bool) : (s.fput f b).emmc = s.emmc := rfl
@[simp] theorem State.fput_evtTurn (f : Fld) (b : Bool) : (s.fput f b).evtTurn = s.evtTurn := rfl
@[simp] theorem State.fput_cyc (f : Fld) (b : Bool) : (s.fput f b).cyc = s.cyc := rfl

@[simp] theorem State.wclear_pending (a : Nat) : (s.wclear a).pending = s.pending := rfl
@[simp] theorem State.wclear_snaps (a : Nat) : (s.wclear a).snaps = s.snaps := rfl
@[simp] theorem State.wclear_rdata (a : Nat) : (s.wclear a).rdata = s.rdata := rfl
@[simp] theorem State.wclear_i2cOut (a : Nat) : (s.wclear a).i2cOut = s.i2cOut := rfl
@[simp] theorem State.wclear_i2cNack (a : Nat) : (s.wclear a).i2cNack = s.i2cNack := rfl
@[simp] theorem State.wclear_free (a : Nat) : (s.wclear a).free = s.free := rfl
@[simp] theorem State.wclear_time (a : Nat) : (s.wclear a).time = s.time := rfl
@[simp] theorem State.wclear_clock (a : Nat) : (s.wclear a).clock = s.clock := rfl
@[simp] theorem State.wclear_probe (a : Nat) : (s.wclear a).probe = s.probe := rfl
@[simp] theorem State.wclear_coef0 (a : Nat) : (s.wclear a).coef0 = s.coef0 := rfl
@[simp] theorem State.wclear_coef1 (a : Nat) : (s.wclear a).coef1 = s.coef1 := rfl
@[simp] theorem State.wclear_lut0 (a : Nat) : (s.wclear a).lut0 = s.lut0 := rfl
@[simp] theorem State.wclear_lut1 (a : Nat) : (s.wclear a).lut1 = s.lut1 := rfl
@[simp] theorem State.wclear_slots (a : Nat) : (s.wclear a).slots = s.slots := rfl
@[simp] theorem State.wclear_asms (a : Nat) : (s.wclear a).asms = s.asms := rfl
@[simp] theorem State.wclear_asmSeq (a : Nat) : (s.wclear a).asmSeq = s.asmSeq := rfl
@[simp] theorem State.wclear_owed (a : Nat) : (s.wclear a).owed = s.owed := rfl
@[simp] theorem State.wclear_lyr (a : Nat) : (s.wclear a).lyr = s.lyr := rfl
@[simp] theorem State.wclear_syn (a : Nat) : (s.wclear a).syn = s.syn := rfl
@[simp] theorem State.wclear_tab (a : Nat) : (s.wclear a).tab = s.tab := rfl
@[simp] theorem State.wclear_drv (a : Nat) : (s.wclear a).drv = s.drv := rfl
@[simp] theorem State.wclear_hbm (a : Nat) : (s.wclear a).hbm = s.hbm := rfl
@[simp] theorem State.wclear_swd (a : Nat) : (s.wclear a).swd = s.swd := rfl
@[simp] theorem State.wclear_tsets (a : Nat) : (s.wclear a).tsets = s.tsets := rfl
@[simp] theorem State.wclear_codeTabs (a : Nat) : (s.wclear a).codeTabs = s.codeTabs := rfl
@[simp] theorem State.wclear_ports (a : Nat) : (s.wclear a).ports = s.ports := rfl
@[simp] theorem State.wclear_ses (a : Nat) : (s.wclear a).ses = s.ses := rfl
@[simp] theorem State.wclear_cas (a : Nat) : (s.wclear a).cas = s.cas := rfl
@[simp] theorem State.wclear_tim (a : Nat) : (s.wclear a).tim = s.tim := rfl
@[simp] theorem State.wclear_pl (a : Nat) : (s.wclear a).pl = s.pl := rfl
@[simp] theorem State.wclear_pwd (a : Nat) : (s.wclear a).pwd = s.pwd := rfl
@[simp] theorem State.wclear_mem (a : Nat) : (s.wclear a).mem = s.mem := rfl
@[simp] theorem State.wclear_caps (a : Nat) : (s.wclear a).caps = s.caps := rfl
@[simp] theorem State.wclear_cal (a : Nat) : (s.wclear a).cal = s.cal := rfl
@[simp] theorem State.wclear_pwr (a : Nat) : (s.wclear a).pwr = s.pwr := rfl
@[simp] theorem State.wclear_tap (a : Nat) : (s.wclear a).tap = s.tap := rfl
@[simp] theorem State.wclear_boxes (a : Nat) : (s.wclear a).boxes = s.boxes := rfl
@[simp] theorem State.wclear_heath (a : Nat) : (s.wclear a).heath = s.heath := rfl
@[simp] theorem State.wclear_jobs (a : Nat) : (s.wclear a).jobs = s.jobs := rfl
@[simp] theorem State.wclear_straps (a : Nat) : (s.wclear a).straps = s.straps := rfl
@[simp] theorem State.wclear_fuses (a : Nat) : (s.wclear a).fuses = s.fuses := rfl
@[simp] theorem State.wclear_img (a : Nat) : (s.wclear a).img = s.img := rfl
@[simp] theorem State.wclear_boot (a : Nat) : (s.wclear a).boot = s.boot := rfl
@[simp] theorem State.wclear_nor (a : Nat) : (s.wclear a).nor = s.nor := rfl
@[simp] theorem State.wclear_emmc (a : Nat) : (s.wclear a).emmc = s.emmc := rfl
@[simp] theorem State.wclear_evtTurn (a : Nat) : (s.wclear a).evtTurn = s.evtTurn := rfl
@[simp] theorem State.wclear_cyc (a : Nat) : (s.wclear a).cyc = s.cyc := rfl

@[simp] theorem State.fbump_pending (f : Fld) (g : Nat → Nat) : (s.fbump f g).pending = s.pending := rfl
@[simp] theorem State.fbump_snaps (f : Fld) (g : Nat → Nat) : (s.fbump f g).snaps = s.snaps := rfl
@[simp] theorem State.fbump_rdata (f : Fld) (g : Nat → Nat) : (s.fbump f g).rdata = s.rdata := rfl
@[simp] theorem State.fbump_i2cOut (f : Fld) (g : Nat → Nat) : (s.fbump f g).i2cOut = s.i2cOut := rfl
@[simp] theorem State.fbump_i2cNack (f : Fld) (g : Nat → Nat) : (s.fbump f g).i2cNack = s.i2cNack := rfl
@[simp] theorem State.fbump_free (f : Fld) (g : Nat → Nat) : (s.fbump f g).free = s.free := rfl
@[simp] theorem State.fbump_time (f : Fld) (g : Nat → Nat) : (s.fbump f g).time = s.time := rfl
@[simp] theorem State.fbump_clock (f : Fld) (g : Nat → Nat) : (s.fbump f g).clock = s.clock := rfl
@[simp] theorem State.fbump_probe (f : Fld) (g : Nat → Nat) : (s.fbump f g).probe = s.probe := rfl
@[simp] theorem State.fbump_coef0 (f : Fld) (g : Nat → Nat) : (s.fbump f g).coef0 = s.coef0 := rfl
@[simp] theorem State.fbump_coef1 (f : Fld) (g : Nat → Nat) : (s.fbump f g).coef1 = s.coef1 := rfl
@[simp] theorem State.fbump_lut0 (f : Fld) (g : Nat → Nat) : (s.fbump f g).lut0 = s.lut0 := rfl
@[simp] theorem State.fbump_lut1 (f : Fld) (g : Nat → Nat) : (s.fbump f g).lut1 = s.lut1 := rfl
@[simp] theorem State.fbump_slots (f : Fld) (g : Nat → Nat) : (s.fbump f g).slots = s.slots := rfl
@[simp] theorem State.fbump_asms (f : Fld) (g : Nat → Nat) : (s.fbump f g).asms = s.asms := rfl
@[simp] theorem State.fbump_asmSeq (f : Fld) (g : Nat → Nat) : (s.fbump f g).asmSeq = s.asmSeq := rfl
@[simp] theorem State.fbump_owed (f : Fld) (g : Nat → Nat) : (s.fbump f g).owed = s.owed := rfl
@[simp] theorem State.fbump_lyr (f : Fld) (g : Nat → Nat) : (s.fbump f g).lyr = s.lyr := rfl
@[simp] theorem State.fbump_syn (f : Fld) (g : Nat → Nat) : (s.fbump f g).syn = s.syn := rfl
@[simp] theorem State.fbump_tab (f : Fld) (g : Nat → Nat) : (s.fbump f g).tab = s.tab := rfl
@[simp] theorem State.fbump_drv (f : Fld) (g : Nat → Nat) : (s.fbump f g).drv = s.drv := rfl
@[simp] theorem State.fbump_hbm (f : Fld) (g : Nat → Nat) : (s.fbump f g).hbm = s.hbm := rfl
@[simp] theorem State.fbump_swd (f : Fld) (g : Nat → Nat) : (s.fbump f g).swd = s.swd := rfl
@[simp] theorem State.fbump_tsets (f : Fld) (g : Nat → Nat) : (s.fbump f g).tsets = s.tsets := rfl
@[simp] theorem State.fbump_codeTabs (f : Fld) (g : Nat → Nat) : (s.fbump f g).codeTabs = s.codeTabs := rfl
@[simp] theorem State.fbump_ports (f : Fld) (g : Nat → Nat) : (s.fbump f g).ports = s.ports := rfl
@[simp] theorem State.fbump_ses (f : Fld) (g : Nat → Nat) : (s.fbump f g).ses = s.ses := rfl
@[simp] theorem State.fbump_cas (f : Fld) (g : Nat → Nat) : (s.fbump f g).cas = s.cas := rfl
@[simp] theorem State.fbump_tim (f : Fld) (g : Nat → Nat) : (s.fbump f g).tim = s.tim := rfl
@[simp] theorem State.fbump_pl (f : Fld) (g : Nat → Nat) : (s.fbump f g).pl = s.pl := rfl
@[simp] theorem State.fbump_pwd (f : Fld) (g : Nat → Nat) : (s.fbump f g).pwd = s.pwd := rfl
@[simp] theorem State.fbump_mem (f : Fld) (g : Nat → Nat) : (s.fbump f g).mem = s.mem := rfl
@[simp] theorem State.fbump_caps (f : Fld) (g : Nat → Nat) : (s.fbump f g).caps = s.caps := rfl
@[simp] theorem State.fbump_cal (f : Fld) (g : Nat → Nat) : (s.fbump f g).cal = s.cal := rfl
@[simp] theorem State.fbump_pwr (f : Fld) (g : Nat → Nat) : (s.fbump f g).pwr = s.pwr := rfl
@[simp] theorem State.fbump_tap (f : Fld) (g : Nat → Nat) : (s.fbump f g).tap = s.tap := rfl
@[simp] theorem State.fbump_boxes (f : Fld) (g : Nat → Nat) : (s.fbump f g).boxes = s.boxes := rfl
@[simp] theorem State.fbump_heath (f : Fld) (g : Nat → Nat) : (s.fbump f g).heath = s.heath := rfl
@[simp] theorem State.fbump_jobs (f : Fld) (g : Nat → Nat) : (s.fbump f g).jobs = s.jobs := rfl
@[simp] theorem State.fbump_straps (f : Fld) (g : Nat → Nat) : (s.fbump f g).straps = s.straps := rfl
@[simp] theorem State.fbump_fuses (f : Fld) (g : Nat → Nat) : (s.fbump f g).fuses = s.fuses := rfl
@[simp] theorem State.fbump_img (f : Fld) (g : Nat → Nat) : (s.fbump f g).img = s.img := rfl
@[simp] theorem State.fbump_boot (f : Fld) (g : Nat → Nat) : (s.fbump f g).boot = s.boot := rfl
@[simp] theorem State.fbump_nor (f : Fld) (g : Nat → Nat) : (s.fbump f g).nor = s.nor := rfl
@[simp] theorem State.fbump_emmc (f : Fld) (g : Nat → Nat) : (s.fbump f g).emmc = s.emmc := rfl
@[simp] theorem State.fbump_evtTurn (f : Fld) (g : Nat → Nat) : (s.fbump f g).evtTurn = s.evtTurn := rfl

@[simp] theorem State.fadd_pending (f : Fld) (n : Nat) : (s.fadd f n).pending = s.pending := rfl
@[simp] theorem State.fadd_snaps (f : Fld) (n : Nat) : (s.fadd f n).snaps = s.snaps := rfl
@[simp] theorem State.fadd_rdata (f : Fld) (n : Nat) : (s.fadd f n).rdata = s.rdata := rfl
@[simp] theorem State.fadd_i2cOut (f : Fld) (n : Nat) : (s.fadd f n).i2cOut = s.i2cOut := rfl
@[simp] theorem State.fadd_i2cNack (f : Fld) (n : Nat) : (s.fadd f n).i2cNack = s.i2cNack := rfl
@[simp] theorem State.fadd_free (f : Fld) (n : Nat) : (s.fadd f n).free = s.free := rfl
@[simp] theorem State.fadd_time (f : Fld) (n : Nat) : (s.fadd f n).time = s.time := rfl
@[simp] theorem State.fadd_clock (f : Fld) (n : Nat) : (s.fadd f n).clock = s.clock := rfl
@[simp] theorem State.fadd_probe (f : Fld) (n : Nat) : (s.fadd f n).probe = s.probe := rfl
@[simp] theorem State.fadd_coef0 (f : Fld) (n : Nat) : (s.fadd f n).coef0 = s.coef0 := rfl
@[simp] theorem State.fadd_coef1 (f : Fld) (n : Nat) : (s.fadd f n).coef1 = s.coef1 := rfl
@[simp] theorem State.fadd_lut0 (f : Fld) (n : Nat) : (s.fadd f n).lut0 = s.lut0 := rfl
@[simp] theorem State.fadd_lut1 (f : Fld) (n : Nat) : (s.fadd f n).lut1 = s.lut1 := rfl
@[simp] theorem State.fadd_slots (f : Fld) (n : Nat) : (s.fadd f n).slots = s.slots := rfl
@[simp] theorem State.fadd_asms (f : Fld) (n : Nat) : (s.fadd f n).asms = s.asms := rfl
@[simp] theorem State.fadd_asmSeq (f : Fld) (n : Nat) : (s.fadd f n).asmSeq = s.asmSeq := rfl
@[simp] theorem State.fadd_owed (f : Fld) (n : Nat) : (s.fadd f n).owed = s.owed := rfl
@[simp] theorem State.fadd_lyr (f : Fld) (n : Nat) : (s.fadd f n).lyr = s.lyr := rfl
@[simp] theorem State.fadd_syn (f : Fld) (n : Nat) : (s.fadd f n).syn = s.syn := rfl
@[simp] theorem State.fadd_tab (f : Fld) (n : Nat) : (s.fadd f n).tab = s.tab := rfl
@[simp] theorem State.fadd_drv (f : Fld) (n : Nat) : (s.fadd f n).drv = s.drv := rfl
@[simp] theorem State.fadd_hbm (f : Fld) (n : Nat) : (s.fadd f n).hbm = s.hbm := rfl
@[simp] theorem State.fadd_swd (f : Fld) (n : Nat) : (s.fadd f n).swd = s.swd := rfl
@[simp] theorem State.fadd_tsets (f : Fld) (n : Nat) : (s.fadd f n).tsets = s.tsets := rfl
@[simp] theorem State.fadd_codeTabs (f : Fld) (n : Nat) : (s.fadd f n).codeTabs = s.codeTabs := rfl
@[simp] theorem State.fadd_ports (f : Fld) (n : Nat) : (s.fadd f n).ports = s.ports := rfl
@[simp] theorem State.fadd_ses (f : Fld) (n : Nat) : (s.fadd f n).ses = s.ses := rfl
@[simp] theorem State.fadd_cas (f : Fld) (n : Nat) : (s.fadd f n).cas = s.cas := rfl
@[simp] theorem State.fadd_tim (f : Fld) (n : Nat) : (s.fadd f n).tim = s.tim := rfl
@[simp] theorem State.fadd_pl (f : Fld) (n : Nat) : (s.fadd f n).pl = s.pl := rfl
@[simp] theorem State.fadd_pwd (f : Fld) (n : Nat) : (s.fadd f n).pwd = s.pwd := rfl
@[simp] theorem State.fadd_mem (f : Fld) (n : Nat) : (s.fadd f n).mem = s.mem := rfl
@[simp] theorem State.fadd_caps (f : Fld) (n : Nat) : (s.fadd f n).caps = s.caps := rfl
@[simp] theorem State.fadd_cal (f : Fld) (n : Nat) : (s.fadd f n).cal = s.cal := rfl
@[simp] theorem State.fadd_pwr (f : Fld) (n : Nat) : (s.fadd f n).pwr = s.pwr := rfl
@[simp] theorem State.fadd_tap (f : Fld) (n : Nat) : (s.fadd f n).tap = s.tap := rfl
@[simp] theorem State.fadd_boxes (f : Fld) (n : Nat) : (s.fadd f n).boxes = s.boxes := rfl
@[simp] theorem State.fadd_heath (f : Fld) (n : Nat) : (s.fadd f n).heath = s.heath := rfl
@[simp] theorem State.fadd_jobs (f : Fld) (n : Nat) : (s.fadd f n).jobs = s.jobs := rfl
@[simp] theorem State.fadd_straps (f : Fld) (n : Nat) : (s.fadd f n).straps = s.straps := rfl
@[simp] theorem State.fadd_fuses (f : Fld) (n : Nat) : (s.fadd f n).fuses = s.fuses := rfl
@[simp] theorem State.fadd_img (f : Fld) (n : Nat) : (s.fadd f n).img = s.img := rfl
@[simp] theorem State.fadd_boot (f : Fld) (n : Nat) : (s.fadd f n).boot = s.boot := rfl
@[simp] theorem State.fadd_nor (f : Fld) (n : Nat) : (s.fadd f n).nor = s.nor := rfl
@[simp] theorem State.fadd_emmc (f : Fld) (n : Nat) : (s.fadd f n).emmc = s.emmc := rfl
@[simp] theorem State.fadd_evtTurn (f : Fld) (n : Nat) : (s.fadd f n).evtTurn = s.evtTurn := rfl

@[simp] theorem State.fmax_pending (f : Fld) (n : Nat) : (s.fmax f n).pending = s.pending := rfl
@[simp] theorem State.fmax_snaps (f : Fld) (n : Nat) : (s.fmax f n).snaps = s.snaps := rfl
@[simp] theorem State.fmax_rdata (f : Fld) (n : Nat) : (s.fmax f n).rdata = s.rdata := rfl
@[simp] theorem State.fmax_i2cOut (f : Fld) (n : Nat) : (s.fmax f n).i2cOut = s.i2cOut := rfl
@[simp] theorem State.fmax_i2cNack (f : Fld) (n : Nat) : (s.fmax f n).i2cNack = s.i2cNack := rfl
@[simp] theorem State.fmax_free (f : Fld) (n : Nat) : (s.fmax f n).free = s.free := rfl
@[simp] theorem State.fmax_time (f : Fld) (n : Nat) : (s.fmax f n).time = s.time := rfl
@[simp] theorem State.fmax_clock (f : Fld) (n : Nat) : (s.fmax f n).clock = s.clock := rfl
@[simp] theorem State.fmax_probe (f : Fld) (n : Nat) : (s.fmax f n).probe = s.probe := rfl
@[simp] theorem State.fmax_coef0 (f : Fld) (n : Nat) : (s.fmax f n).coef0 = s.coef0 := rfl
@[simp] theorem State.fmax_coef1 (f : Fld) (n : Nat) : (s.fmax f n).coef1 = s.coef1 := rfl
@[simp] theorem State.fmax_lut0 (f : Fld) (n : Nat) : (s.fmax f n).lut0 = s.lut0 := rfl
@[simp] theorem State.fmax_lut1 (f : Fld) (n : Nat) : (s.fmax f n).lut1 = s.lut1 := rfl
@[simp] theorem State.fmax_slots (f : Fld) (n : Nat) : (s.fmax f n).slots = s.slots := rfl
@[simp] theorem State.fmax_asms (f : Fld) (n : Nat) : (s.fmax f n).asms = s.asms := rfl
@[simp] theorem State.fmax_asmSeq (f : Fld) (n : Nat) : (s.fmax f n).asmSeq = s.asmSeq := rfl
@[simp] theorem State.fmax_owed (f : Fld) (n : Nat) : (s.fmax f n).owed = s.owed := rfl
@[simp] theorem State.fmax_lyr (f : Fld) (n : Nat) : (s.fmax f n).lyr = s.lyr := rfl
@[simp] theorem State.fmax_syn (f : Fld) (n : Nat) : (s.fmax f n).syn = s.syn := rfl
@[simp] theorem State.fmax_tab (f : Fld) (n : Nat) : (s.fmax f n).tab = s.tab := rfl
@[simp] theorem State.fmax_drv (f : Fld) (n : Nat) : (s.fmax f n).drv = s.drv := rfl
@[simp] theorem State.fmax_hbm (f : Fld) (n : Nat) : (s.fmax f n).hbm = s.hbm := rfl
@[simp] theorem State.fmax_swd (f : Fld) (n : Nat) : (s.fmax f n).swd = s.swd := rfl
@[simp] theorem State.fmax_tsets (f : Fld) (n : Nat) : (s.fmax f n).tsets = s.tsets := rfl
@[simp] theorem State.fmax_codeTabs (f : Fld) (n : Nat) : (s.fmax f n).codeTabs = s.codeTabs := rfl
@[simp] theorem State.fmax_ports (f : Fld) (n : Nat) : (s.fmax f n).ports = s.ports := rfl
@[simp] theorem State.fmax_ses (f : Fld) (n : Nat) : (s.fmax f n).ses = s.ses := rfl
@[simp] theorem State.fmax_cas (f : Fld) (n : Nat) : (s.fmax f n).cas = s.cas := rfl
@[simp] theorem State.fmax_tim (f : Fld) (n : Nat) : (s.fmax f n).tim = s.tim := rfl
@[simp] theorem State.fmax_pl (f : Fld) (n : Nat) : (s.fmax f n).pl = s.pl := rfl
@[simp] theorem State.fmax_pwd (f : Fld) (n : Nat) : (s.fmax f n).pwd = s.pwd := rfl
@[simp] theorem State.fmax_mem (f : Fld) (n : Nat) : (s.fmax f n).mem = s.mem := rfl
@[simp] theorem State.fmax_caps (f : Fld) (n : Nat) : (s.fmax f n).caps = s.caps := rfl
@[simp] theorem State.fmax_cal (f : Fld) (n : Nat) : (s.fmax f n).cal = s.cal := rfl
@[simp] theorem State.fmax_pwr (f : Fld) (n : Nat) : (s.fmax f n).pwr = s.pwr := rfl
@[simp] theorem State.fmax_tap (f : Fld) (n : Nat) : (s.fmax f n).tap = s.tap := rfl
@[simp] theorem State.fmax_boxes (f : Fld) (n : Nat) : (s.fmax f n).boxes = s.boxes := rfl
@[simp] theorem State.fmax_heath (f : Fld) (n : Nat) : (s.fmax f n).heath = s.heath := rfl
@[simp] theorem State.fmax_jobs (f : Fld) (n : Nat) : (s.fmax f n).jobs = s.jobs := rfl
@[simp] theorem State.fmax_straps (f : Fld) (n : Nat) : (s.fmax f n).straps = s.straps := rfl
@[simp] theorem State.fmax_fuses (f : Fld) (n : Nat) : (s.fmax f n).fuses = s.fuses := rfl
@[simp] theorem State.fmax_img (f : Fld) (n : Nat) : (s.fmax f n).img = s.img := rfl
@[simp] theorem State.fmax_boot (f : Fld) (n : Nat) : (s.fmax f n).boot = s.boot := rfl
@[simp] theorem State.fmax_nor (f : Fld) (n : Nat) : (s.fmax f n).nor = s.nor := rfl
@[simp] theorem State.fmax_emmc (f : Fld) (n : Nat) : (s.fmax f n).emmc = s.emmc := rfl
@[simp] theorem State.fmax_evtTurn (f : Fld) (n : Nat) : (s.fmax f n).evtTurn = s.evtTurn := rfl

@[simp] theorem State.wset_pending (a m : Nat) : (s.wset a m).pending = s.pending := rfl
@[simp] theorem State.wset_snaps (a m : Nat) : (s.wset a m).snaps = s.snaps := rfl
@[simp] theorem State.wset_rdata (a m : Nat) : (s.wset a m).rdata = s.rdata := rfl
@[simp] theorem State.wset_i2cOut (a m : Nat) : (s.wset a m).i2cOut = s.i2cOut := rfl
@[simp] theorem State.wset_i2cNack (a m : Nat) : (s.wset a m).i2cNack = s.i2cNack := rfl
@[simp] theorem State.wset_free (a m : Nat) : (s.wset a m).free = s.free := rfl
@[simp] theorem State.wset_time (a m : Nat) : (s.wset a m).time = s.time := rfl
@[simp] theorem State.wset_clock (a m : Nat) : (s.wset a m).clock = s.clock := rfl
@[simp] theorem State.wset_probe (a m : Nat) : (s.wset a m).probe = s.probe := rfl
@[simp] theorem State.wset_coef0 (a m : Nat) : (s.wset a m).coef0 = s.coef0 := rfl
@[simp] theorem State.wset_coef1 (a m : Nat) : (s.wset a m).coef1 = s.coef1 := rfl
@[simp] theorem State.wset_lut0 (a m : Nat) : (s.wset a m).lut0 = s.lut0 := rfl
@[simp] theorem State.wset_lut1 (a m : Nat) : (s.wset a m).lut1 = s.lut1 := rfl
@[simp] theorem State.wset_slots (a m : Nat) : (s.wset a m).slots = s.slots := rfl
@[simp] theorem State.wset_asms (a m : Nat) : (s.wset a m).asms = s.asms := rfl
@[simp] theorem State.wset_asmSeq (a m : Nat) : (s.wset a m).asmSeq = s.asmSeq := rfl
@[simp] theorem State.wset_owed (a m : Nat) : (s.wset a m).owed = s.owed := rfl
@[simp] theorem State.wset_lyr (a m : Nat) : (s.wset a m).lyr = s.lyr := rfl
@[simp] theorem State.wset_syn (a m : Nat) : (s.wset a m).syn = s.syn := rfl
@[simp] theorem State.wset_tab (a m : Nat) : (s.wset a m).tab = s.tab := rfl
@[simp] theorem State.wset_drv (a m : Nat) : (s.wset a m).drv = s.drv := rfl
@[simp] theorem State.wset_hbm (a m : Nat) : (s.wset a m).hbm = s.hbm := rfl
@[simp] theorem State.wset_swd (a m : Nat) : (s.wset a m).swd = s.swd := rfl
@[simp] theorem State.wset_tsets (a m : Nat) : (s.wset a m).tsets = s.tsets := rfl
@[simp] theorem State.wset_codeTabs (a m : Nat) : (s.wset a m).codeTabs = s.codeTabs := rfl
@[simp] theorem State.wset_ports (a m : Nat) : (s.wset a m).ports = s.ports := rfl
@[simp] theorem State.wset_ses (a m : Nat) : (s.wset a m).ses = s.ses := rfl
@[simp] theorem State.wset_cas (a m : Nat) : (s.wset a m).cas = s.cas := rfl
@[simp] theorem State.wset_tim (a m : Nat) : (s.wset a m).tim = s.tim := rfl
@[simp] theorem State.wset_pl (a m : Nat) : (s.wset a m).pl = s.pl := rfl
@[simp] theorem State.wset_pwd (a m : Nat) : (s.wset a m).pwd = s.pwd := rfl
@[simp] theorem State.wset_mem (a m : Nat) : (s.wset a m).mem = s.mem := rfl
@[simp] theorem State.wset_caps (a m : Nat) : (s.wset a m).caps = s.caps := rfl
@[simp] theorem State.wset_cal (a m : Nat) : (s.wset a m).cal = s.cal := rfl
@[simp] theorem State.wset_pwr (a m : Nat) : (s.wset a m).pwr = s.pwr := rfl
@[simp] theorem State.wset_tap (a m : Nat) : (s.wset a m).tap = s.tap := rfl
@[simp] theorem State.wset_boxes (a m : Nat) : (s.wset a m).boxes = s.boxes := rfl
@[simp] theorem State.wset_heath (a m : Nat) : (s.wset a m).heath = s.heath := rfl
@[simp] theorem State.wset_jobs (a m : Nat) : (s.wset a m).jobs = s.jobs := rfl
@[simp] theorem State.wset_straps (a m : Nat) : (s.wset a m).straps = s.straps := rfl
@[simp] theorem State.wset_fuses (a m : Nat) : (s.wset a m).fuses = s.fuses := rfl
@[simp] theorem State.wset_img (a m : Nat) : (s.wset a m).img = s.img := rfl
@[simp] theorem State.wset_boot (a m : Nat) : (s.wset a m).boot = s.boot := rfl
@[simp] theorem State.wset_nor (a m : Nat) : (s.wset a m).nor = s.nor := rfl
@[simp] theorem State.wset_emmc (a m : Nat) : (s.wset a m).emmc = s.emmc := rfl
@[simp] theorem State.wset_evtTurn (a m : Nat) : (s.wset a m).evtTurn = s.evtTurn := rfl

@[simp] theorem State.uncount_pending (f : Fld) : (s.uncount f).pending = s.pending := rfl
@[simp] theorem State.uncount_snaps (f : Fld) : (s.uncount f).snaps = s.snaps := rfl
@[simp] theorem State.uncount_rdata (f : Fld) : (s.uncount f).rdata = s.rdata := rfl
@[simp] theorem State.uncount_i2cOut (f : Fld) : (s.uncount f).i2cOut = s.i2cOut := rfl
@[simp] theorem State.uncount_i2cNack (f : Fld) : (s.uncount f).i2cNack = s.i2cNack := rfl
@[simp] theorem State.uncount_free (f : Fld) : (s.uncount f).free = s.free := rfl
@[simp] theorem State.uncount_time (f : Fld) : (s.uncount f).time = s.time := rfl
@[simp] theorem State.uncount_clock (f : Fld) : (s.uncount f).clock = s.clock := rfl
@[simp] theorem State.uncount_probe (f : Fld) : (s.uncount f).probe = s.probe := rfl
@[simp] theorem State.uncount_coef0 (f : Fld) : (s.uncount f).coef0 = s.coef0 := rfl
@[simp] theorem State.uncount_coef1 (f : Fld) : (s.uncount f).coef1 = s.coef1 := rfl
@[simp] theorem State.uncount_lut0 (f : Fld) : (s.uncount f).lut0 = s.lut0 := rfl
@[simp] theorem State.uncount_lut1 (f : Fld) : (s.uncount f).lut1 = s.lut1 := rfl
@[simp] theorem State.uncount_slots (f : Fld) : (s.uncount f).slots = s.slots := rfl
@[simp] theorem State.uncount_asms (f : Fld) : (s.uncount f).asms = s.asms := rfl
@[simp] theorem State.uncount_asmSeq (f : Fld) : (s.uncount f).asmSeq = s.asmSeq := rfl
@[simp] theorem State.uncount_owed (f : Fld) : (s.uncount f).owed = s.owed := rfl
@[simp] theorem State.uncount_lyr (f : Fld) : (s.uncount f).lyr = s.lyr := rfl
@[simp] theorem State.uncount_syn (f : Fld) : (s.uncount f).syn = s.syn := rfl
@[simp] theorem State.uncount_tab (f : Fld) : (s.uncount f).tab = s.tab := rfl
@[simp] theorem State.uncount_drv (f : Fld) : (s.uncount f).drv = s.drv := rfl
@[simp] theorem State.uncount_hbm (f : Fld) : (s.uncount f).hbm = s.hbm := rfl
@[simp] theorem State.uncount_swd (f : Fld) : (s.uncount f).swd = s.swd := rfl
@[simp] theorem State.uncount_tsets (f : Fld) : (s.uncount f).tsets = s.tsets := rfl
@[simp] theorem State.uncount_codeTabs (f : Fld) : (s.uncount f).codeTabs = s.codeTabs := rfl
@[simp] theorem State.uncount_ports (f : Fld) : (s.uncount f).ports = s.ports := rfl
@[simp] theorem State.uncount_ses (f : Fld) : (s.uncount f).ses = s.ses := rfl
@[simp] theorem State.uncount_cas (f : Fld) : (s.uncount f).cas = s.cas := rfl
@[simp] theorem State.uncount_tim (f : Fld) : (s.uncount f).tim = s.tim := rfl
@[simp] theorem State.uncount_pl (f : Fld) : (s.uncount f).pl = s.pl := rfl
@[simp] theorem State.uncount_pwd (f : Fld) : (s.uncount f).pwd = s.pwd := rfl
@[simp] theorem State.uncount_mem (f : Fld) : (s.uncount f).mem = s.mem := rfl
@[simp] theorem State.uncount_caps (f : Fld) : (s.uncount f).caps = s.caps := rfl
@[simp] theorem State.uncount_cal (f : Fld) : (s.uncount f).cal = s.cal := rfl
@[simp] theorem State.uncount_pwr (f : Fld) : (s.uncount f).pwr = s.pwr := rfl
@[simp] theorem State.uncount_tap (f : Fld) : (s.uncount f).tap = s.tap := rfl
@[simp] theorem State.uncount_boxes (f : Fld) : (s.uncount f).boxes = s.boxes := rfl
@[simp] theorem State.uncount_heath (f : Fld) : (s.uncount f).heath = s.heath := rfl
@[simp] theorem State.uncount_jobs (f : Fld) : (s.uncount f).jobs = s.jobs := rfl
@[simp] theorem State.uncount_straps (f : Fld) : (s.uncount f).straps = s.straps := rfl
@[simp] theorem State.uncount_fuses (f : Fld) : (s.uncount f).fuses = s.fuses := rfl
@[simp] theorem State.uncount_img (f : Fld) : (s.uncount f).img = s.img := rfl
@[simp] theorem State.uncount_boot (f : Fld) : (s.uncount f).boot = s.boot := rfl
@[simp] theorem State.uncount_nor (f : Fld) : (s.uncount f).nor = s.nor := rfl
@[simp] theorem State.uncount_emmc (f : Fld) : (s.uncount f).emmc = s.emmc := rfl
@[simp] theorem State.uncount_evtTurn (f : Fld) : (s.uncount f).evtTurn = s.evtTurn := rfl

@[simp] theorem State.modCyc_pending (f : Cyc → Cyc) : (s.modCyc f).pending = s.pending := rfl
@[simp] theorem State.modCyc_regs (f : Cyc → Cyc) : (s.modCyc f).regs = s.regs := rfl
@[simp] theorem State.modCyc_snaps (f : Cyc → Cyc) : (s.modCyc f).snaps = s.snaps := rfl
@[simp] theorem State.modCyc_rdata (f : Cyc → Cyc) : (s.modCyc f).rdata = s.rdata := rfl
@[simp] theorem State.modCyc_i2cOut (f : Cyc → Cyc) : (s.modCyc f).i2cOut = s.i2cOut := rfl
@[simp] theorem State.modCyc_i2cNack (f : Cyc → Cyc) : (s.modCyc f).i2cNack = s.i2cNack := rfl
@[simp] theorem State.modCyc_free (f : Cyc → Cyc) : (s.modCyc f).free = s.free := rfl
@[simp] theorem State.modCyc_time (f : Cyc → Cyc) : (s.modCyc f).time = s.time := rfl
@[simp] theorem State.modCyc_clock (f : Cyc → Cyc) : (s.modCyc f).clock = s.clock := rfl
@[simp] theorem State.modCyc_probe (f : Cyc → Cyc) : (s.modCyc f).probe = s.probe := rfl
@[simp] theorem State.modCyc_coef0 (f : Cyc → Cyc) : (s.modCyc f).coef0 = s.coef0 := rfl
@[simp] theorem State.modCyc_coef1 (f : Cyc → Cyc) : (s.modCyc f).coef1 = s.coef1 := rfl
@[simp] theorem State.modCyc_lut0 (f : Cyc → Cyc) : (s.modCyc f).lut0 = s.lut0 := rfl
@[simp] theorem State.modCyc_lut1 (f : Cyc → Cyc) : (s.modCyc f).lut1 = s.lut1 := rfl
@[simp] theorem State.modCyc_slots (f : Cyc → Cyc) : (s.modCyc f).slots = s.slots := rfl
@[simp] theorem State.modCyc_asms (f : Cyc → Cyc) : (s.modCyc f).asms = s.asms := rfl
@[simp] theorem State.modCyc_asmSeq (f : Cyc → Cyc) : (s.modCyc f).asmSeq = s.asmSeq := rfl
@[simp] theorem State.modCyc_owed (f : Cyc → Cyc) : (s.modCyc f).owed = s.owed := rfl
@[simp] theorem State.modCyc_lyr (f : Cyc → Cyc) : (s.modCyc f).lyr = s.lyr := rfl
@[simp] theorem State.modCyc_syn (f : Cyc → Cyc) : (s.modCyc f).syn = s.syn := rfl
@[simp] theorem State.modCyc_tab (f : Cyc → Cyc) : (s.modCyc f).tab = s.tab := rfl
@[simp] theorem State.modCyc_drv (f : Cyc → Cyc) : (s.modCyc f).drv = s.drv := rfl
@[simp] theorem State.modCyc_hbm (f : Cyc → Cyc) : (s.modCyc f).hbm = s.hbm := rfl
@[simp] theorem State.modCyc_swd (f : Cyc → Cyc) : (s.modCyc f).swd = s.swd := rfl
@[simp] theorem State.modCyc_tsets (f : Cyc → Cyc) : (s.modCyc f).tsets = s.tsets := rfl
@[simp] theorem State.modCyc_codeTabs (f : Cyc → Cyc) : (s.modCyc f).codeTabs = s.codeTabs := rfl
@[simp] theorem State.modCyc_ports (f : Cyc → Cyc) : (s.modCyc f).ports = s.ports := rfl
@[simp] theorem State.modCyc_ses (f : Cyc → Cyc) : (s.modCyc f).ses = s.ses := rfl
@[simp] theorem State.modCyc_cas (f : Cyc → Cyc) : (s.modCyc f).cas = s.cas := rfl
@[simp] theorem State.modCyc_tim (f : Cyc → Cyc) : (s.modCyc f).tim = s.tim := rfl
@[simp] theorem State.modCyc_pl (f : Cyc → Cyc) : (s.modCyc f).pl = s.pl := rfl
@[simp] theorem State.modCyc_pwd (f : Cyc → Cyc) : (s.modCyc f).pwd = s.pwd := rfl
@[simp] theorem State.modCyc_mem (f : Cyc → Cyc) : (s.modCyc f).mem = s.mem := rfl
@[simp] theorem State.modCyc_caps (f : Cyc → Cyc) : (s.modCyc f).caps = s.caps := rfl
@[simp] theorem State.modCyc_cal (f : Cyc → Cyc) : (s.modCyc f).cal = s.cal := rfl
@[simp] theorem State.modCyc_pwr (f : Cyc → Cyc) : (s.modCyc f).pwr = s.pwr := rfl
@[simp] theorem State.modCyc_tap (f : Cyc → Cyc) : (s.modCyc f).tap = s.tap := rfl
@[simp] theorem State.modCyc_boxes (f : Cyc → Cyc) : (s.modCyc f).boxes = s.boxes := rfl
@[simp] theorem State.modCyc_heath (f : Cyc → Cyc) : (s.modCyc f).heath = s.heath := rfl
@[simp] theorem State.modCyc_jobs (f : Cyc → Cyc) : (s.modCyc f).jobs = s.jobs := rfl
@[simp] theorem State.modCyc_straps (f : Cyc → Cyc) : (s.modCyc f).straps = s.straps := rfl
@[simp] theorem State.modCyc_fuses (f : Cyc → Cyc) : (s.modCyc f).fuses = s.fuses := rfl
@[simp] theorem State.modCyc_img (f : Cyc → Cyc) : (s.modCyc f).img = s.img := rfl
@[simp] theorem State.modCyc_boot (f : Cyc → Cyc) : (s.modCyc f).boot = s.boot := rfl
@[simp] theorem State.modCyc_nor (f : Cyc → Cyc) : (s.modCyc f).nor = s.nor := rfl
@[simp] theorem State.modCyc_emmc (f : Cyc → Cyc) : (s.modCyc f).emmc = s.emmc := rfl
@[simp] theorem State.modCyc_evtTurn (f : Cyc → Cyc) : (s.modCyc f).evtTurn = s.evtTurn := rfl

@[simp] theorem State.ask_pending (a : Nat) : (s.ask a).pending = s.pending := rfl
@[simp] theorem State.ask_regs (a : Nat) : (s.ask a).regs = s.regs := rfl
@[simp] theorem State.ask_snaps (a : Nat) : (s.ask a).snaps = s.snaps := rfl
@[simp] theorem State.ask_rdata (a : Nat) : (s.ask a).rdata = s.rdata := rfl
@[simp] theorem State.ask_i2cOut (a : Nat) : (s.ask a).i2cOut = s.i2cOut := rfl
@[simp] theorem State.ask_i2cNack (a : Nat) : (s.ask a).i2cNack = s.i2cNack := rfl
@[simp] theorem State.ask_free (a : Nat) : (s.ask a).free = s.free := rfl
@[simp] theorem State.ask_time (a : Nat) : (s.ask a).time = s.time := rfl
@[simp] theorem State.ask_clock (a : Nat) : (s.ask a).clock = s.clock := rfl
@[simp] theorem State.ask_probe (a : Nat) : (s.ask a).probe = s.probe := rfl
@[simp] theorem State.ask_coef0 (a : Nat) : (s.ask a).coef0 = s.coef0 := rfl
@[simp] theorem State.ask_coef1 (a : Nat) : (s.ask a).coef1 = s.coef1 := rfl
@[simp] theorem State.ask_lut0 (a : Nat) : (s.ask a).lut0 = s.lut0 := rfl
@[simp] theorem State.ask_lut1 (a : Nat) : (s.ask a).lut1 = s.lut1 := rfl
@[simp] theorem State.ask_slots (a : Nat) : (s.ask a).slots = s.slots := rfl
@[simp] theorem State.ask_asms (a : Nat) : (s.ask a).asms = s.asms := rfl
@[simp] theorem State.ask_asmSeq (a : Nat) : (s.ask a).asmSeq = s.asmSeq := rfl
@[simp] theorem State.ask_owed (a : Nat) : (s.ask a).owed = s.owed := rfl
@[simp] theorem State.ask_lyr (a : Nat) : (s.ask a).lyr = s.lyr := rfl
@[simp] theorem State.ask_syn (a : Nat) : (s.ask a).syn = s.syn := rfl
@[simp] theorem State.ask_tab (a : Nat) : (s.ask a).tab = s.tab := rfl
@[simp] theorem State.ask_drv (a : Nat) : (s.ask a).drv = s.drv := rfl
@[simp] theorem State.ask_hbm (a : Nat) : (s.ask a).hbm = s.hbm := rfl
@[simp] theorem State.ask_swd (a : Nat) : (s.ask a).swd = s.swd := rfl
@[simp] theorem State.ask_tsets (a : Nat) : (s.ask a).tsets = s.tsets := rfl
@[simp] theorem State.ask_codeTabs (a : Nat) : (s.ask a).codeTabs = s.codeTabs := rfl
@[simp] theorem State.ask_ports (a : Nat) : (s.ask a).ports = s.ports := rfl
@[simp] theorem State.ask_ses (a : Nat) : (s.ask a).ses = s.ses := rfl
@[simp] theorem State.ask_cas (a : Nat) : (s.ask a).cas = s.cas := rfl
@[simp] theorem State.ask_tim (a : Nat) : (s.ask a).tim = s.tim := rfl
@[simp] theorem State.ask_pl (a : Nat) : (s.ask a).pl = s.pl := rfl
@[simp] theorem State.ask_pwd (a : Nat) : (s.ask a).pwd = s.pwd := rfl
@[simp] theorem State.ask_mem (a : Nat) : (s.ask a).mem = s.mem := rfl
@[simp] theorem State.ask_caps (a : Nat) : (s.ask a).caps = s.caps := rfl
@[simp] theorem State.ask_cal (a : Nat) : (s.ask a).cal = s.cal := rfl
@[simp] theorem State.ask_pwr (a : Nat) : (s.ask a).pwr = s.pwr := rfl
@[simp] theorem State.ask_tap (a : Nat) : (s.ask a).tap = s.tap := rfl
@[simp] theorem State.ask_boxes (a : Nat) : (s.ask a).boxes = s.boxes := rfl
@[simp] theorem State.ask_heath (a : Nat) : (s.ask a).heath = s.heath := rfl
@[simp] theorem State.ask_jobs (a : Nat) : (s.ask a).jobs = s.jobs := rfl
@[simp] theorem State.ask_straps (a : Nat) : (s.ask a).straps = s.straps := rfl
@[simp] theorem State.ask_fuses (a : Nat) : (s.ask a).fuses = s.fuses := rfl
@[simp] theorem State.ask_img (a : Nat) : (s.ask a).img = s.img := rfl
@[simp] theorem State.ask_boot (a : Nat) : (s.ask a).boot = s.boot := rfl
@[simp] theorem State.ask_nor (a : Nat) : (s.ask a).nor = s.nor := rfl
@[simp] theorem State.ask_emmc (a : Nat) : (s.ask a).emmc = s.emmc := rfl
@[simp] theorem State.ask_evtTurn (a : Nat) : (s.ask a).evtTurn = s.evtTurn := rfl

@[simp] theorem State.modAtt_pending (i : Nat) (f : Att → Att) : (s.modAtt i f).pending = s.pending := rfl
@[simp] theorem State.modAtt_regs (i : Nat) (f : Att → Att) : (s.modAtt i f).regs = s.regs := rfl
@[simp] theorem State.modAtt_snaps (i : Nat) (f : Att → Att) : (s.modAtt i f).snaps = s.snaps := rfl
@[simp] theorem State.modAtt_rdata (i : Nat) (f : Att → Att) : (s.modAtt i f).rdata = s.rdata := rfl
@[simp] theorem State.modAtt_i2cOut (i : Nat) (f : Att → Att) : (s.modAtt i f).i2cOut = s.i2cOut := rfl
@[simp] theorem State.modAtt_i2cNack (i : Nat) (f : Att → Att) : (s.modAtt i f).i2cNack = s.i2cNack := rfl
@[simp] theorem State.modAtt_free (i : Nat) (f : Att → Att) : (s.modAtt i f).free = s.free := rfl
@[simp] theorem State.modAtt_time (i : Nat) (f : Att → Att) : (s.modAtt i f).time = s.time := rfl
@[simp] theorem State.modAtt_clock (i : Nat) (f : Att → Att) : (s.modAtt i f).clock = s.clock := rfl
@[simp] theorem State.modAtt_probe (i : Nat) (f : Att → Att) : (s.modAtt i f).probe = s.probe := rfl
@[simp] theorem State.modAtt_coef0 (i : Nat) (f : Att → Att) : (s.modAtt i f).coef0 = s.coef0 := rfl
@[simp] theorem State.modAtt_coef1 (i : Nat) (f : Att → Att) : (s.modAtt i f).coef1 = s.coef1 := rfl
@[simp] theorem State.modAtt_lut0 (i : Nat) (f : Att → Att) : (s.modAtt i f).lut0 = s.lut0 := rfl
@[simp] theorem State.modAtt_lut1 (i : Nat) (f : Att → Att) : (s.modAtt i f).lut1 = s.lut1 := rfl
@[simp] theorem State.modAtt_slots (i : Nat) (f : Att → Att) : (s.modAtt i f).slots = s.slots := rfl
@[simp] theorem State.modAtt_asms (i : Nat) (f : Att → Att) : (s.modAtt i f).asms = s.asms := rfl
@[simp] theorem State.modAtt_asmSeq (i : Nat) (f : Att → Att) : (s.modAtt i f).asmSeq = s.asmSeq := rfl
@[simp] theorem State.modAtt_owed (i : Nat) (f : Att → Att) : (s.modAtt i f).owed = s.owed := rfl
@[simp] theorem State.modAtt_lyr (i : Nat) (f : Att → Att) : (s.modAtt i f).lyr = s.lyr := rfl
@[simp] theorem State.modAtt_syn (i : Nat) (f : Att → Att) : (s.modAtt i f).syn = s.syn := rfl
@[simp] theorem State.modAtt_tab (i : Nat) (f : Att → Att) : (s.modAtt i f).tab = s.tab := rfl
@[simp] theorem State.modAtt_drv (i : Nat) (f : Att → Att) : (s.modAtt i f).drv = s.drv := rfl
@[simp] theorem State.modAtt_hbm (i : Nat) (f : Att → Att) : (s.modAtt i f).hbm = s.hbm := rfl
@[simp] theorem State.modAtt_swd (i : Nat) (f : Att → Att) : (s.modAtt i f).swd = s.swd := rfl
@[simp] theorem State.modAtt_tsets (i : Nat) (f : Att → Att) : (s.modAtt i f).tsets = s.tsets := rfl
@[simp] theorem State.modAtt_codeTabs (i : Nat) (f : Att → Att) : (s.modAtt i f).codeTabs = s.codeTabs := rfl
@[simp] theorem State.modAtt_ports (i : Nat) (f : Att → Att) : (s.modAtt i f).ports = s.ports := rfl
@[simp] theorem State.modAtt_cas (i : Nat) (f : Att → Att) : (s.modAtt i f).cas = s.cas := rfl
@[simp] theorem State.modAtt_tim (i : Nat) (f : Att → Att) : (s.modAtt i f).tim = s.tim := rfl
@[simp] theorem State.modAtt_pl (i : Nat) (f : Att → Att) : (s.modAtt i f).pl = s.pl := rfl
@[simp] theorem State.modAtt_pwd (i : Nat) (f : Att → Att) : (s.modAtt i f).pwd = s.pwd := rfl
@[simp] theorem State.modAtt_mem (i : Nat) (f : Att → Att) : (s.modAtt i f).mem = s.mem := rfl
@[simp] theorem State.modAtt_caps (i : Nat) (f : Att → Att) : (s.modAtt i f).caps = s.caps := rfl
@[simp] theorem State.modAtt_cal (i : Nat) (f : Att → Att) : (s.modAtt i f).cal = s.cal := rfl
@[simp] theorem State.modAtt_pwr (i : Nat) (f : Att → Att) : (s.modAtt i f).pwr = s.pwr := rfl
@[simp] theorem State.modAtt_tap (i : Nat) (f : Att → Att) : (s.modAtt i f).tap = s.tap := rfl
@[simp] theorem State.modAtt_boxes (i : Nat) (f : Att → Att) : (s.modAtt i f).boxes = s.boxes := rfl
@[simp] theorem State.modAtt_heath (i : Nat) (f : Att → Att) : (s.modAtt i f).heath = s.heath := rfl
@[simp] theorem State.modAtt_jobs (i : Nat) (f : Att → Att) : (s.modAtt i f).jobs = s.jobs := rfl
@[simp] theorem State.modAtt_straps (i : Nat) (f : Att → Att) : (s.modAtt i f).straps = s.straps := rfl
@[simp] theorem State.modAtt_fuses (i : Nat) (f : Att → Att) : (s.modAtt i f).fuses = s.fuses := rfl
@[simp] theorem State.modAtt_img (i : Nat) (f : Att → Att) : (s.modAtt i f).img = s.img := rfl
@[simp] theorem State.modAtt_boot (i : Nat) (f : Att → Att) : (s.modAtt i f).boot = s.boot := rfl
@[simp] theorem State.modAtt_nor (i : Nat) (f : Att → Att) : (s.modAtt i f).nor = s.nor := rfl
@[simp] theorem State.modAtt_emmc (i : Nat) (f : Att → Att) : (s.modAtt i f).emmc = s.emmc := rfl
@[simp] theorem State.modAtt_evtTurn (i : Nat) (f : Att → Att) : (s.modAtt i f).evtTurn = s.evtTurn := rfl
@[simp] theorem State.modAtt_cyc (i : Nat) (f : Att → Att) : (s.modAtt i f).cyc = s.cyc := rfl

@[simp] theorem State.modPort_pending (p : Nat) (f : IngPort → IngPort) : (s.modPort p f).pending = s.pending := rfl
@[simp] theorem State.modPort_regs (p : Nat) (f : IngPort → IngPort) : (s.modPort p f).regs = s.regs := rfl
@[simp] theorem State.modPort_snaps (p : Nat) (f : IngPort → IngPort) : (s.modPort p f).snaps = s.snaps := rfl
@[simp] theorem State.modPort_rdata (p : Nat) (f : IngPort → IngPort) : (s.modPort p f).rdata = s.rdata := rfl
@[simp] theorem State.modPort_i2cOut (p : Nat) (f : IngPort → IngPort) : (s.modPort p f).i2cOut = s.i2cOut := rfl
@[simp] theorem State.modPort_i2cNack (p : Nat) (f : IngPort → IngPort) : (s.modPort p f).i2cNack = s.i2cNack := rfl
@[simp] theorem State.modPort_free (p : Nat) (f : IngPort → IngPort) : (s.modPort p f).free = s.free := rfl
@[simp] theorem State.modPort_time (p : Nat) (f : IngPort → IngPort) : (s.modPort p f).time = s.time := rfl
@[simp] theorem State.modPort_clock (p : Nat) (f : IngPort → IngPort) : (s.modPort p f).clock = s.clock := rfl
@[simp] theorem State.modPort_probe (p : Nat) (f : IngPort → IngPort) : (s.modPort p f).probe = s.probe := rfl
@[simp] theorem State.modPort_coef0 (p : Nat) (f : IngPort → IngPort) : (s.modPort p f).coef0 = s.coef0 := rfl
@[simp] theorem State.modPort_coef1 (p : Nat) (f : IngPort → IngPort) : (s.modPort p f).coef1 = s.coef1 := rfl
@[simp] theorem State.modPort_lut0 (p : Nat) (f : IngPort → IngPort) : (s.modPort p f).lut0 = s.lut0 := rfl
@[simp] theorem State.modPort_lut1 (p : Nat) (f : IngPort → IngPort) : (s.modPort p f).lut1 = s.lut1 := rfl
@[simp] theorem State.modPort_slots (p : Nat) (f : IngPort → IngPort) : (s.modPort p f).slots = s.slots := rfl
@[simp] theorem State.modPort_asms (p : Nat) (f : IngPort → IngPort) : (s.modPort p f).asms = s.asms := rfl
@[simp] theorem State.modPort_asmSeq (p : Nat) (f : IngPort → IngPort) : (s.modPort p f).asmSeq = s.asmSeq := rfl
@[simp] theorem State.modPort_owed (p : Nat) (f : IngPort → IngPort) : (s.modPort p f).owed = s.owed := rfl
@[simp] theorem State.modPort_lyr (p : Nat) (f : IngPort → IngPort) : (s.modPort p f).lyr = s.lyr := rfl
@[simp] theorem State.modPort_syn (p : Nat) (f : IngPort → IngPort) : (s.modPort p f).syn = s.syn := rfl
@[simp] theorem State.modPort_tab (p : Nat) (f : IngPort → IngPort) : (s.modPort p f).tab = s.tab := rfl
@[simp] theorem State.modPort_drv (p : Nat) (f : IngPort → IngPort) : (s.modPort p f).drv = s.drv := rfl
@[simp] theorem State.modPort_hbm (p : Nat) (f : IngPort → IngPort) : (s.modPort p f).hbm = s.hbm := rfl
@[simp] theorem State.modPort_swd (p : Nat) (f : IngPort → IngPort) : (s.modPort p f).swd = s.swd := rfl
@[simp] theorem State.modPort_tsets (p : Nat) (f : IngPort → IngPort) : (s.modPort p f).tsets = s.tsets := rfl
@[simp] theorem State.modPort_codeTabs (p : Nat) (f : IngPort → IngPort) : (s.modPort p f).codeTabs = s.codeTabs := rfl
@[simp] theorem State.modPort_ses (p : Nat) (f : IngPort → IngPort) : (s.modPort p f).ses = s.ses := rfl
@[simp] theorem State.modPort_cas (p : Nat) (f : IngPort → IngPort) : (s.modPort p f).cas = s.cas := rfl
@[simp] theorem State.modPort_tim (p : Nat) (f : IngPort → IngPort) : (s.modPort p f).tim = s.tim := rfl
@[simp] theorem State.modPort_pl (p : Nat) (f : IngPort → IngPort) : (s.modPort p f).pl = s.pl := rfl
@[simp] theorem State.modPort_pwd (p : Nat) (f : IngPort → IngPort) : (s.modPort p f).pwd = s.pwd := rfl
@[simp] theorem State.modPort_mem (p : Nat) (f : IngPort → IngPort) : (s.modPort p f).mem = s.mem := rfl
@[simp] theorem State.modPort_caps (p : Nat) (f : IngPort → IngPort) : (s.modPort p f).caps = s.caps := rfl
@[simp] theorem State.modPort_cal (p : Nat) (f : IngPort → IngPort) : (s.modPort p f).cal = s.cal := rfl
@[simp] theorem State.modPort_pwr (p : Nat) (f : IngPort → IngPort) : (s.modPort p f).pwr = s.pwr := rfl
@[simp] theorem State.modPort_tap (p : Nat) (f : IngPort → IngPort) : (s.modPort p f).tap = s.tap := rfl
@[simp] theorem State.modPort_boxes (p : Nat) (f : IngPort → IngPort) : (s.modPort p f).boxes = s.boxes := rfl
@[simp] theorem State.modPort_heath (p : Nat) (f : IngPort → IngPort) : (s.modPort p f).heath = s.heath := rfl
@[simp] theorem State.modPort_jobs (p : Nat) (f : IngPort → IngPort) : (s.modPort p f).jobs = s.jobs := rfl
@[simp] theorem State.modPort_straps (p : Nat) (f : IngPort → IngPort) : (s.modPort p f).straps = s.straps := rfl
@[simp] theorem State.modPort_fuses (p : Nat) (f : IngPort → IngPort) : (s.modPort p f).fuses = s.fuses := rfl
@[simp] theorem State.modPort_img (p : Nat) (f : IngPort → IngPort) : (s.modPort p f).img = s.img := rfl
@[simp] theorem State.modPort_boot (p : Nat) (f : IngPort → IngPort) : (s.modPort p f).boot = s.boot := rfl
@[simp] theorem State.modPort_nor (p : Nat) (f : IngPort → IngPort) : (s.modPort p f).nor = s.nor := rfl
@[simp] theorem State.modPort_emmc (p : Nat) (f : IngPort → IngPort) : (s.modPort p f).emmc = s.emmc := rfl
@[simp] theorem State.modPort_evtTurn (p : Nat) (f : IngPort → IngPort) : (s.modPort p f).evtTurn = s.evtTurn := rfl
@[simp] theorem State.modPort_cyc (p : Nat) (f : IngPort → IngPort) : (s.modPort p f).cyc = s.cyc := rfl

@[simp] theorem State.modLyr_pending (f : Lyr → Lyr) : (s.modLyr f).pending = s.pending := rfl
@[simp] theorem State.modLyr_regs (f : Lyr → Lyr) : (s.modLyr f).regs = s.regs := rfl
@[simp] theorem State.modLyr_snaps (f : Lyr → Lyr) : (s.modLyr f).snaps = s.snaps := rfl
@[simp] theorem State.modLyr_rdata (f : Lyr → Lyr) : (s.modLyr f).rdata = s.rdata := rfl
@[simp] theorem State.modLyr_i2cOut (f : Lyr → Lyr) : (s.modLyr f).i2cOut = s.i2cOut := rfl
@[simp] theorem State.modLyr_i2cNack (f : Lyr → Lyr) : (s.modLyr f).i2cNack = s.i2cNack := rfl
@[simp] theorem State.modLyr_free (f : Lyr → Lyr) : (s.modLyr f).free = s.free := rfl
@[simp] theorem State.modLyr_time (f : Lyr → Lyr) : (s.modLyr f).time = s.time := rfl
@[simp] theorem State.modLyr_clock (f : Lyr → Lyr) : (s.modLyr f).clock = s.clock := rfl
@[simp] theorem State.modLyr_probe (f : Lyr → Lyr) : (s.modLyr f).probe = s.probe := rfl
@[simp] theorem State.modLyr_coef0 (f : Lyr → Lyr) : (s.modLyr f).coef0 = s.coef0 := rfl
@[simp] theorem State.modLyr_coef1 (f : Lyr → Lyr) : (s.modLyr f).coef1 = s.coef1 := rfl
@[simp] theorem State.modLyr_lut0 (f : Lyr → Lyr) : (s.modLyr f).lut0 = s.lut0 := rfl
@[simp] theorem State.modLyr_lut1 (f : Lyr → Lyr) : (s.modLyr f).lut1 = s.lut1 := rfl
@[simp] theorem State.modLyr_slots (f : Lyr → Lyr) : (s.modLyr f).slots = s.slots := rfl
@[simp] theorem State.modLyr_asms (f : Lyr → Lyr) : (s.modLyr f).asms = s.asms := rfl
@[simp] theorem State.modLyr_asmSeq (f : Lyr → Lyr) : (s.modLyr f).asmSeq = s.asmSeq := rfl
@[simp] theorem State.modLyr_owed (f : Lyr → Lyr) : (s.modLyr f).owed = s.owed := rfl
@[simp] theorem State.modLyr_syn (f : Lyr → Lyr) : (s.modLyr f).syn = s.syn := rfl
@[simp] theorem State.modLyr_tab (f : Lyr → Lyr) : (s.modLyr f).tab = s.tab := rfl
@[simp] theorem State.modLyr_drv (f : Lyr → Lyr) : (s.modLyr f).drv = s.drv := rfl
@[simp] theorem State.modLyr_hbm (f : Lyr → Lyr) : (s.modLyr f).hbm = s.hbm := rfl
@[simp] theorem State.modLyr_swd (f : Lyr → Lyr) : (s.modLyr f).swd = s.swd := rfl
@[simp] theorem State.modLyr_tsets (f : Lyr → Lyr) : (s.modLyr f).tsets = s.tsets := rfl
@[simp] theorem State.modLyr_codeTabs (f : Lyr → Lyr) : (s.modLyr f).codeTabs = s.codeTabs := rfl
@[simp] theorem State.modLyr_ports (f : Lyr → Lyr) : (s.modLyr f).ports = s.ports := rfl
@[simp] theorem State.modLyr_ses (f : Lyr → Lyr) : (s.modLyr f).ses = s.ses := rfl
@[simp] theorem State.modLyr_cas (f : Lyr → Lyr) : (s.modLyr f).cas = s.cas := rfl
@[simp] theorem State.modLyr_tim (f : Lyr → Lyr) : (s.modLyr f).tim = s.tim := rfl
@[simp] theorem State.modLyr_pl (f : Lyr → Lyr) : (s.modLyr f).pl = s.pl := rfl
@[simp] theorem State.modLyr_pwd (f : Lyr → Lyr) : (s.modLyr f).pwd = s.pwd := rfl
@[simp] theorem State.modLyr_mem (f : Lyr → Lyr) : (s.modLyr f).mem = s.mem := rfl
@[simp] theorem State.modLyr_caps (f : Lyr → Lyr) : (s.modLyr f).caps = s.caps := rfl
@[simp] theorem State.modLyr_cal (f : Lyr → Lyr) : (s.modLyr f).cal = s.cal := rfl
@[simp] theorem State.modLyr_pwr (f : Lyr → Lyr) : (s.modLyr f).pwr = s.pwr := rfl
@[simp] theorem State.modLyr_tap (f : Lyr → Lyr) : (s.modLyr f).tap = s.tap := rfl
@[simp] theorem State.modLyr_boxes (f : Lyr → Lyr) : (s.modLyr f).boxes = s.boxes := rfl
@[simp] theorem State.modLyr_heath (f : Lyr → Lyr) : (s.modLyr f).heath = s.heath := rfl
@[simp] theorem State.modLyr_jobs (f : Lyr → Lyr) : (s.modLyr f).jobs = s.jobs := rfl
@[simp] theorem State.modLyr_straps (f : Lyr → Lyr) : (s.modLyr f).straps = s.straps := rfl
@[simp] theorem State.modLyr_fuses (f : Lyr → Lyr) : (s.modLyr f).fuses = s.fuses := rfl
@[simp] theorem State.modLyr_img (f : Lyr → Lyr) : (s.modLyr f).img = s.img := rfl
@[simp] theorem State.modLyr_boot (f : Lyr → Lyr) : (s.modLyr f).boot = s.boot := rfl
@[simp] theorem State.modLyr_nor (f : Lyr → Lyr) : (s.modLyr f).nor = s.nor := rfl
@[simp] theorem State.modLyr_emmc (f : Lyr → Lyr) : (s.modLyr f).emmc = s.emmc := rfl
@[simp] theorem State.modLyr_evtTurn (f : Lyr → Lyr) : (s.modLyr f).evtTurn = s.evtTurn := rfl
@[simp] theorem State.modLyr_cyc (f : Lyr → Lyr) : (s.modLyr f).cyc = s.cyc := rfl

@[simp] theorem State.modCas_pending (f : Cas → Cas) : (s.modCas f).pending = s.pending := rfl
@[simp] theorem State.modCas_regs (f : Cas → Cas) : (s.modCas f).regs = s.regs := rfl
@[simp] theorem State.modCas_snaps (f : Cas → Cas) : (s.modCas f).snaps = s.snaps := rfl
@[simp] theorem State.modCas_rdata (f : Cas → Cas) : (s.modCas f).rdata = s.rdata := rfl
@[simp] theorem State.modCas_i2cOut (f : Cas → Cas) : (s.modCas f).i2cOut = s.i2cOut := rfl
@[simp] theorem State.modCas_i2cNack (f : Cas → Cas) : (s.modCas f).i2cNack = s.i2cNack := rfl
@[simp] theorem State.modCas_free (f : Cas → Cas) : (s.modCas f).free = s.free := rfl
@[simp] theorem State.modCas_time (f : Cas → Cas) : (s.modCas f).time = s.time := rfl
@[simp] theorem State.modCas_clock (f : Cas → Cas) : (s.modCas f).clock = s.clock := rfl
@[simp] theorem State.modCas_probe (f : Cas → Cas) : (s.modCas f).probe = s.probe := rfl
@[simp] theorem State.modCas_coef0 (f : Cas → Cas) : (s.modCas f).coef0 = s.coef0 := rfl
@[simp] theorem State.modCas_coef1 (f : Cas → Cas) : (s.modCas f).coef1 = s.coef1 := rfl
@[simp] theorem State.modCas_lut0 (f : Cas → Cas) : (s.modCas f).lut0 = s.lut0 := rfl
@[simp] theorem State.modCas_lut1 (f : Cas → Cas) : (s.modCas f).lut1 = s.lut1 := rfl
@[simp] theorem State.modCas_slots (f : Cas → Cas) : (s.modCas f).slots = s.slots := rfl
@[simp] theorem State.modCas_asms (f : Cas → Cas) : (s.modCas f).asms = s.asms := rfl
@[simp] theorem State.modCas_asmSeq (f : Cas → Cas) : (s.modCas f).asmSeq = s.asmSeq := rfl
@[simp] theorem State.modCas_owed (f : Cas → Cas) : (s.modCas f).owed = s.owed := rfl
@[simp] theorem State.modCas_lyr (f : Cas → Cas) : (s.modCas f).lyr = s.lyr := rfl
@[simp] theorem State.modCas_syn (f : Cas → Cas) : (s.modCas f).syn = s.syn := rfl
@[simp] theorem State.modCas_tab (f : Cas → Cas) : (s.modCas f).tab = s.tab := rfl
@[simp] theorem State.modCas_drv (f : Cas → Cas) : (s.modCas f).drv = s.drv := rfl
@[simp] theorem State.modCas_hbm (f : Cas → Cas) : (s.modCas f).hbm = s.hbm := rfl
@[simp] theorem State.modCas_swd (f : Cas → Cas) : (s.modCas f).swd = s.swd := rfl
@[simp] theorem State.modCas_tsets (f : Cas → Cas) : (s.modCas f).tsets = s.tsets := rfl
@[simp] theorem State.modCas_codeTabs (f : Cas → Cas) : (s.modCas f).codeTabs = s.codeTabs := rfl
@[simp] theorem State.modCas_ports (f : Cas → Cas) : (s.modCas f).ports = s.ports := rfl
@[simp] theorem State.modCas_ses (f : Cas → Cas) : (s.modCas f).ses = s.ses := rfl
@[simp] theorem State.modCas_tim (f : Cas → Cas) : (s.modCas f).tim = s.tim := rfl
@[simp] theorem State.modCas_pl (f : Cas → Cas) : (s.modCas f).pl = s.pl := rfl
@[simp] theorem State.modCas_pwd (f : Cas → Cas) : (s.modCas f).pwd = s.pwd := rfl
@[simp] theorem State.modCas_mem (f : Cas → Cas) : (s.modCas f).mem = s.mem := rfl
@[simp] theorem State.modCas_caps (f : Cas → Cas) : (s.modCas f).caps = s.caps := rfl
@[simp] theorem State.modCas_cal (f : Cas → Cas) : (s.modCas f).cal = s.cal := rfl
@[simp] theorem State.modCas_pwr (f : Cas → Cas) : (s.modCas f).pwr = s.pwr := rfl
@[simp] theorem State.modCas_tap (f : Cas → Cas) : (s.modCas f).tap = s.tap := rfl
@[simp] theorem State.modCas_boxes (f : Cas → Cas) : (s.modCas f).boxes = s.boxes := rfl
@[simp] theorem State.modCas_heath (f : Cas → Cas) : (s.modCas f).heath = s.heath := rfl
@[simp] theorem State.modCas_jobs (f : Cas → Cas) : (s.modCas f).jobs = s.jobs := rfl
@[simp] theorem State.modCas_straps (f : Cas → Cas) : (s.modCas f).straps = s.straps := rfl
@[simp] theorem State.modCas_fuses (f : Cas → Cas) : (s.modCas f).fuses = s.fuses := rfl
@[simp] theorem State.modCas_img (f : Cas → Cas) : (s.modCas f).img = s.img := rfl
@[simp] theorem State.modCas_boot (f : Cas → Cas) : (s.modCas f).boot = s.boot := rfl
@[simp] theorem State.modCas_nor (f : Cas → Cas) : (s.modCas f).nor = s.nor := rfl
@[simp] theorem State.modCas_emmc (f : Cas → Cas) : (s.modCas f).emmc = s.emmc := rfl
@[simp] theorem State.modCas_evtTurn (f : Cas → Cas) : (s.modCas f).evtTurn = s.evtTurn := rfl
@[simp] theorem State.modCas_cyc (f : Cas → Cas) : (s.modCas f).cyc = s.cyc := rfl

@[simp] theorem State.modSes_pending (f : Ses → Ses) : (s.modSes f).pending = s.pending := rfl
@[simp] theorem State.modSes_regs (f : Ses → Ses) : (s.modSes f).regs = s.regs := rfl
@[simp] theorem State.modSes_snaps (f : Ses → Ses) : (s.modSes f).snaps = s.snaps := rfl
@[simp] theorem State.modSes_rdata (f : Ses → Ses) : (s.modSes f).rdata = s.rdata := rfl
@[simp] theorem State.modSes_i2cOut (f : Ses → Ses) : (s.modSes f).i2cOut = s.i2cOut := rfl
@[simp] theorem State.modSes_i2cNack (f : Ses → Ses) : (s.modSes f).i2cNack = s.i2cNack := rfl
@[simp] theorem State.modSes_free (f : Ses → Ses) : (s.modSes f).free = s.free := rfl
@[simp] theorem State.modSes_time (f : Ses → Ses) : (s.modSes f).time = s.time := rfl
@[simp] theorem State.modSes_clock (f : Ses → Ses) : (s.modSes f).clock = s.clock := rfl
@[simp] theorem State.modSes_probe (f : Ses → Ses) : (s.modSes f).probe = s.probe := rfl
@[simp] theorem State.modSes_coef0 (f : Ses → Ses) : (s.modSes f).coef0 = s.coef0 := rfl
@[simp] theorem State.modSes_coef1 (f : Ses → Ses) : (s.modSes f).coef1 = s.coef1 := rfl
@[simp] theorem State.modSes_lut0 (f : Ses → Ses) : (s.modSes f).lut0 = s.lut0 := rfl
@[simp] theorem State.modSes_lut1 (f : Ses → Ses) : (s.modSes f).lut1 = s.lut1 := rfl
@[simp] theorem State.modSes_slots (f : Ses → Ses) : (s.modSes f).slots = s.slots := rfl
@[simp] theorem State.modSes_asms (f : Ses → Ses) : (s.modSes f).asms = s.asms := rfl
@[simp] theorem State.modSes_asmSeq (f : Ses → Ses) : (s.modSes f).asmSeq = s.asmSeq := rfl
@[simp] theorem State.modSes_owed (f : Ses → Ses) : (s.modSes f).owed = s.owed := rfl
@[simp] theorem State.modSes_lyr (f : Ses → Ses) : (s.modSes f).lyr = s.lyr := rfl
@[simp] theorem State.modSes_syn (f : Ses → Ses) : (s.modSes f).syn = s.syn := rfl
@[simp] theorem State.modSes_tab (f : Ses → Ses) : (s.modSes f).tab = s.tab := rfl
@[simp] theorem State.modSes_drv (f : Ses → Ses) : (s.modSes f).drv = s.drv := rfl
@[simp] theorem State.modSes_hbm (f : Ses → Ses) : (s.modSes f).hbm = s.hbm := rfl
@[simp] theorem State.modSes_swd (f : Ses → Ses) : (s.modSes f).swd = s.swd := rfl
@[simp] theorem State.modSes_tsets (f : Ses → Ses) : (s.modSes f).tsets = s.tsets := rfl
@[simp] theorem State.modSes_codeTabs (f : Ses → Ses) : (s.modSes f).codeTabs = s.codeTabs := rfl
@[simp] theorem State.modSes_ports (f : Ses → Ses) : (s.modSes f).ports = s.ports := rfl
@[simp] theorem State.modSes_cas (f : Ses → Ses) : (s.modSes f).cas = s.cas := rfl
@[simp] theorem State.modSes_tim (f : Ses → Ses) : (s.modSes f).tim = s.tim := rfl
@[simp] theorem State.modSes_pl (f : Ses → Ses) : (s.modSes f).pl = s.pl := rfl
@[simp] theorem State.modSes_pwd (f : Ses → Ses) : (s.modSes f).pwd = s.pwd := rfl
@[simp] theorem State.modSes_mem (f : Ses → Ses) : (s.modSes f).mem = s.mem := rfl
@[simp] theorem State.modSes_caps (f : Ses → Ses) : (s.modSes f).caps = s.caps := rfl
@[simp] theorem State.modSes_cal (f : Ses → Ses) : (s.modSes f).cal = s.cal := rfl
@[simp] theorem State.modSes_pwr (f : Ses → Ses) : (s.modSes f).pwr = s.pwr := rfl
@[simp] theorem State.modSes_tap (f : Ses → Ses) : (s.modSes f).tap = s.tap := rfl
@[simp] theorem State.modSes_boxes (f : Ses → Ses) : (s.modSes f).boxes = s.boxes := rfl
@[simp] theorem State.modSes_heath (f : Ses → Ses) : (s.modSes f).heath = s.heath := rfl
@[simp] theorem State.modSes_jobs (f : Ses → Ses) : (s.modSes f).jobs = s.jobs := rfl
@[simp] theorem State.modSes_straps (f : Ses → Ses) : (s.modSes f).straps = s.straps := rfl
@[simp] theorem State.modSes_fuses (f : Ses → Ses) : (s.modSes f).fuses = s.fuses := rfl
@[simp] theorem State.modSes_img (f : Ses → Ses) : (s.modSes f).img = s.img := rfl
@[simp] theorem State.modSes_boot (f : Ses → Ses) : (s.modSes f).boot = s.boot := rfl
@[simp] theorem State.modSes_nor (f : Ses → Ses) : (s.modSes f).nor = s.nor := rfl
@[simp] theorem State.modSes_emmc (f : Ses → Ses) : (s.modSes f).emmc = s.emmc := rfl
@[simp] theorem State.modSes_evtTurn (f : Ses → Ses) : (s.modSes f).evtTurn = s.evtTurn := rfl
@[simp] theorem State.modSes_cyc (f : Ses → Ses) : (s.modSes f).cyc = s.cyc := rfl

@[simp] theorem State.hbmWrite_pending (a : Nat) (bs : List Byte) : (s.hbmWrite a bs).pending = s.pending := rfl
@[simp] theorem State.hbmWrite_regs (a : Nat) (bs : List Byte) : (s.hbmWrite a bs).regs = s.regs := rfl
@[simp] theorem State.hbmWrite_snaps (a : Nat) (bs : List Byte) : (s.hbmWrite a bs).snaps = s.snaps := rfl
@[simp] theorem State.hbmWrite_rdata (a : Nat) (bs : List Byte) : (s.hbmWrite a bs).rdata = s.rdata := rfl
@[simp] theorem State.hbmWrite_i2cOut (a : Nat) (bs : List Byte) : (s.hbmWrite a bs).i2cOut = s.i2cOut := rfl
@[simp] theorem State.hbmWrite_i2cNack (a : Nat) (bs : List Byte) : (s.hbmWrite a bs).i2cNack = s.i2cNack := rfl
@[simp] theorem State.hbmWrite_free (a : Nat) (bs : List Byte) : (s.hbmWrite a bs).free = s.free := rfl
@[simp] theorem State.hbmWrite_time (a : Nat) (bs : List Byte) : (s.hbmWrite a bs).time = s.time := rfl
@[simp] theorem State.hbmWrite_clock (a : Nat) (bs : List Byte) : (s.hbmWrite a bs).clock = s.clock := rfl
@[simp] theorem State.hbmWrite_probe (a : Nat) (bs : List Byte) : (s.hbmWrite a bs).probe = s.probe := rfl
@[simp] theorem State.hbmWrite_coef0 (a : Nat) (bs : List Byte) : (s.hbmWrite a bs).coef0 = s.coef0 := rfl
@[simp] theorem State.hbmWrite_coef1 (a : Nat) (bs : List Byte) : (s.hbmWrite a bs).coef1 = s.coef1 := rfl
@[simp] theorem State.hbmWrite_lut0 (a : Nat) (bs : List Byte) : (s.hbmWrite a bs).lut0 = s.lut0 := rfl
@[simp] theorem State.hbmWrite_lut1 (a : Nat) (bs : List Byte) : (s.hbmWrite a bs).lut1 = s.lut1 := rfl
@[simp] theorem State.hbmWrite_slots (a : Nat) (bs : List Byte) : (s.hbmWrite a bs).slots = s.slots := rfl
@[simp] theorem State.hbmWrite_asms (a : Nat) (bs : List Byte) : (s.hbmWrite a bs).asms = s.asms := rfl
@[simp] theorem State.hbmWrite_asmSeq (a : Nat) (bs : List Byte) : (s.hbmWrite a bs).asmSeq = s.asmSeq := rfl
@[simp] theorem State.hbmWrite_owed (a : Nat) (bs : List Byte) : (s.hbmWrite a bs).owed = s.owed := rfl
@[simp] theorem State.hbmWrite_lyr (a : Nat) (bs : List Byte) : (s.hbmWrite a bs).lyr = s.lyr := rfl
@[simp] theorem State.hbmWrite_syn (a : Nat) (bs : List Byte) : (s.hbmWrite a bs).syn = s.syn := rfl
@[simp] theorem State.hbmWrite_tab (a : Nat) (bs : List Byte) : (s.hbmWrite a bs).tab = s.tab := rfl
@[simp] theorem State.hbmWrite_drv (a : Nat) (bs : List Byte) : (s.hbmWrite a bs).drv = s.drv := rfl
@[simp] theorem State.hbmWrite_swd (a : Nat) (bs : List Byte) : (s.hbmWrite a bs).swd = s.swd := rfl
@[simp] theorem State.hbmWrite_tsets (a : Nat) (bs : List Byte) : (s.hbmWrite a bs).tsets = s.tsets := rfl
@[simp] theorem State.hbmWrite_codeTabs (a : Nat) (bs : List Byte) : (s.hbmWrite a bs).codeTabs = s.codeTabs := rfl
@[simp] theorem State.hbmWrite_ports (a : Nat) (bs : List Byte) : (s.hbmWrite a bs).ports = s.ports := rfl
@[simp] theorem State.hbmWrite_ses (a : Nat) (bs : List Byte) : (s.hbmWrite a bs).ses = s.ses := rfl
@[simp] theorem State.hbmWrite_cas (a : Nat) (bs : List Byte) : (s.hbmWrite a bs).cas = s.cas := rfl
@[simp] theorem State.hbmWrite_tim (a : Nat) (bs : List Byte) : (s.hbmWrite a bs).tim = s.tim := rfl
@[simp] theorem State.hbmWrite_pl (a : Nat) (bs : List Byte) : (s.hbmWrite a bs).pl = s.pl := rfl
@[simp] theorem State.hbmWrite_pwd (a : Nat) (bs : List Byte) : (s.hbmWrite a bs).pwd = s.pwd := rfl
@[simp] theorem State.hbmWrite_mem (a : Nat) (bs : List Byte) : (s.hbmWrite a bs).mem = s.mem := rfl
@[simp] theorem State.hbmWrite_caps (a : Nat) (bs : List Byte) : (s.hbmWrite a bs).caps = s.caps := rfl
@[simp] theorem State.hbmWrite_cal (a : Nat) (bs : List Byte) : (s.hbmWrite a bs).cal = s.cal := rfl
@[simp] theorem State.hbmWrite_pwr (a : Nat) (bs : List Byte) : (s.hbmWrite a bs).pwr = s.pwr := rfl
@[simp] theorem State.hbmWrite_tap (a : Nat) (bs : List Byte) : (s.hbmWrite a bs).tap = s.tap := rfl
@[simp] theorem State.hbmWrite_boxes (a : Nat) (bs : List Byte) : (s.hbmWrite a bs).boxes = s.boxes := rfl
@[simp] theorem State.hbmWrite_heath (a : Nat) (bs : List Byte) : (s.hbmWrite a bs).heath = s.heath := rfl
@[simp] theorem State.hbmWrite_jobs (a : Nat) (bs : List Byte) : (s.hbmWrite a bs).jobs = s.jobs := rfl
@[simp] theorem State.hbmWrite_straps (a : Nat) (bs : List Byte) : (s.hbmWrite a bs).straps = s.straps := rfl
@[simp] theorem State.hbmWrite_fuses (a : Nat) (bs : List Byte) : (s.hbmWrite a bs).fuses = s.fuses := rfl
@[simp] theorem State.hbmWrite_img (a : Nat) (bs : List Byte) : (s.hbmWrite a bs).img = s.img := rfl
@[simp] theorem State.hbmWrite_boot (a : Nat) (bs : List Byte) : (s.hbmWrite a bs).boot = s.boot := rfl
@[simp] theorem State.hbmWrite_nor (a : Nat) (bs : List Byte) : (s.hbmWrite a bs).nor = s.nor := rfl
@[simp] theorem State.hbmWrite_emmc (a : Nat) (bs : List Byte) : (s.hbmWrite a bs).emmc = s.emmc := rfl
@[simp] theorem State.hbmWrite_evtTurn (a : Nat) (bs : List Byte) : (s.hbmWrite a bs).evtTurn = s.evtTurn := rfl
@[simp] theorem State.hbmWrite_cyc (a : Nat) (bs : List Byte) : (s.hbmWrite a bs).cyc = s.cyc := rfl

@[simp] theorem State.modMem_pending (f : Mem → Mem) : (s.modMem f).pending = s.pending := rfl
@[simp] theorem State.modMem_regs (f : Mem → Mem) : (s.modMem f).regs = s.regs := rfl
@[simp] theorem State.modMem_snaps (f : Mem → Mem) : (s.modMem f).snaps = s.snaps := rfl
@[simp] theorem State.modMem_rdata (f : Mem → Mem) : (s.modMem f).rdata = s.rdata := rfl
@[simp] theorem State.modMem_i2cOut (f : Mem → Mem) : (s.modMem f).i2cOut = s.i2cOut := rfl
@[simp] theorem State.modMem_i2cNack (f : Mem → Mem) : (s.modMem f).i2cNack = s.i2cNack := rfl
@[simp] theorem State.modMem_free (f : Mem → Mem) : (s.modMem f).free = s.free := rfl
@[simp] theorem State.modMem_time (f : Mem → Mem) : (s.modMem f).time = s.time := rfl
@[simp] theorem State.modMem_clock (f : Mem → Mem) : (s.modMem f).clock = s.clock := rfl
@[simp] theorem State.modMem_probe (f : Mem → Mem) : (s.modMem f).probe = s.probe := rfl
@[simp] theorem State.modMem_coef0 (f : Mem → Mem) : (s.modMem f).coef0 = s.coef0 := rfl
@[simp] theorem State.modMem_coef1 (f : Mem → Mem) : (s.modMem f).coef1 = s.coef1 := rfl
@[simp] theorem State.modMem_lut0 (f : Mem → Mem) : (s.modMem f).lut0 = s.lut0 := rfl
@[simp] theorem State.modMem_lut1 (f : Mem → Mem) : (s.modMem f).lut1 = s.lut1 := rfl
@[simp] theorem State.modMem_slots (f : Mem → Mem) : (s.modMem f).slots = s.slots := rfl
@[simp] theorem State.modMem_asms (f : Mem → Mem) : (s.modMem f).asms = s.asms := rfl
@[simp] theorem State.modMem_asmSeq (f : Mem → Mem) : (s.modMem f).asmSeq = s.asmSeq := rfl
@[simp] theorem State.modMem_owed (f : Mem → Mem) : (s.modMem f).owed = s.owed := rfl
@[simp] theorem State.modMem_lyr (f : Mem → Mem) : (s.modMem f).lyr = s.lyr := rfl
@[simp] theorem State.modMem_syn (f : Mem → Mem) : (s.modMem f).syn = s.syn := rfl
@[simp] theorem State.modMem_tab (f : Mem → Mem) : (s.modMem f).tab = s.tab := rfl
@[simp] theorem State.modMem_drv (f : Mem → Mem) : (s.modMem f).drv = s.drv := rfl
@[simp] theorem State.modMem_hbm (f : Mem → Mem) : (s.modMem f).hbm = s.hbm := rfl
@[simp] theorem State.modMem_swd (f : Mem → Mem) : (s.modMem f).swd = s.swd := rfl
@[simp] theorem State.modMem_tsets (f : Mem → Mem) : (s.modMem f).tsets = s.tsets := rfl
@[simp] theorem State.modMem_codeTabs (f : Mem → Mem) : (s.modMem f).codeTabs = s.codeTabs := rfl
@[simp] theorem State.modMem_ports (f : Mem → Mem) : (s.modMem f).ports = s.ports := rfl
@[simp] theorem State.modMem_ses (f : Mem → Mem) : (s.modMem f).ses = s.ses := rfl
@[simp] theorem State.modMem_cas (f : Mem → Mem) : (s.modMem f).cas = s.cas := rfl
@[simp] theorem State.modMem_tim (f : Mem → Mem) : (s.modMem f).tim = s.tim := rfl
@[simp] theorem State.modMem_pl (f : Mem → Mem) : (s.modMem f).pl = s.pl := rfl
@[simp] theorem State.modMem_pwd (f : Mem → Mem) : (s.modMem f).pwd = s.pwd := rfl
@[simp] theorem State.modMem_caps (f : Mem → Mem) : (s.modMem f).caps = s.caps := rfl
@[simp] theorem State.modMem_cal (f : Mem → Mem) : (s.modMem f).cal = s.cal := rfl
@[simp] theorem State.modMem_pwr (f : Mem → Mem) : (s.modMem f).pwr = s.pwr := rfl
@[simp] theorem State.modMem_tap (f : Mem → Mem) : (s.modMem f).tap = s.tap := rfl
@[simp] theorem State.modMem_boxes (f : Mem → Mem) : (s.modMem f).boxes = s.boxes := rfl
@[simp] theorem State.modMem_heath (f : Mem → Mem) : (s.modMem f).heath = s.heath := rfl
@[simp] theorem State.modMem_jobs (f : Mem → Mem) : (s.modMem f).jobs = s.jobs := rfl
@[simp] theorem State.modMem_straps (f : Mem → Mem) : (s.modMem f).straps = s.straps := rfl
@[simp] theorem State.modMem_fuses (f : Mem → Mem) : (s.modMem f).fuses = s.fuses := rfl
@[simp] theorem State.modMem_img (f : Mem → Mem) : (s.modMem f).img = s.img := rfl
@[simp] theorem State.modMem_boot (f : Mem → Mem) : (s.modMem f).boot = s.boot := rfl
@[simp] theorem State.modMem_nor (f : Mem → Mem) : (s.modMem f).nor = s.nor := rfl
@[simp] theorem State.modMem_emmc (f : Mem → Mem) : (s.modMem f).emmc = s.emmc := rfl
@[simp] theorem State.modMem_evtTurn (f : Mem → Mem) : (s.modMem f).evtTurn = s.evtTurn := rfl
@[simp] theorem State.modMem_cyc (f : Mem → Mem) : (s.modMem f).cyc = s.cyc := rfl

@[simp] theorem State.modCal_pending (f : Cal → Cal) : (s.modCal f).pending = s.pending := rfl
@[simp] theorem State.modCal_regs (f : Cal → Cal) : (s.modCal f).regs = s.regs := rfl
@[simp] theorem State.modCal_snaps (f : Cal → Cal) : (s.modCal f).snaps = s.snaps := rfl
@[simp] theorem State.modCal_rdata (f : Cal → Cal) : (s.modCal f).rdata = s.rdata := rfl
@[simp] theorem State.modCal_i2cOut (f : Cal → Cal) : (s.modCal f).i2cOut = s.i2cOut := rfl
@[simp] theorem State.modCal_i2cNack (f : Cal → Cal) : (s.modCal f).i2cNack = s.i2cNack := rfl
@[simp] theorem State.modCal_free (f : Cal → Cal) : (s.modCal f).free = s.free := rfl
@[simp] theorem State.modCal_time (f : Cal → Cal) : (s.modCal f).time = s.time := rfl
@[simp] theorem State.modCal_clock (f : Cal → Cal) : (s.modCal f).clock = s.clock := rfl
@[simp] theorem State.modCal_probe (f : Cal → Cal) : (s.modCal f).probe = s.probe := rfl
@[simp] theorem State.modCal_coef0 (f : Cal → Cal) : (s.modCal f).coef0 = s.coef0 := rfl
@[simp] theorem State.modCal_coef1 (f : Cal → Cal) : (s.modCal f).coef1 = s.coef1 := rfl
@[simp] theorem State.modCal_lut0 (f : Cal → Cal) : (s.modCal f).lut0 = s.lut0 := rfl
@[simp] theorem State.modCal_lut1 (f : Cal → Cal) : (s.modCal f).lut1 = s.lut1 := rfl
@[simp] theorem State.modCal_slots (f : Cal → Cal) : (s.modCal f).slots = s.slots := rfl
@[simp] theorem State.modCal_asms (f : Cal → Cal) : (s.modCal f).asms = s.asms := rfl
@[simp] theorem State.modCal_asmSeq (f : Cal → Cal) : (s.modCal f).asmSeq = s.asmSeq := rfl
@[simp] theorem State.modCal_owed (f : Cal → Cal) : (s.modCal f).owed = s.owed := rfl
@[simp] theorem State.modCal_lyr (f : Cal → Cal) : (s.modCal f).lyr = s.lyr := rfl
@[simp] theorem State.modCal_syn (f : Cal → Cal) : (s.modCal f).syn = s.syn := rfl
@[simp] theorem State.modCal_tab (f : Cal → Cal) : (s.modCal f).tab = s.tab := rfl
@[simp] theorem State.modCal_drv (f : Cal → Cal) : (s.modCal f).drv = s.drv := rfl
@[simp] theorem State.modCal_hbm (f : Cal → Cal) : (s.modCal f).hbm = s.hbm := rfl
@[simp] theorem State.modCal_swd (f : Cal → Cal) : (s.modCal f).swd = s.swd := rfl
@[simp] theorem State.modCal_tsets (f : Cal → Cal) : (s.modCal f).tsets = s.tsets := rfl
@[simp] theorem State.modCal_codeTabs (f : Cal → Cal) : (s.modCal f).codeTabs = s.codeTabs := rfl
@[simp] theorem State.modCal_ports (f : Cal → Cal) : (s.modCal f).ports = s.ports := rfl
@[simp] theorem State.modCal_ses (f : Cal → Cal) : (s.modCal f).ses = s.ses := rfl
@[simp] theorem State.modCal_cas (f : Cal → Cal) : (s.modCal f).cas = s.cas := rfl
@[simp] theorem State.modCal_tim (f : Cal → Cal) : (s.modCal f).tim = s.tim := rfl
@[simp] theorem State.modCal_pl (f : Cal → Cal) : (s.modCal f).pl = s.pl := rfl
@[simp] theorem State.modCal_pwd (f : Cal → Cal) : (s.modCal f).pwd = s.pwd := rfl
@[simp] theorem State.modCal_mem (f : Cal → Cal) : (s.modCal f).mem = s.mem := rfl
@[simp] theorem State.modCal_caps (f : Cal → Cal) : (s.modCal f).caps = s.caps := rfl
@[simp] theorem State.modCal_pwr (f : Cal → Cal) : (s.modCal f).pwr = s.pwr := rfl
@[simp] theorem State.modCal_tap (f : Cal → Cal) : (s.modCal f).tap = s.tap := rfl
@[simp] theorem State.modCal_boxes (f : Cal → Cal) : (s.modCal f).boxes = s.boxes := rfl
@[simp] theorem State.modCal_heath (f : Cal → Cal) : (s.modCal f).heath = s.heath := rfl
@[simp] theorem State.modCal_jobs (f : Cal → Cal) : (s.modCal f).jobs = s.jobs := rfl
@[simp] theorem State.modCal_straps (f : Cal → Cal) : (s.modCal f).straps = s.straps := rfl
@[simp] theorem State.modCal_fuses (f : Cal → Cal) : (s.modCal f).fuses = s.fuses := rfl
@[simp] theorem State.modCal_img (f : Cal → Cal) : (s.modCal f).img = s.img := rfl
@[simp] theorem State.modCal_boot (f : Cal → Cal) : (s.modCal f).boot = s.boot := rfl
@[simp] theorem State.modCal_nor (f : Cal → Cal) : (s.modCal f).nor = s.nor := rfl
@[simp] theorem State.modCal_emmc (f : Cal → Cal) : (s.modCal f).emmc = s.emmc := rfl
@[simp] theorem State.modCal_evtTurn (f : Cal → Cal) : (s.modCal f).evtTurn = s.evtTurn := rfl
@[simp] theorem State.modCal_cyc (f : Cal → Cal) : (s.modCal f).cyc = s.cyc := rfl

@[simp] theorem State.modPl_pending (p : Nat) (f : PlPort → PlPort) : (s.modPl p f).pending = s.pending := rfl
@[simp] theorem State.modPl_regs (p : Nat) (f : PlPort → PlPort) : (s.modPl p f).regs = s.regs := rfl
@[simp] theorem State.modPl_snaps (p : Nat) (f : PlPort → PlPort) : (s.modPl p f).snaps = s.snaps := rfl
@[simp] theorem State.modPl_rdata (p : Nat) (f : PlPort → PlPort) : (s.modPl p f).rdata = s.rdata := rfl
@[simp] theorem State.modPl_i2cOut (p : Nat) (f : PlPort → PlPort) : (s.modPl p f).i2cOut = s.i2cOut := rfl
@[simp] theorem State.modPl_i2cNack (p : Nat) (f : PlPort → PlPort) : (s.modPl p f).i2cNack = s.i2cNack := rfl
@[simp] theorem State.modPl_free (p : Nat) (f : PlPort → PlPort) : (s.modPl p f).free = s.free := rfl
@[simp] theorem State.modPl_time (p : Nat) (f : PlPort → PlPort) : (s.modPl p f).time = s.time := rfl
@[simp] theorem State.modPl_clock (p : Nat) (f : PlPort → PlPort) : (s.modPl p f).clock = s.clock := rfl
@[simp] theorem State.modPl_probe (p : Nat) (f : PlPort → PlPort) : (s.modPl p f).probe = s.probe := rfl
@[simp] theorem State.modPl_coef0 (p : Nat) (f : PlPort → PlPort) : (s.modPl p f).coef0 = s.coef0 := rfl
@[simp] theorem State.modPl_coef1 (p : Nat) (f : PlPort → PlPort) : (s.modPl p f).coef1 = s.coef1 := rfl
@[simp] theorem State.modPl_lut0 (p : Nat) (f : PlPort → PlPort) : (s.modPl p f).lut0 = s.lut0 := rfl
@[simp] theorem State.modPl_lut1 (p : Nat) (f : PlPort → PlPort) : (s.modPl p f).lut1 = s.lut1 := rfl
@[simp] theorem State.modPl_slots (p : Nat) (f : PlPort → PlPort) : (s.modPl p f).slots = s.slots := rfl
@[simp] theorem State.modPl_asms (p : Nat) (f : PlPort → PlPort) : (s.modPl p f).asms = s.asms := rfl
@[simp] theorem State.modPl_asmSeq (p : Nat) (f : PlPort → PlPort) : (s.modPl p f).asmSeq = s.asmSeq := rfl
@[simp] theorem State.modPl_owed (p : Nat) (f : PlPort → PlPort) : (s.modPl p f).owed = s.owed := rfl
@[simp] theorem State.modPl_lyr (p : Nat) (f : PlPort → PlPort) : (s.modPl p f).lyr = s.lyr := rfl
@[simp] theorem State.modPl_syn (p : Nat) (f : PlPort → PlPort) : (s.modPl p f).syn = s.syn := rfl
@[simp] theorem State.modPl_tab (p : Nat) (f : PlPort → PlPort) : (s.modPl p f).tab = s.tab := rfl
@[simp] theorem State.modPl_drv (p : Nat) (f : PlPort → PlPort) : (s.modPl p f).drv = s.drv := rfl
@[simp] theorem State.modPl_hbm (p : Nat) (f : PlPort → PlPort) : (s.modPl p f).hbm = s.hbm := rfl
@[simp] theorem State.modPl_swd (p : Nat) (f : PlPort → PlPort) : (s.modPl p f).swd = s.swd := rfl
@[simp] theorem State.modPl_tsets (p : Nat) (f : PlPort → PlPort) : (s.modPl p f).tsets = s.tsets := rfl
@[simp] theorem State.modPl_codeTabs (p : Nat) (f : PlPort → PlPort) : (s.modPl p f).codeTabs = s.codeTabs := rfl
@[simp] theorem State.modPl_ports (p : Nat) (f : PlPort → PlPort) : (s.modPl p f).ports = s.ports := rfl
@[simp] theorem State.modPl_ses (p : Nat) (f : PlPort → PlPort) : (s.modPl p f).ses = s.ses := rfl
@[simp] theorem State.modPl_cas (p : Nat) (f : PlPort → PlPort) : (s.modPl p f).cas = s.cas := rfl
@[simp] theorem State.modPl_tim (p : Nat) (f : PlPort → PlPort) : (s.modPl p f).tim = s.tim := rfl
@[simp] theorem State.modPl_pwd (p : Nat) (f : PlPort → PlPort) : (s.modPl p f).pwd = s.pwd := rfl
@[simp] theorem State.modPl_mem (p : Nat) (f : PlPort → PlPort) : (s.modPl p f).mem = s.mem := rfl
@[simp] theorem State.modPl_caps (p : Nat) (f : PlPort → PlPort) : (s.modPl p f).caps = s.caps := rfl
@[simp] theorem State.modPl_cal (p : Nat) (f : PlPort → PlPort) : (s.modPl p f).cal = s.cal := rfl
@[simp] theorem State.modPl_pwr (p : Nat) (f : PlPort → PlPort) : (s.modPl p f).pwr = s.pwr := rfl
@[simp] theorem State.modPl_tap (p : Nat) (f : PlPort → PlPort) : (s.modPl p f).tap = s.tap := rfl
@[simp] theorem State.modPl_boxes (p : Nat) (f : PlPort → PlPort) : (s.modPl p f).boxes = s.boxes := rfl
@[simp] theorem State.modPl_heath (p : Nat) (f : PlPort → PlPort) : (s.modPl p f).heath = s.heath := rfl
@[simp] theorem State.modPl_jobs (p : Nat) (f : PlPort → PlPort) : (s.modPl p f).jobs = s.jobs := rfl
@[simp] theorem State.modPl_straps (p : Nat) (f : PlPort → PlPort) : (s.modPl p f).straps = s.straps := rfl
@[simp] theorem State.modPl_fuses (p : Nat) (f : PlPort → PlPort) : (s.modPl p f).fuses = s.fuses := rfl
@[simp] theorem State.modPl_img (p : Nat) (f : PlPort → PlPort) : (s.modPl p f).img = s.img := rfl
@[simp] theorem State.modPl_boot (p : Nat) (f : PlPort → PlPort) : (s.modPl p f).boot = s.boot := rfl
@[simp] theorem State.modPl_nor (p : Nat) (f : PlPort → PlPort) : (s.modPl p f).nor = s.nor := rfl
@[simp] theorem State.modPl_emmc (p : Nat) (f : PlPort → PlPort) : (s.modPl p f).emmc = s.emmc := rfl
@[simp] theorem State.modPl_evtTurn (p : Nat) (f : PlPort → PlPort) : (s.modPl p f).evtTurn = s.evtTurn := rfl
@[simp] theorem State.modPl_cyc (p : Nat) (f : PlPort → PlPort) : (s.modPl p f).cyc = s.cyc := rfl

@[simp] theorem State.modPwr_pending (f : Pwr → Pwr) : (s.modPwr f).pending = s.pending := rfl
@[simp] theorem State.modPwr_regs (f : Pwr → Pwr) : (s.modPwr f).regs = s.regs := rfl
@[simp] theorem State.modPwr_snaps (f : Pwr → Pwr) : (s.modPwr f).snaps = s.snaps := rfl
@[simp] theorem State.modPwr_rdata (f : Pwr → Pwr) : (s.modPwr f).rdata = s.rdata := rfl
@[simp] theorem State.modPwr_i2cOut (f : Pwr → Pwr) : (s.modPwr f).i2cOut = s.i2cOut := rfl
@[simp] theorem State.modPwr_i2cNack (f : Pwr → Pwr) : (s.modPwr f).i2cNack = s.i2cNack := rfl
@[simp] theorem State.modPwr_free (f : Pwr → Pwr) : (s.modPwr f).free = s.free := rfl
@[simp] theorem State.modPwr_time (f : Pwr → Pwr) : (s.modPwr f).time = s.time := rfl
@[simp] theorem State.modPwr_clock (f : Pwr → Pwr) : (s.modPwr f).clock = s.clock := rfl
@[simp] theorem State.modPwr_probe (f : Pwr → Pwr) : (s.modPwr f).probe = s.probe := rfl
@[simp] theorem State.modPwr_coef0 (f : Pwr → Pwr) : (s.modPwr f).coef0 = s.coef0 := rfl
@[simp] theorem State.modPwr_coef1 (f : Pwr → Pwr) : (s.modPwr f).coef1 = s.coef1 := rfl
@[simp] theorem State.modPwr_lut0 (f : Pwr → Pwr) : (s.modPwr f).lut0 = s.lut0 := rfl
@[simp] theorem State.modPwr_lut1 (f : Pwr → Pwr) : (s.modPwr f).lut1 = s.lut1 := rfl
@[simp] theorem State.modPwr_slots (f : Pwr → Pwr) : (s.modPwr f).slots = s.slots := rfl
@[simp] theorem State.modPwr_asms (f : Pwr → Pwr) : (s.modPwr f).asms = s.asms := rfl
@[simp] theorem State.modPwr_asmSeq (f : Pwr → Pwr) : (s.modPwr f).asmSeq = s.asmSeq := rfl
@[simp] theorem State.modPwr_owed (f : Pwr → Pwr) : (s.modPwr f).owed = s.owed := rfl
@[simp] theorem State.modPwr_lyr (f : Pwr → Pwr) : (s.modPwr f).lyr = s.lyr := rfl
@[simp] theorem State.modPwr_syn (f : Pwr → Pwr) : (s.modPwr f).syn = s.syn := rfl
@[simp] theorem State.modPwr_tab (f : Pwr → Pwr) : (s.modPwr f).tab = s.tab := rfl
@[simp] theorem State.modPwr_drv (f : Pwr → Pwr) : (s.modPwr f).drv = s.drv := rfl
@[simp] theorem State.modPwr_hbm (f : Pwr → Pwr) : (s.modPwr f).hbm = s.hbm := rfl
@[simp] theorem State.modPwr_swd (f : Pwr → Pwr) : (s.modPwr f).swd = s.swd := rfl
@[simp] theorem State.modPwr_tsets (f : Pwr → Pwr) : (s.modPwr f).tsets = s.tsets := rfl
@[simp] theorem State.modPwr_codeTabs (f : Pwr → Pwr) : (s.modPwr f).codeTabs = s.codeTabs := rfl
@[simp] theorem State.modPwr_ports (f : Pwr → Pwr) : (s.modPwr f).ports = s.ports := rfl
@[simp] theorem State.modPwr_ses (f : Pwr → Pwr) : (s.modPwr f).ses = s.ses := rfl
@[simp] theorem State.modPwr_cas (f : Pwr → Pwr) : (s.modPwr f).cas = s.cas := rfl
@[simp] theorem State.modPwr_tim (f : Pwr → Pwr) : (s.modPwr f).tim = s.tim := rfl
@[simp] theorem State.modPwr_pl (f : Pwr → Pwr) : (s.modPwr f).pl = s.pl := rfl
@[simp] theorem State.modPwr_pwd (f : Pwr → Pwr) : (s.modPwr f).pwd = s.pwd := rfl
@[simp] theorem State.modPwr_mem (f : Pwr → Pwr) : (s.modPwr f).mem = s.mem := rfl
@[simp] theorem State.modPwr_caps (f : Pwr → Pwr) : (s.modPwr f).caps = s.caps := rfl
@[simp] theorem State.modPwr_cal (f : Pwr → Pwr) : (s.modPwr f).cal = s.cal := rfl
@[simp] theorem State.modPwr_tap (f : Pwr → Pwr) : (s.modPwr f).tap = s.tap := rfl
@[simp] theorem State.modPwr_boxes (f : Pwr → Pwr) : (s.modPwr f).boxes = s.boxes := rfl
@[simp] theorem State.modPwr_heath (f : Pwr → Pwr) : (s.modPwr f).heath = s.heath := rfl
@[simp] theorem State.modPwr_jobs (f : Pwr → Pwr) : (s.modPwr f).jobs = s.jobs := rfl
@[simp] theorem State.modPwr_straps (f : Pwr → Pwr) : (s.modPwr f).straps = s.straps := rfl
@[simp] theorem State.modPwr_fuses (f : Pwr → Pwr) : (s.modPwr f).fuses = s.fuses := rfl
@[simp] theorem State.modPwr_img (f : Pwr → Pwr) : (s.modPwr f).img = s.img := rfl
@[simp] theorem State.modPwr_boot (f : Pwr → Pwr) : (s.modPwr f).boot = s.boot := rfl
@[simp] theorem State.modPwr_nor (f : Pwr → Pwr) : (s.modPwr f).nor = s.nor := rfl
@[simp] theorem State.modPwr_emmc (f : Pwr → Pwr) : (s.modPwr f).emmc = s.emmc := rfl
@[simp] theorem State.modPwr_evtTurn (f : Pwr → Pwr) : (s.modPwr f).evtTurn = s.evtTurn := rfl
@[simp] theorem State.modPwr_cyc (f : Pwr → Pwr) : (s.modPwr f).cyc = s.cyc := rfl

@[simp] theorem State.modPwd_pending (f : Pwd → Pwd) : (s.modPwd f).pending = s.pending := rfl
@[simp] theorem State.modPwd_regs (f : Pwd → Pwd) : (s.modPwd f).regs = s.regs := rfl
@[simp] theorem State.modPwd_snaps (f : Pwd → Pwd) : (s.modPwd f).snaps = s.snaps := rfl
@[simp] theorem State.modPwd_rdata (f : Pwd → Pwd) : (s.modPwd f).rdata = s.rdata := rfl
@[simp] theorem State.modPwd_i2cOut (f : Pwd → Pwd) : (s.modPwd f).i2cOut = s.i2cOut := rfl
@[simp] theorem State.modPwd_i2cNack (f : Pwd → Pwd) : (s.modPwd f).i2cNack = s.i2cNack := rfl
@[simp] theorem State.modPwd_free (f : Pwd → Pwd) : (s.modPwd f).free = s.free := rfl
@[simp] theorem State.modPwd_time (f : Pwd → Pwd) : (s.modPwd f).time = s.time := rfl
@[simp] theorem State.modPwd_clock (f : Pwd → Pwd) : (s.modPwd f).clock = s.clock := rfl
@[simp] theorem State.modPwd_probe (f : Pwd → Pwd) : (s.modPwd f).probe = s.probe := rfl
@[simp] theorem State.modPwd_coef0 (f : Pwd → Pwd) : (s.modPwd f).coef0 = s.coef0 := rfl
@[simp] theorem State.modPwd_coef1 (f : Pwd → Pwd) : (s.modPwd f).coef1 = s.coef1 := rfl
@[simp] theorem State.modPwd_lut0 (f : Pwd → Pwd) : (s.modPwd f).lut0 = s.lut0 := rfl
@[simp] theorem State.modPwd_lut1 (f : Pwd → Pwd) : (s.modPwd f).lut1 = s.lut1 := rfl
@[simp] theorem State.modPwd_slots (f : Pwd → Pwd) : (s.modPwd f).slots = s.slots := rfl
@[simp] theorem State.modPwd_asms (f : Pwd → Pwd) : (s.modPwd f).asms = s.asms := rfl
@[simp] theorem State.modPwd_asmSeq (f : Pwd → Pwd) : (s.modPwd f).asmSeq = s.asmSeq := rfl
@[simp] theorem State.modPwd_owed (f : Pwd → Pwd) : (s.modPwd f).owed = s.owed := rfl
@[simp] theorem State.modPwd_lyr (f : Pwd → Pwd) : (s.modPwd f).lyr = s.lyr := rfl
@[simp] theorem State.modPwd_syn (f : Pwd → Pwd) : (s.modPwd f).syn = s.syn := rfl
@[simp] theorem State.modPwd_tab (f : Pwd → Pwd) : (s.modPwd f).tab = s.tab := rfl
@[simp] theorem State.modPwd_drv (f : Pwd → Pwd) : (s.modPwd f).drv = s.drv := rfl
@[simp] theorem State.modPwd_hbm (f : Pwd → Pwd) : (s.modPwd f).hbm = s.hbm := rfl
@[simp] theorem State.modPwd_swd (f : Pwd → Pwd) : (s.modPwd f).swd = s.swd := rfl
@[simp] theorem State.modPwd_tsets (f : Pwd → Pwd) : (s.modPwd f).tsets = s.tsets := rfl
@[simp] theorem State.modPwd_codeTabs (f : Pwd → Pwd) : (s.modPwd f).codeTabs = s.codeTabs := rfl
@[simp] theorem State.modPwd_ports (f : Pwd → Pwd) : (s.modPwd f).ports = s.ports := rfl
@[simp] theorem State.modPwd_ses (f : Pwd → Pwd) : (s.modPwd f).ses = s.ses := rfl
@[simp] theorem State.modPwd_cas (f : Pwd → Pwd) : (s.modPwd f).cas = s.cas := rfl
@[simp] theorem State.modPwd_tim (f : Pwd → Pwd) : (s.modPwd f).tim = s.tim := rfl
@[simp] theorem State.modPwd_pl (f : Pwd → Pwd) : (s.modPwd f).pl = s.pl := rfl
@[simp] theorem State.modPwd_mem (f : Pwd → Pwd) : (s.modPwd f).mem = s.mem := rfl
@[simp] theorem State.modPwd_caps (f : Pwd → Pwd) : (s.modPwd f).caps = s.caps := rfl
@[simp] theorem State.modPwd_cal (f : Pwd → Pwd) : (s.modPwd f).cal = s.cal := rfl
@[simp] theorem State.modPwd_pwr (f : Pwd → Pwd) : (s.modPwd f).pwr = s.pwr := rfl
@[simp] theorem State.modPwd_tap (f : Pwd → Pwd) : (s.modPwd f).tap = s.tap := rfl
@[simp] theorem State.modPwd_boxes (f : Pwd → Pwd) : (s.modPwd f).boxes = s.boxes := rfl
@[simp] theorem State.modPwd_heath (f : Pwd → Pwd) : (s.modPwd f).heath = s.heath := rfl
@[simp] theorem State.modPwd_jobs (f : Pwd → Pwd) : (s.modPwd f).jobs = s.jobs := rfl
@[simp] theorem State.modPwd_straps (f : Pwd → Pwd) : (s.modPwd f).straps = s.straps := rfl
@[simp] theorem State.modPwd_fuses (f : Pwd → Pwd) : (s.modPwd f).fuses = s.fuses := rfl
@[simp] theorem State.modPwd_img (f : Pwd → Pwd) : (s.modPwd f).img = s.img := rfl
@[simp] theorem State.modPwd_boot (f : Pwd → Pwd) : (s.modPwd f).boot = s.boot := rfl
@[simp] theorem State.modPwd_nor (f : Pwd → Pwd) : (s.modPwd f).nor = s.nor := rfl
@[simp] theorem State.modPwd_emmc (f : Pwd → Pwd) : (s.modPwd f).emmc = s.emmc := rfl
@[simp] theorem State.modPwd_evtTurn (f : Pwd → Pwd) : (s.modPwd f).evtTurn = s.evtTurn := rfl
@[simp] theorem State.modPwd_cyc (f : Pwd → Pwd) : (s.modPwd f).cyc = s.cyc := rfl

@[simp] theorem State.modSlot_pending (n : Nat) (f : Slot → Slot) : (s.modSlot n f).pending = s.pending := rfl
@[simp] theorem State.modSlot_regs (n : Nat) (f : Slot → Slot) : (s.modSlot n f).regs = s.regs := rfl
@[simp] theorem State.modSlot_snaps (n : Nat) (f : Slot → Slot) : (s.modSlot n f).snaps = s.snaps := rfl
@[simp] theorem State.modSlot_rdata (n : Nat) (f : Slot → Slot) : (s.modSlot n f).rdata = s.rdata := rfl
@[simp] theorem State.modSlot_i2cOut (n : Nat) (f : Slot → Slot) : (s.modSlot n f).i2cOut = s.i2cOut := rfl
@[simp] theorem State.modSlot_i2cNack (n : Nat) (f : Slot → Slot) : (s.modSlot n f).i2cNack = s.i2cNack := rfl
@[simp] theorem State.modSlot_free (n : Nat) (f : Slot → Slot) : (s.modSlot n f).free = s.free := rfl
@[simp] theorem State.modSlot_time (n : Nat) (f : Slot → Slot) : (s.modSlot n f).time = s.time := rfl
@[simp] theorem State.modSlot_clock (n : Nat) (f : Slot → Slot) : (s.modSlot n f).clock = s.clock := rfl
@[simp] theorem State.modSlot_probe (n : Nat) (f : Slot → Slot) : (s.modSlot n f).probe = s.probe := rfl
@[simp] theorem State.modSlot_coef0 (n : Nat) (f : Slot → Slot) : (s.modSlot n f).coef0 = s.coef0 := rfl
@[simp] theorem State.modSlot_coef1 (n : Nat) (f : Slot → Slot) : (s.modSlot n f).coef1 = s.coef1 := rfl
@[simp] theorem State.modSlot_lut0 (n : Nat) (f : Slot → Slot) : (s.modSlot n f).lut0 = s.lut0 := rfl
@[simp] theorem State.modSlot_lut1 (n : Nat) (f : Slot → Slot) : (s.modSlot n f).lut1 = s.lut1 := rfl
@[simp] theorem State.modSlot_asms (n : Nat) (f : Slot → Slot) : (s.modSlot n f).asms = s.asms := rfl
@[simp] theorem State.modSlot_asmSeq (n : Nat) (f : Slot → Slot) : (s.modSlot n f).asmSeq = s.asmSeq := rfl
@[simp] theorem State.modSlot_owed (n : Nat) (f : Slot → Slot) : (s.modSlot n f).owed = s.owed := rfl
@[simp] theorem State.modSlot_lyr (n : Nat) (f : Slot → Slot) : (s.modSlot n f).lyr = s.lyr := rfl
@[simp] theorem State.modSlot_syn (n : Nat) (f : Slot → Slot) : (s.modSlot n f).syn = s.syn := rfl
@[simp] theorem State.modSlot_tab (n : Nat) (f : Slot → Slot) : (s.modSlot n f).tab = s.tab := rfl
@[simp] theorem State.modSlot_drv (n : Nat) (f : Slot → Slot) : (s.modSlot n f).drv = s.drv := rfl
@[simp] theorem State.modSlot_hbm (n : Nat) (f : Slot → Slot) : (s.modSlot n f).hbm = s.hbm := rfl
@[simp] theorem State.modSlot_swd (n : Nat) (f : Slot → Slot) : (s.modSlot n f).swd = s.swd := rfl
@[simp] theorem State.modSlot_tsets (n : Nat) (f : Slot → Slot) : (s.modSlot n f).tsets = s.tsets := rfl
@[simp] theorem State.modSlot_codeTabs (n : Nat) (f : Slot → Slot) : (s.modSlot n f).codeTabs = s.codeTabs := rfl
@[simp] theorem State.modSlot_ports (n : Nat) (f : Slot → Slot) : (s.modSlot n f).ports = s.ports := rfl
@[simp] theorem State.modSlot_ses (n : Nat) (f : Slot → Slot) : (s.modSlot n f).ses = s.ses := rfl
@[simp] theorem State.modSlot_cas (n : Nat) (f : Slot → Slot) : (s.modSlot n f).cas = s.cas := rfl
@[simp] theorem State.modSlot_tim (n : Nat) (f : Slot → Slot) : (s.modSlot n f).tim = s.tim := rfl
@[simp] theorem State.modSlot_pl (n : Nat) (f : Slot → Slot) : (s.modSlot n f).pl = s.pl := rfl
@[simp] theorem State.modSlot_pwd (n : Nat) (f : Slot → Slot) : (s.modSlot n f).pwd = s.pwd := rfl
@[simp] theorem State.modSlot_mem (n : Nat) (f : Slot → Slot) : (s.modSlot n f).mem = s.mem := rfl
@[simp] theorem State.modSlot_caps (n : Nat) (f : Slot → Slot) : (s.modSlot n f).caps = s.caps := rfl
@[simp] theorem State.modSlot_cal (n : Nat) (f : Slot → Slot) : (s.modSlot n f).cal = s.cal := rfl
@[simp] theorem State.modSlot_pwr (n : Nat) (f : Slot → Slot) : (s.modSlot n f).pwr = s.pwr := rfl
@[simp] theorem State.modSlot_tap (n : Nat) (f : Slot → Slot) : (s.modSlot n f).tap = s.tap := rfl
@[simp] theorem State.modSlot_boxes (n : Nat) (f : Slot → Slot) : (s.modSlot n f).boxes = s.boxes := rfl
@[simp] theorem State.modSlot_heath (n : Nat) (f : Slot → Slot) : (s.modSlot n f).heath = s.heath := rfl
@[simp] theorem State.modSlot_jobs (n : Nat) (f : Slot → Slot) : (s.modSlot n f).jobs = s.jobs := rfl
@[simp] theorem State.modSlot_straps (n : Nat) (f : Slot → Slot) : (s.modSlot n f).straps = s.straps := rfl
@[simp] theorem State.modSlot_fuses (n : Nat) (f : Slot → Slot) : (s.modSlot n f).fuses = s.fuses := rfl
@[simp] theorem State.modSlot_img (n : Nat) (f : Slot → Slot) : (s.modSlot n f).img = s.img := rfl
@[simp] theorem State.modSlot_boot (n : Nat) (f : Slot → Slot) : (s.modSlot n f).boot = s.boot := rfl
@[simp] theorem State.modSlot_nor (n : Nat) (f : Slot → Slot) : (s.modSlot n f).nor = s.nor := rfl
@[simp] theorem State.modSlot_emmc (n : Nat) (f : Slot → Slot) : (s.modSlot n f).emmc = s.emmc := rfl
@[simp] theorem State.modSlot_evtTurn (n : Nat) (f : Slot → Slot) : (s.modSlot n f).evtTurn = s.evtTurn := rfl
@[simp] theorem State.modSlot_cyc (n : Nat) (f : Slot → Slot) : (s.modSlot n f).cyc = s.cyc := rfl

@[simp] theorem State.modBox_pending (b : Nat) (f : Box → Box) : (s.modBox b f).pending = s.pending := rfl
@[simp] theorem State.modBox_regs (b : Nat) (f : Box → Box) : (s.modBox b f).regs = s.regs := rfl
@[simp] theorem State.modBox_snaps (b : Nat) (f : Box → Box) : (s.modBox b f).snaps = s.snaps := rfl
@[simp] theorem State.modBox_rdata (b : Nat) (f : Box → Box) : (s.modBox b f).rdata = s.rdata := rfl
@[simp] theorem State.modBox_i2cOut (b : Nat) (f : Box → Box) : (s.modBox b f).i2cOut = s.i2cOut := rfl
@[simp] theorem State.modBox_i2cNack (b : Nat) (f : Box → Box) : (s.modBox b f).i2cNack = s.i2cNack := rfl
@[simp] theorem State.modBox_free (b : Nat) (f : Box → Box) : (s.modBox b f).free = s.free := rfl
@[simp] theorem State.modBox_time (b : Nat) (f : Box → Box) : (s.modBox b f).time = s.time := rfl
@[simp] theorem State.modBox_clock (b : Nat) (f : Box → Box) : (s.modBox b f).clock = s.clock := rfl
@[simp] theorem State.modBox_probe (b : Nat) (f : Box → Box) : (s.modBox b f).probe = s.probe := rfl
@[simp] theorem State.modBox_coef0 (b : Nat) (f : Box → Box) : (s.modBox b f).coef0 = s.coef0 := rfl
@[simp] theorem State.modBox_coef1 (b : Nat) (f : Box → Box) : (s.modBox b f).coef1 = s.coef1 := rfl
@[simp] theorem State.modBox_lut0 (b : Nat) (f : Box → Box) : (s.modBox b f).lut0 = s.lut0 := rfl
@[simp] theorem State.modBox_lut1 (b : Nat) (f : Box → Box) : (s.modBox b f).lut1 = s.lut1 := rfl
@[simp] theorem State.modBox_slots (b : Nat) (f : Box → Box) : (s.modBox b f).slots = s.slots := rfl
@[simp] theorem State.modBox_asms (b : Nat) (f : Box → Box) : (s.modBox b f).asms = s.asms := rfl
@[simp] theorem State.modBox_asmSeq (b : Nat) (f : Box → Box) : (s.modBox b f).asmSeq = s.asmSeq := rfl
@[simp] theorem State.modBox_owed (b : Nat) (f : Box → Box) : (s.modBox b f).owed = s.owed := rfl
@[simp] theorem State.modBox_lyr (b : Nat) (f : Box → Box) : (s.modBox b f).lyr = s.lyr := rfl
@[simp] theorem State.modBox_syn (b : Nat) (f : Box → Box) : (s.modBox b f).syn = s.syn := rfl
@[simp] theorem State.modBox_tab (b : Nat) (f : Box → Box) : (s.modBox b f).tab = s.tab := rfl
@[simp] theorem State.modBox_drv (b : Nat) (f : Box → Box) : (s.modBox b f).drv = s.drv := rfl
@[simp] theorem State.modBox_hbm (b : Nat) (f : Box → Box) : (s.modBox b f).hbm = s.hbm := rfl
@[simp] theorem State.modBox_swd (b : Nat) (f : Box → Box) : (s.modBox b f).swd = s.swd := rfl
@[simp] theorem State.modBox_tsets (b : Nat) (f : Box → Box) : (s.modBox b f).tsets = s.tsets := rfl
@[simp] theorem State.modBox_codeTabs (b : Nat) (f : Box → Box) : (s.modBox b f).codeTabs = s.codeTabs := rfl
@[simp] theorem State.modBox_ports (b : Nat) (f : Box → Box) : (s.modBox b f).ports = s.ports := rfl
@[simp] theorem State.modBox_ses (b : Nat) (f : Box → Box) : (s.modBox b f).ses = s.ses := rfl
@[simp] theorem State.modBox_cas (b : Nat) (f : Box → Box) : (s.modBox b f).cas = s.cas := rfl
@[simp] theorem State.modBox_tim (b : Nat) (f : Box → Box) : (s.modBox b f).tim = s.tim := rfl
@[simp] theorem State.modBox_pl (b : Nat) (f : Box → Box) : (s.modBox b f).pl = s.pl := rfl
@[simp] theorem State.modBox_pwd (b : Nat) (f : Box → Box) : (s.modBox b f).pwd = s.pwd := rfl
@[simp] theorem State.modBox_mem (b : Nat) (f : Box → Box) : (s.modBox b f).mem = s.mem := rfl
@[simp] theorem State.modBox_caps (b : Nat) (f : Box → Box) : (s.modBox b f).caps = s.caps := rfl
@[simp] theorem State.modBox_cal (b : Nat) (f : Box → Box) : (s.modBox b f).cal = s.cal := rfl
@[simp] theorem State.modBox_pwr (b : Nat) (f : Box → Box) : (s.modBox b f).pwr = s.pwr := rfl
@[simp] theorem State.modBox_tap (b : Nat) (f : Box → Box) : (s.modBox b f).tap = s.tap := rfl
@[simp] theorem State.modBox_heath (b : Nat) (f : Box → Box) : (s.modBox b f).heath = s.heath := rfl
@[simp] theorem State.modBox_jobs (b : Nat) (f : Box → Box) : (s.modBox b f).jobs = s.jobs := rfl
@[simp] theorem State.modBox_straps (b : Nat) (f : Box → Box) : (s.modBox b f).straps = s.straps := rfl
@[simp] theorem State.modBox_fuses (b : Nat) (f : Box → Box) : (s.modBox b f).fuses = s.fuses := rfl
@[simp] theorem State.modBox_img (b : Nat) (f : Box → Box) : (s.modBox b f).img = s.img := rfl
@[simp] theorem State.modBox_boot (b : Nat) (f : Box → Box) : (s.modBox b f).boot = s.boot := rfl
@[simp] theorem State.modBox_nor (b : Nat) (f : Box → Box) : (s.modBox b f).nor = s.nor := rfl
@[simp] theorem State.modBox_emmc (b : Nat) (f : Box → Box) : (s.modBox b f).emmc = s.emmc := rfl
@[simp] theorem State.modBox_evtTurn (b : Nat) (f : Box → Box) : (s.modBox b f).evtTurn = s.evtTurn := rfl
@[simp] theorem State.modBox_cyc (b : Nat) (f : Box → Box) : (s.modBox b f).cyc = s.cyc := rfl

@[simp] theorem State.modHeath_pending (f : Heath → Heath) : (s.modHeath f).pending = s.pending := rfl
@[simp] theorem State.modHeath_regs (f : Heath → Heath) : (s.modHeath f).regs = s.regs := rfl
@[simp] theorem State.modHeath_snaps (f : Heath → Heath) : (s.modHeath f).snaps = s.snaps := rfl
@[simp] theorem State.modHeath_rdata (f : Heath → Heath) : (s.modHeath f).rdata = s.rdata := rfl
@[simp] theorem State.modHeath_i2cOut (f : Heath → Heath) : (s.modHeath f).i2cOut = s.i2cOut := rfl
@[simp] theorem State.modHeath_i2cNack (f : Heath → Heath) : (s.modHeath f).i2cNack = s.i2cNack := rfl
@[simp] theorem State.modHeath_free (f : Heath → Heath) : (s.modHeath f).free = s.free := rfl
@[simp] theorem State.modHeath_time (f : Heath → Heath) : (s.modHeath f).time = s.time := rfl
@[simp] theorem State.modHeath_clock (f : Heath → Heath) : (s.modHeath f).clock = s.clock := rfl
@[simp] theorem State.modHeath_probe (f : Heath → Heath) : (s.modHeath f).probe = s.probe := rfl
@[simp] theorem State.modHeath_coef0 (f : Heath → Heath) : (s.modHeath f).coef0 = s.coef0 := rfl
@[simp] theorem State.modHeath_coef1 (f : Heath → Heath) : (s.modHeath f).coef1 = s.coef1 := rfl
@[simp] theorem State.modHeath_lut0 (f : Heath → Heath) : (s.modHeath f).lut0 = s.lut0 := rfl
@[simp] theorem State.modHeath_lut1 (f : Heath → Heath) : (s.modHeath f).lut1 = s.lut1 := rfl
@[simp] theorem State.modHeath_slots (f : Heath → Heath) : (s.modHeath f).slots = s.slots := rfl
@[simp] theorem State.modHeath_asms (f : Heath → Heath) : (s.modHeath f).asms = s.asms := rfl
@[simp] theorem State.modHeath_asmSeq (f : Heath → Heath) : (s.modHeath f).asmSeq = s.asmSeq := rfl
@[simp] theorem State.modHeath_owed (f : Heath → Heath) : (s.modHeath f).owed = s.owed := rfl
@[simp] theorem State.modHeath_lyr (f : Heath → Heath) : (s.modHeath f).lyr = s.lyr := rfl
@[simp] theorem State.modHeath_syn (f : Heath → Heath) : (s.modHeath f).syn = s.syn := rfl
@[simp] theorem State.modHeath_tab (f : Heath → Heath) : (s.modHeath f).tab = s.tab := rfl
@[simp] theorem State.modHeath_drv (f : Heath → Heath) : (s.modHeath f).drv = s.drv := rfl
@[simp] theorem State.modHeath_hbm (f : Heath → Heath) : (s.modHeath f).hbm = s.hbm := rfl
@[simp] theorem State.modHeath_swd (f : Heath → Heath) : (s.modHeath f).swd = s.swd := rfl
@[simp] theorem State.modHeath_tsets (f : Heath → Heath) : (s.modHeath f).tsets = s.tsets := rfl
@[simp] theorem State.modHeath_codeTabs (f : Heath → Heath) : (s.modHeath f).codeTabs = s.codeTabs := rfl
@[simp] theorem State.modHeath_ports (f : Heath → Heath) : (s.modHeath f).ports = s.ports := rfl
@[simp] theorem State.modHeath_ses (f : Heath → Heath) : (s.modHeath f).ses = s.ses := rfl
@[simp] theorem State.modHeath_cas (f : Heath → Heath) : (s.modHeath f).cas = s.cas := rfl
@[simp] theorem State.modHeath_tim (f : Heath → Heath) : (s.modHeath f).tim = s.tim := rfl
@[simp] theorem State.modHeath_pl (f : Heath → Heath) : (s.modHeath f).pl = s.pl := rfl
@[simp] theorem State.modHeath_pwd (f : Heath → Heath) : (s.modHeath f).pwd = s.pwd := rfl
@[simp] theorem State.modHeath_mem (f : Heath → Heath) : (s.modHeath f).mem = s.mem := rfl
@[simp] theorem State.modHeath_caps (f : Heath → Heath) : (s.modHeath f).caps = s.caps := rfl
@[simp] theorem State.modHeath_cal (f : Heath → Heath) : (s.modHeath f).cal = s.cal := rfl
@[simp] theorem State.modHeath_pwr (f : Heath → Heath) : (s.modHeath f).pwr = s.pwr := rfl
@[simp] theorem State.modHeath_tap (f : Heath → Heath) : (s.modHeath f).tap = s.tap := rfl
@[simp] theorem State.modHeath_boxes (f : Heath → Heath) : (s.modHeath f).boxes = s.boxes := rfl
@[simp] theorem State.modHeath_jobs (f : Heath → Heath) : (s.modHeath f).jobs = s.jobs := rfl
@[simp] theorem State.modHeath_straps (f : Heath → Heath) : (s.modHeath f).straps = s.straps := rfl
@[simp] theorem State.modHeath_fuses (f : Heath → Heath) : (s.modHeath f).fuses = s.fuses := rfl
@[simp] theorem State.modHeath_img (f : Heath → Heath) : (s.modHeath f).img = s.img := rfl
@[simp] theorem State.modHeath_boot (f : Heath → Heath) : (s.modHeath f).boot = s.boot := rfl
@[simp] theorem State.modHeath_nor (f : Heath → Heath) : (s.modHeath f).nor = s.nor := rfl
@[simp] theorem State.modHeath_emmc (f : Heath → Heath) : (s.modHeath f).emmc = s.emmc := rfl
@[simp] theorem State.modHeath_evtTurn (f : Heath → Heath) : (s.modHeath f).evtTurn = s.evtTurn := rfl
@[simp] theorem State.modHeath_cyc (f : Heath → Heath) : (s.modHeath f).cyc = s.cyc := rfl

@[simp] theorem State.modJobs_pending (f : Jobs → Jobs) : (s.modJobs f).pending = s.pending := rfl
@[simp] theorem State.modJobs_regs (f : Jobs → Jobs) : (s.modJobs f).regs = s.regs := rfl
@[simp] theorem State.modJobs_snaps (f : Jobs → Jobs) : (s.modJobs f).snaps = s.snaps := rfl
@[simp] theorem State.modJobs_rdata (f : Jobs → Jobs) : (s.modJobs f).rdata = s.rdata := rfl
@[simp] theorem State.modJobs_i2cOut (f : Jobs → Jobs) : (s.modJobs f).i2cOut = s.i2cOut := rfl
@[simp] theorem State.modJobs_i2cNack (f : Jobs → Jobs) : (s.modJobs f).i2cNack = s.i2cNack := rfl
@[simp] theorem State.modJobs_free (f : Jobs → Jobs) : (s.modJobs f).free = s.free := rfl
@[simp] theorem State.modJobs_time (f : Jobs → Jobs) : (s.modJobs f).time = s.time := rfl
@[simp] theorem State.modJobs_clock (f : Jobs → Jobs) : (s.modJobs f).clock = s.clock := rfl
@[simp] theorem State.modJobs_probe (f : Jobs → Jobs) : (s.modJobs f).probe = s.probe := rfl
@[simp] theorem State.modJobs_coef0 (f : Jobs → Jobs) : (s.modJobs f).coef0 = s.coef0 := rfl
@[simp] theorem State.modJobs_coef1 (f : Jobs → Jobs) : (s.modJobs f).coef1 = s.coef1 := rfl
@[simp] theorem State.modJobs_lut0 (f : Jobs → Jobs) : (s.modJobs f).lut0 = s.lut0 := rfl
@[simp] theorem State.modJobs_lut1 (f : Jobs → Jobs) : (s.modJobs f).lut1 = s.lut1 := rfl
@[simp] theorem State.modJobs_slots (f : Jobs → Jobs) : (s.modJobs f).slots = s.slots := rfl
@[simp] theorem State.modJobs_asms (f : Jobs → Jobs) : (s.modJobs f).asms = s.asms := rfl
@[simp] theorem State.modJobs_asmSeq (f : Jobs → Jobs) : (s.modJobs f).asmSeq = s.asmSeq := rfl
@[simp] theorem State.modJobs_owed (f : Jobs → Jobs) : (s.modJobs f).owed = s.owed := rfl
@[simp] theorem State.modJobs_lyr (f : Jobs → Jobs) : (s.modJobs f).lyr = s.lyr := rfl
@[simp] theorem State.modJobs_syn (f : Jobs → Jobs) : (s.modJobs f).syn = s.syn := rfl
@[simp] theorem State.modJobs_tab (f : Jobs → Jobs) : (s.modJobs f).tab = s.tab := rfl
@[simp] theorem State.modJobs_drv (f : Jobs → Jobs) : (s.modJobs f).drv = s.drv := rfl
@[simp] theorem State.modJobs_hbm (f : Jobs → Jobs) : (s.modJobs f).hbm = s.hbm := rfl
@[simp] theorem State.modJobs_swd (f : Jobs → Jobs) : (s.modJobs f).swd = s.swd := rfl
@[simp] theorem State.modJobs_tsets (f : Jobs → Jobs) : (s.modJobs f).tsets = s.tsets := rfl
@[simp] theorem State.modJobs_codeTabs (f : Jobs → Jobs) : (s.modJobs f).codeTabs = s.codeTabs := rfl
@[simp] theorem State.modJobs_ports (f : Jobs → Jobs) : (s.modJobs f).ports = s.ports := rfl
@[simp] theorem State.modJobs_ses (f : Jobs → Jobs) : (s.modJobs f).ses = s.ses := rfl
@[simp] theorem State.modJobs_cas (f : Jobs → Jobs) : (s.modJobs f).cas = s.cas := rfl
@[simp] theorem State.modJobs_tim (f : Jobs → Jobs) : (s.modJobs f).tim = s.tim := rfl
@[simp] theorem State.modJobs_pl (f : Jobs → Jobs) : (s.modJobs f).pl = s.pl := rfl
@[simp] theorem State.modJobs_pwd (f : Jobs → Jobs) : (s.modJobs f).pwd = s.pwd := rfl
@[simp] theorem State.modJobs_mem (f : Jobs → Jobs) : (s.modJobs f).mem = s.mem := rfl
@[simp] theorem State.modJobs_caps (f : Jobs → Jobs) : (s.modJobs f).caps = s.caps := rfl
@[simp] theorem State.modJobs_cal (f : Jobs → Jobs) : (s.modJobs f).cal = s.cal := rfl
@[simp] theorem State.modJobs_pwr (f : Jobs → Jobs) : (s.modJobs f).pwr = s.pwr := rfl
@[simp] theorem State.modJobs_tap (f : Jobs → Jobs) : (s.modJobs f).tap = s.tap := rfl
@[simp] theorem State.modJobs_boxes (f : Jobs → Jobs) : (s.modJobs f).boxes = s.boxes := rfl
@[simp] theorem State.modJobs_heath (f : Jobs → Jobs) : (s.modJobs f).heath = s.heath := rfl
@[simp] theorem State.modJobs_straps (f : Jobs → Jobs) : (s.modJobs f).straps = s.straps := rfl
@[simp] theorem State.modJobs_fuses (f : Jobs → Jobs) : (s.modJobs f).fuses = s.fuses := rfl
@[simp] theorem State.modJobs_img (f : Jobs → Jobs) : (s.modJobs f).img = s.img := rfl
@[simp] theorem State.modJobs_boot (f : Jobs → Jobs) : (s.modJobs f).boot = s.boot := rfl
@[simp] theorem State.modJobs_nor (f : Jobs → Jobs) : (s.modJobs f).nor = s.nor := rfl
@[simp] theorem State.modJobs_emmc (f : Jobs → Jobs) : (s.modJobs f).emmc = s.emmc := rfl
@[simp] theorem State.modJobs_evtTurn (f : Jobs → Jobs) : (s.modJobs f).evtTurn = s.evtTurn := rfl
@[simp] theorem State.modJobs_cyc (f : Jobs → Jobs) : (s.modJobs f).cyc = s.cyc := rfl

@[simp] theorem State.modRing_pending (r : Nat) (f : JobRing → JobRing) : (s.modRing r f).pending = s.pending := rfl
@[simp] theorem State.modRing_regs (r : Nat) (f : JobRing → JobRing) : (s.modRing r f).regs = s.regs := rfl
@[simp] theorem State.modRing_snaps (r : Nat) (f : JobRing → JobRing) : (s.modRing r f).snaps = s.snaps := rfl
@[simp] theorem State.modRing_rdata (r : Nat) (f : JobRing → JobRing) : (s.modRing r f).rdata = s.rdata := rfl
@[simp] theorem State.modRing_i2cOut (r : Nat) (f : JobRing → JobRing) : (s.modRing r f).i2cOut = s.i2cOut := rfl
@[simp] theorem State.modRing_i2cNack (r : Nat) (f : JobRing → JobRing) : (s.modRing r f).i2cNack = s.i2cNack := rfl
@[simp] theorem State.modRing_free (r : Nat) (f : JobRing → JobRing) : (s.modRing r f).free = s.free := rfl
@[simp] theorem State.modRing_time (r : Nat) (f : JobRing → JobRing) : (s.modRing r f).time = s.time := rfl
@[simp] theorem State.modRing_clock (r : Nat) (f : JobRing → JobRing) : (s.modRing r f).clock = s.clock := rfl
@[simp] theorem State.modRing_probe (r : Nat) (f : JobRing → JobRing) : (s.modRing r f).probe = s.probe := rfl
@[simp] theorem State.modRing_coef0 (r : Nat) (f : JobRing → JobRing) : (s.modRing r f).coef0 = s.coef0 := rfl
@[simp] theorem State.modRing_coef1 (r : Nat) (f : JobRing → JobRing) : (s.modRing r f).coef1 = s.coef1 := rfl
@[simp] theorem State.modRing_lut0 (r : Nat) (f : JobRing → JobRing) : (s.modRing r f).lut0 = s.lut0 := rfl
@[simp] theorem State.modRing_lut1 (r : Nat) (f : JobRing → JobRing) : (s.modRing r f).lut1 = s.lut1 := rfl
@[simp] theorem State.modRing_slots (r : Nat) (f : JobRing → JobRing) : (s.modRing r f).slots = s.slots := rfl
@[simp] theorem State.modRing_asms (r : Nat) (f : JobRing → JobRing) : (s.modRing r f).asms = s.asms := rfl
@[simp] theorem State.modRing_asmSeq (r : Nat) (f : JobRing → JobRing) : (s.modRing r f).asmSeq = s.asmSeq := rfl
@[simp] theorem State.modRing_owed (r : Nat) (f : JobRing → JobRing) : (s.modRing r f).owed = s.owed := rfl
@[simp] theorem State.modRing_lyr (r : Nat) (f : JobRing → JobRing) : (s.modRing r f).lyr = s.lyr := rfl
@[simp] theorem State.modRing_syn (r : Nat) (f : JobRing → JobRing) : (s.modRing r f).syn = s.syn := rfl
@[simp] theorem State.modRing_tab (r : Nat) (f : JobRing → JobRing) : (s.modRing r f).tab = s.tab := rfl
@[simp] theorem State.modRing_drv (r : Nat) (f : JobRing → JobRing) : (s.modRing r f).drv = s.drv := rfl
@[simp] theorem State.modRing_hbm (r : Nat) (f : JobRing → JobRing) : (s.modRing r f).hbm = s.hbm := rfl
@[simp] theorem State.modRing_swd (r : Nat) (f : JobRing → JobRing) : (s.modRing r f).swd = s.swd := rfl
@[simp] theorem State.modRing_tsets (r : Nat) (f : JobRing → JobRing) : (s.modRing r f).tsets = s.tsets := rfl
@[simp] theorem State.modRing_codeTabs (r : Nat) (f : JobRing → JobRing) : (s.modRing r f).codeTabs = s.codeTabs := rfl
@[simp] theorem State.modRing_ports (r : Nat) (f : JobRing → JobRing) : (s.modRing r f).ports = s.ports := rfl
@[simp] theorem State.modRing_ses (r : Nat) (f : JobRing → JobRing) : (s.modRing r f).ses = s.ses := rfl
@[simp] theorem State.modRing_cas (r : Nat) (f : JobRing → JobRing) : (s.modRing r f).cas = s.cas := rfl
@[simp] theorem State.modRing_tim (r : Nat) (f : JobRing → JobRing) : (s.modRing r f).tim = s.tim := rfl
@[simp] theorem State.modRing_pl (r : Nat) (f : JobRing → JobRing) : (s.modRing r f).pl = s.pl := rfl
@[simp] theorem State.modRing_pwd (r : Nat) (f : JobRing → JobRing) : (s.modRing r f).pwd = s.pwd := rfl
@[simp] theorem State.modRing_mem (r : Nat) (f : JobRing → JobRing) : (s.modRing r f).mem = s.mem := rfl
@[simp] theorem State.modRing_caps (r : Nat) (f : JobRing → JobRing) : (s.modRing r f).caps = s.caps := rfl
@[simp] theorem State.modRing_cal (r : Nat) (f : JobRing → JobRing) : (s.modRing r f).cal = s.cal := rfl
@[simp] theorem State.modRing_pwr (r : Nat) (f : JobRing → JobRing) : (s.modRing r f).pwr = s.pwr := rfl
@[simp] theorem State.modRing_tap (r : Nat) (f : JobRing → JobRing) : (s.modRing r f).tap = s.tap := rfl
@[simp] theorem State.modRing_boxes (r : Nat) (f : JobRing → JobRing) : (s.modRing r f).boxes = s.boxes := rfl
@[simp] theorem State.modRing_heath (r : Nat) (f : JobRing → JobRing) : (s.modRing r f).heath = s.heath := rfl
@[simp] theorem State.modRing_straps (r : Nat) (f : JobRing → JobRing) : (s.modRing r f).straps = s.straps := rfl
@[simp] theorem State.modRing_fuses (r : Nat) (f : JobRing → JobRing) : (s.modRing r f).fuses = s.fuses := rfl
@[simp] theorem State.modRing_img (r : Nat) (f : JobRing → JobRing) : (s.modRing r f).img = s.img := rfl
@[simp] theorem State.modRing_boot (r : Nat) (f : JobRing → JobRing) : (s.modRing r f).boot = s.boot := rfl
@[simp] theorem State.modRing_nor (r : Nat) (f : JobRing → JobRing) : (s.modRing r f).nor = s.nor := rfl
@[simp] theorem State.modRing_emmc (r : Nat) (f : JobRing → JobRing) : (s.modRing r f).emmc = s.emmc := rfl
@[simp] theorem State.modRing_evtTurn (r : Nat) (f : JobRing → JobRing) : (s.modRing r f).evtTurn = s.evtTurn := rfl
@[simp] theorem State.modRing_cyc (r : Nat) (f : JobRing → JobRing) : (s.modRing r f).cyc = s.cyc := rfl

@[simp] theorem State.modCasPort_pending (n : Nat) (f : CasPort → CasPort) : (s.modCasPort n f).pending = s.pending := rfl
@[simp] theorem State.modCasPort_regs (n : Nat) (f : CasPort → CasPort) : (s.modCasPort n f).regs = s.regs := rfl
@[simp] theorem State.modCasPort_snaps (n : Nat) (f : CasPort → CasPort) : (s.modCasPort n f).snaps = s.snaps := rfl
@[simp] theorem State.modCasPort_rdata (n : Nat) (f : CasPort → CasPort) : (s.modCasPort n f).rdata = s.rdata := rfl
@[simp] theorem State.modCasPort_i2cOut (n : Nat) (f : CasPort → CasPort) : (s.modCasPort n f).i2cOut = s.i2cOut := rfl
@[simp] theorem State.modCasPort_i2cNack (n : Nat) (f : CasPort → CasPort) : (s.modCasPort n f).i2cNack = s.i2cNack := rfl
@[simp] theorem State.modCasPort_free (n : Nat) (f : CasPort → CasPort) : (s.modCasPort n f).free = s.free := rfl
@[simp] theorem State.modCasPort_time (n : Nat) (f : CasPort → CasPort) : (s.modCasPort n f).time = s.time := rfl
@[simp] theorem State.modCasPort_clock (n : Nat) (f : CasPort → CasPort) : (s.modCasPort n f).clock = s.clock := rfl
@[simp] theorem State.modCasPort_probe (n : Nat) (f : CasPort → CasPort) : (s.modCasPort n f).probe = s.probe := rfl
@[simp] theorem State.modCasPort_coef0 (n : Nat) (f : CasPort → CasPort) : (s.modCasPort n f).coef0 = s.coef0 := rfl
@[simp] theorem State.modCasPort_coef1 (n : Nat) (f : CasPort → CasPort) : (s.modCasPort n f).coef1 = s.coef1 := rfl
@[simp] theorem State.modCasPort_lut0 (n : Nat) (f : CasPort → CasPort) : (s.modCasPort n f).lut0 = s.lut0 := rfl
@[simp] theorem State.modCasPort_lut1 (n : Nat) (f : CasPort → CasPort) : (s.modCasPort n f).lut1 = s.lut1 := rfl
@[simp] theorem State.modCasPort_slots (n : Nat) (f : CasPort → CasPort) : (s.modCasPort n f).slots = s.slots := rfl
@[simp] theorem State.modCasPort_asms (n : Nat) (f : CasPort → CasPort) : (s.modCasPort n f).asms = s.asms := rfl
@[simp] theorem State.modCasPort_asmSeq (n : Nat) (f : CasPort → CasPort) : (s.modCasPort n f).asmSeq = s.asmSeq := rfl
@[simp] theorem State.modCasPort_owed (n : Nat) (f : CasPort → CasPort) : (s.modCasPort n f).owed = s.owed := rfl
@[simp] theorem State.modCasPort_lyr (n : Nat) (f : CasPort → CasPort) : (s.modCasPort n f).lyr = s.lyr := rfl
@[simp] theorem State.modCasPort_syn (n : Nat) (f : CasPort → CasPort) : (s.modCasPort n f).syn = s.syn := rfl
@[simp] theorem State.modCasPort_tab (n : Nat) (f : CasPort → CasPort) : (s.modCasPort n f).tab = s.tab := rfl
@[simp] theorem State.modCasPort_drv (n : Nat) (f : CasPort → CasPort) : (s.modCasPort n f).drv = s.drv := rfl
@[simp] theorem State.modCasPort_hbm (n : Nat) (f : CasPort → CasPort) : (s.modCasPort n f).hbm = s.hbm := rfl
@[simp] theorem State.modCasPort_swd (n : Nat) (f : CasPort → CasPort) : (s.modCasPort n f).swd = s.swd := rfl
@[simp] theorem State.modCasPort_tsets (n : Nat) (f : CasPort → CasPort) : (s.modCasPort n f).tsets = s.tsets := rfl
@[simp] theorem State.modCasPort_codeTabs (n : Nat) (f : CasPort → CasPort) : (s.modCasPort n f).codeTabs = s.codeTabs := rfl
@[simp] theorem State.modCasPort_ports (n : Nat) (f : CasPort → CasPort) : (s.modCasPort n f).ports = s.ports := rfl
@[simp] theorem State.modCasPort_ses (n : Nat) (f : CasPort → CasPort) : (s.modCasPort n f).ses = s.ses := rfl
@[simp] theorem State.modCasPort_tim (n : Nat) (f : CasPort → CasPort) : (s.modCasPort n f).tim = s.tim := rfl
@[simp] theorem State.modCasPort_pl (n : Nat) (f : CasPort → CasPort) : (s.modCasPort n f).pl = s.pl := rfl
@[simp] theorem State.modCasPort_pwd (n : Nat) (f : CasPort → CasPort) : (s.modCasPort n f).pwd = s.pwd := rfl
@[simp] theorem State.modCasPort_mem (n : Nat) (f : CasPort → CasPort) : (s.modCasPort n f).mem = s.mem := rfl
@[simp] theorem State.modCasPort_caps (n : Nat) (f : CasPort → CasPort) : (s.modCasPort n f).caps = s.caps := rfl
@[simp] theorem State.modCasPort_cal (n : Nat) (f : CasPort → CasPort) : (s.modCasPort n f).cal = s.cal := rfl
@[simp] theorem State.modCasPort_pwr (n : Nat) (f : CasPort → CasPort) : (s.modCasPort n f).pwr = s.pwr := rfl
@[simp] theorem State.modCasPort_tap (n : Nat) (f : CasPort → CasPort) : (s.modCasPort n f).tap = s.tap := rfl
@[simp] theorem State.modCasPort_boxes (n : Nat) (f : CasPort → CasPort) : (s.modCasPort n f).boxes = s.boxes := rfl
@[simp] theorem State.modCasPort_heath (n : Nat) (f : CasPort → CasPort) : (s.modCasPort n f).heath = s.heath := rfl
@[simp] theorem State.modCasPort_jobs (n : Nat) (f : CasPort → CasPort) : (s.modCasPort n f).jobs = s.jobs := rfl
@[simp] theorem State.modCasPort_straps (n : Nat) (f : CasPort → CasPort) : (s.modCasPort n f).straps = s.straps := rfl
@[simp] theorem State.modCasPort_fuses (n : Nat) (f : CasPort → CasPort) : (s.modCasPort n f).fuses = s.fuses := rfl
@[simp] theorem State.modCasPort_img (n : Nat) (f : CasPort → CasPort) : (s.modCasPort n f).img = s.img := rfl
@[simp] theorem State.modCasPort_boot (n : Nat) (f : CasPort → CasPort) : (s.modCasPort n f).boot = s.boot := rfl
@[simp] theorem State.modCasPort_nor (n : Nat) (f : CasPort → CasPort) : (s.modCasPort n f).nor = s.nor := rfl
@[simp] theorem State.modCasPort_emmc (n : Nat) (f : CasPort → CasPort) : (s.modCasPort n f).emmc = s.emmc := rfl
@[simp] theorem State.modCasPort_evtTurn (n : Nat) (f : CasPort → CasPort) : (s.modCasPort n f).evtTurn = s.evtTurn := rfl
@[simp] theorem State.modCasPort_cyc (n : Nat) (f : CasPort → CasPort) : (s.modCasPort n f).cyc = s.cyc := rfl

@[simp] theorem State.modCyc_cyc (f : Cyc → Cyc) : (s.modCyc f).cyc = f s.cyc := rfl
@[simp] theorem State.modLyr_lyr (f : Lyr → Lyr) : (s.modLyr f).lyr = f s.lyr := rfl
@[simp] theorem State.modCas_cas (f : Cas → Cas) : (s.modCas f).cas = f s.cas := rfl
@[simp] theorem State.modSes_ses (f : Ses → Ses) : (s.modSes f).ses = f s.ses := rfl
@[simp] theorem State.modMem_mem (f : Mem → Mem) : (s.modMem f).mem = f s.mem := rfl
@[simp] theorem State.modCal_cal (f : Cal → Cal) : (s.modCal f).cal = f s.cal := rfl
@[simp] theorem State.modPwr_pwr (f : Pwr → Pwr) : (s.modPwr f).pwr = f s.pwr := rfl
@[simp] theorem State.modPwd_pwd (f : Pwd → Pwd) : (s.modPwd f).pwd = f s.pwd := rfl
@[simp] theorem State.modHeath_heath (f : Heath → Heath) : (s.modHeath f).heath = f s.heath := rfl
@[simp] theorem State.modJobs_jobs (f : Jobs → Jobs) : (s.modJobs f).jobs = f s.jobs := rfl
@[simp] theorem State.modPort_ports (p : Nat) (f : IngPort → IngPort) : (s.modPort p f).ports = modNth s.ports p f := rfl
@[simp] theorem State.modPl_pl (p : Nat) (f : PlPort → PlPort) : (s.modPl p f).pl = modNth s.pl p f := rfl
@[simp] theorem State.modSlot_slots (n : Nat) (f : Slot → Slot) : (s.modSlot n f).slots = modNth s.slots n f := rfl
@[simp] theorem State.modBox_boxes (b : Nat) (f : Box → Box) : (s.modBox b f).boxes = modNth s.boxes b f := rfl

@[simp] theorem State.modCyc_rget (f : Cyc → Cyc) (k : Nat) : (s.modCyc f).rget k = s.rget k := rfl
@[simp] theorem State.modCyc_fget (f : Cyc → Cyc) (g : Fld) : (s.modCyc f).fget g = s.fget g := rfl
@[simp] theorem State.modCyc_flag (f : Cyc → Cyc) (g : Fld) : (s.modCyc f).flag g = s.flag g := rfl
@[simp] theorem State.ask_rget (a : Nat) (k : Nat) : (s.ask a).rget k = s.rget k := rfl
@[simp] theorem State.ask_fget (a : Nat) (g : Fld) : (s.ask a).fget g = s.fget g := rfl
@[simp] theorem State.ask_flag (a : Nat) (g : Fld) : (s.ask a).flag g = s.flag g := rfl
@[simp] theorem State.modAtt_rget (i : Nat) (f : Att → Att) (k : Nat) : (s.modAtt i f).rget k = s.rget k := rfl
@[simp] theorem State.modAtt_fget (i : Nat) (f : Att → Att) (g : Fld) : (s.modAtt i f).fget g = s.fget g := rfl
@[simp] theorem State.modAtt_flag (i : Nat) (f : Att → Att) (g : Fld) : (s.modAtt i f).flag g = s.flag g := rfl
@[simp] theorem State.modPort_rget (p : Nat) (f : IngPort → IngPort) (k : Nat) : (s.modPort p f).rget k = s.rget k := rfl
@[simp] theorem State.modPort_fget (p : Nat) (f : IngPort → IngPort) (g : Fld) : (s.modPort p f).fget g = s.fget g := rfl
@[simp] theorem State.modPort_flag (p : Nat) (f : IngPort → IngPort) (g : Fld) : (s.modPort p f).flag g = s.flag g := rfl
@[simp] theorem State.modLyr_rget (f : Lyr → Lyr) (k : Nat) : (s.modLyr f).rget k = s.rget k := rfl
@[simp] theorem State.modLyr_fget (f : Lyr → Lyr) (g : Fld) : (s.modLyr f).fget g = s.fget g := rfl
@[simp] theorem State.modLyr_flag (f : Lyr → Lyr) (g : Fld) : (s.modLyr f).flag g = s.flag g := rfl
@[simp] theorem State.modCas_rget (f : Cas → Cas) (k : Nat) : (s.modCas f).rget k = s.rget k := rfl
@[simp] theorem State.modCas_fget (f : Cas → Cas) (g : Fld) : (s.modCas f).fget g = s.fget g := rfl
@[simp] theorem State.modCas_flag (f : Cas → Cas) (g : Fld) : (s.modCas f).flag g = s.flag g := rfl
@[simp] theorem State.modSes_rget (f : Ses → Ses) (k : Nat) : (s.modSes f).rget k = s.rget k := rfl
@[simp] theorem State.modSes_fget (f : Ses → Ses) (g : Fld) : (s.modSes f).fget g = s.fget g := rfl
@[simp] theorem State.modSes_flag (f : Ses → Ses) (g : Fld) : (s.modSes f).flag g = s.flag g := rfl
@[simp] theorem State.hbmWrite_rget (a : Nat) (bs : List Byte) (k : Nat) : (s.hbmWrite a bs).rget k = s.rget k := rfl
@[simp] theorem State.hbmWrite_fget (a : Nat) (bs : List Byte) (g : Fld) : (s.hbmWrite a bs).fget g = s.fget g := rfl
@[simp] theorem State.hbmWrite_flag (a : Nat) (bs : List Byte) (g : Fld) : (s.hbmWrite a bs).flag g = s.flag g := rfl
@[simp] theorem State.modMem_rget (f : Mem → Mem) (k : Nat) : (s.modMem f).rget k = s.rget k := rfl
@[simp] theorem State.modMem_fget (f : Mem → Mem) (g : Fld) : (s.modMem f).fget g = s.fget g := rfl
@[simp] theorem State.modMem_flag (f : Mem → Mem) (g : Fld) : (s.modMem f).flag g = s.flag g := rfl
@[simp] theorem State.modCal_rget (f : Cal → Cal) (k : Nat) : (s.modCal f).rget k = s.rget k := rfl
@[simp] theorem State.modCal_fget (f : Cal → Cal) (g : Fld) : (s.modCal f).fget g = s.fget g := rfl
@[simp] theorem State.modCal_flag (f : Cal → Cal) (g : Fld) : (s.modCal f).flag g = s.flag g := rfl
@[simp] theorem State.modPl_rget (p : Nat) (f : PlPort → PlPort) (k : Nat) : (s.modPl p f).rget k = s.rget k := rfl
@[simp] theorem State.modPl_fget (p : Nat) (f : PlPort → PlPort) (g : Fld) : (s.modPl p f).fget g = s.fget g := rfl
@[simp] theorem State.modPl_flag (p : Nat) (f : PlPort → PlPort) (g : Fld) : (s.modPl p f).flag g = s.flag g := rfl
@[simp] theorem State.modPwr_rget (f : Pwr → Pwr) (k : Nat) : (s.modPwr f).rget k = s.rget k := rfl
@[simp] theorem State.modPwr_fget (f : Pwr → Pwr) (g : Fld) : (s.modPwr f).fget g = s.fget g := rfl
@[simp] theorem State.modPwr_flag (f : Pwr → Pwr) (g : Fld) : (s.modPwr f).flag g = s.flag g := rfl
@[simp] theorem State.modPwd_rget (f : Pwd → Pwd) (k : Nat) : (s.modPwd f).rget k = s.rget k := rfl
@[simp] theorem State.modPwd_fget (f : Pwd → Pwd) (g : Fld) : (s.modPwd f).fget g = s.fget g := rfl
@[simp] theorem State.modPwd_flag (f : Pwd → Pwd) (g : Fld) : (s.modPwd f).flag g = s.flag g := rfl
@[simp] theorem State.modSlot_rget (n : Nat) (f : Slot → Slot) (k : Nat) : (s.modSlot n f).rget k = s.rget k := rfl
@[simp] theorem State.modSlot_fget (n : Nat) (f : Slot → Slot) (g : Fld) : (s.modSlot n f).fget g = s.fget g := rfl
@[simp] theorem State.modSlot_flag (n : Nat) (f : Slot → Slot) (g : Fld) : (s.modSlot n f).flag g = s.flag g := rfl
@[simp] theorem State.modBox_rget (b : Nat) (f : Box → Box) (k : Nat) : (s.modBox b f).rget k = s.rget k := rfl
@[simp] theorem State.modBox_fget (b : Nat) (f : Box → Box) (g : Fld) : (s.modBox b f).fget g = s.fget g := rfl
@[simp] theorem State.modBox_flag (b : Nat) (f : Box → Box) (g : Fld) : (s.modBox b f).flag g = s.flag g := rfl
@[simp] theorem State.modHeath_rget (f : Heath → Heath) (k : Nat) : (s.modHeath f).rget k = s.rget k := rfl
@[simp] theorem State.modHeath_fget (f : Heath → Heath) (g : Fld) : (s.modHeath f).fget g = s.fget g := rfl
@[simp] theorem State.modHeath_flag (f : Heath → Heath) (g : Fld) : (s.modHeath f).flag g = s.flag g := rfl
@[simp] theorem State.modJobs_rget (f : Jobs → Jobs) (k : Nat) : (s.modJobs f).rget k = s.rget k := rfl
@[simp] theorem State.modJobs_fget (f : Jobs → Jobs) (g : Fld) : (s.modJobs f).fget g = s.fget g := rfl
@[simp] theorem State.modJobs_flag (f : Jobs → Jobs) (g : Fld) : (s.modJobs f).flag g = s.flag g := rfl
@[simp] theorem State.modRing_rget (r : Nat) (f : JobRing → JobRing) (k : Nat) : (s.modRing r f).rget k = s.rget k := rfl
@[simp] theorem State.modRing_fget (r : Nat) (f : JobRing → JobRing) (g : Fld) : (s.modRing r f).fget g = s.fget g := rfl
@[simp] theorem State.modRing_flag (r : Nat) (f : JobRing → JobRing) (g : Fld) : (s.modRing r f).flag g = s.flag g := rfl
@[simp] theorem State.modCasPort_rget (n : Nat) (f : CasPort → CasPort) (k : Nat) : (s.modCasPort n f).rget k = s.rget k := rfl
@[simp] theorem State.modCasPort_fget (n : Nat) (f : CasPort → CasPort) (g : Fld) : (s.modCasPort n f).fget g = s.fget g := rfl
@[simp] theorem State.modCasPort_flag (n : Nat) (f : CasPort → CasPort) (g : Fld) : (s.modCasPort n f).flag g = s.flag g := rfl

end Sys2Proof.Machine
end

