-- ==== Sys2Proof/Laws/Memory.lean ====
section
/-! SUPPORT. The addressed memories: every operation that writes one keeps its canonical form, and a read sees the last write. -/

namespace Sys2Proof.Machine

/-- The form of the four memories, one fact a memory. -/
theorem Memory.wf_iff (s : State) :
    Memory.wf s = true ↔ SMap.wf hbmDefault s.hbm = true ∧ SMap.wf swdDefault s.swd = true ∧
      SMap.wf norDefault s.nor = true ∧ SMap.wf emmcDefault s.emmc = true := by
  simp [Memory.wf, and_assoc]

/-- The form rests on the four memories alone. -/
theorem Memory.wf_of_same {s t : State} (h : t.hbm = s.hbm) (hs : t.swd = s.swd) (hn : t.nor = s.nor) (he : t.emmc = s.emmc) :
    Memory.wf t = Memory.wf s := by
  simp [Memory.wf, h, hs, hn, he]

theorem Memory.wf_reset : Memory.wf State.reset = true := by decide

/-- A write to HBM keeps the form. -/
theorem Memory.wf_hbmWrite (s : State) (a : Nat) (bs : List Byte) (h : Memory.wf s = true) : Memory.wf (s.hbmWrite a bs) = true := by
  rw [Memory.wf_iff] at *
  exact ⟨SMap.wf_setVia _ _ _ _ _ h.1, h.2⟩

/-- What is written to HBM reads back, where each byte has a place of its own. -/
theorem hbmRead_hbmWrite (s : State) (a : Nat) (bs : List Byte) (h : s.ownPlaces a bs.length) :
    (s.hbmWrite a bs).hbmRead a bs.length = bs :=
  SMap.getVia_setVia_same _ _ _ _ _ h

/-- A write to HBM leaves the bytes at every other place of it alone. -/
theorem hbmRead_hbmWrite_apart (s : State) (a b n : Nat) (bs : List Byte) (h : s.apartPlaces a bs.length b n) :
    (s.hbmWrite a bs).hbmRead b n = s.hbmRead b n :=
  SMap.getVia_setVia_apart _ _ _ _ _ _ _ h

@[simp] theorem length_hbmRead (s : State) (a n : Nat) : (s.hbmRead a n).length = n := SMap.length_getVia ..

/-- A loop of steps that each keep a property keeps it. -/
theorem forBelow_keeps {σ : Type} (p : σ → Prop) (f : Nat → σ → σ) (hf : ∀ i x, p x → p (f i x)) (k : Nat) (x : σ) (h : p x) :
    p (forBelow k f x) := by
  unfold forBelow
  induction List.range k generalizing x with
  | nil => exact h
  | cons i l ih => exact ih _ (hf i x h)

/-- An access opens rows and changes nothing else (R313). -/
theorem touch_frame (s : State) (a n : Nat) : s.touch a n = { s with mem := { s.mem with openRows := s.rowsAfter a n } } := rfl

@[simp] theorem touch_regs (s : State) (a n : Nat) : (s.touch a n).regs = s.regs := rfl
@[simp] theorem touch_hbm (s : State) (a n : Nat) : (s.touch a n).hbm = s.hbm := rfl
@[simp] theorem touch_swd (s : State) (a n : Nat) : (s.touch a n).swd = s.swd := rfl
@[simp] theorem touch_nor (s : State) (a n : Nat) : (s.touch a n).nor = s.nor := rfl
@[simp] theorem touch_emmc (s : State) (a n : Nat) : (s.touch a n).emmc = s.emmc := rfl
@[simp] theorem touch_pending (s : State) (a n : Nat) : (s.touch a n).pending = s.pending := rfl

/-- A write within named regions stores its bytes and opens rows; outside them it counts RANGE and stores nothing (R316). -/
theorem writeIn_frame (s : State) (rs : List Nat) (a : Nat) (bs : List Byte) :
    (s.inRegions rs a bs.length = true → s.writeIn rs a bs =
      { s.hbmWrite a bs with mem := { s.mem with openRows := s.rowsAfter a bs.length } }) ∧
    (s.inRegions rs a bs.length = false → s.writeIn rs a bs = s.fadd F.MEM_ECC_CNT_RANGE 1) := by
  unfold State.writeIn
  constructor <;> intro h <;> simp only [h, if_true, Bool.false_eq_true, if_false]
  rfl

/-- A write within named regions keeps the form. -/
theorem Memory.wf_writeIn (s : State) (rs : List Nat) (a : Nat) (bs : List Byte) (h : Memory.wf s = true) :
    Memory.wf (s.writeIn rs a bs) = true := by
  cases hr : s.inRegions rs a bs.length
  · rw [(writeIn_frame s rs a bs).2 hr]
    exact h
  · rw [(writeIn_frame s rs a bs).1 hr]
    exact Memory.wf_hbmWrite s a bs h

/-- A client's write keeps the form (R316). -/
theorem Memory.wf_clientWrite (s : State) (c : Client) (a : Nat) (bs : List Byte) (h : Memory.wf s = true) :
    Memory.wf (s.clientWrite c a bs) = true := Memory.wf_writeIn s c.writes a bs h

/-- A write to the eMMC keeps the form. -/
theorem Memory.wf_emmcWrite (s : State) (a : Nat) (bs : List Byte) (h : Memory.wf s = true) : Memory.wf (s.emmcWrite a bs) = true := by
  rw [Memory.wf_iff] at *
  exact ⟨h.1, h.2.1, h.2.2.1, SMap.wf_setMany _ _ _ _ h.2.2.2⟩

/-- What is written to the eMMC reads back. -/
theorem emmcRead_emmcWrite (s : State) (a : Nat) (bs : List Byte) : (s.emmcWrite a bs).emmcRead a bs.length = bs :=
  SMap.getMany_setMany_same ..

/-- A write to the eMMC leaves every other byte of it alone. -/
theorem emmcRead_emmcWrite_apart (s : State) (a b n : Nat) (bs : List Byte) (h : b + n ≤ a ∨ a + bs.length ≤ b) :
    (s.emmcWrite a bs).emmcRead b n = s.emmcRead b n :=
  SMap.getMany_setMany_apart _ _ _ _ _ _ h

/-- A write to the boot NOR keeps the form. -/
theorem Memory.wf_norWrite (s : State) (a : Nat) (bs : List Byte) (h : Memory.wf s = true) : Memory.wf (s.norWrite a bs) = true := by
  rw [Memory.wf_iff] at *
  exact ⟨h.1, h.2.1, SMap.wf_setMany _ _ _ _ h.2.2.1, h.2.2.2⟩

/-- What is written to the boot NOR reads back. -/
theorem norRead_norWrite (s : State) (a : Nat) (bs : List Byte) : (s.norWrite a bs).norRead a bs.length = bs :=
  SMap.getMany_setMany_same ..

/-- A write of image data keeps the form. -/
theorem Memory.wf_mediaWrite (s : State) (target a : Nat) (bs : List Byte) (h : Memory.wf s = true) :
    Memory.wf (s.mediaWrite target a bs) = true := by
  unfold State.mediaWrite
  split
  · exact Memory.wf_norWrite s a bs h
  · exact Memory.wf_emmcWrite s a bs h

/-- The erase before an image write keeps the form. -/
theorem Memory.wf_eraseTarget (s : State) (target a : Nat) (h : Memory.wf s = true) : Memory.wf (s.eraseTarget target a) = true := by
  unfold State.eraseTarget
  split
  · rw [Memory.wf_iff] at *
    exact ⟨h.1, h.2.1, SMap.wf_keep _ (fun x => decide (x < a) || decide (a + 0x2000000 ≤ x)) _ h.2.2.1, h.2.2.2⟩
  · exact Memory.wf_emmcWrite s a _ h

/-- Clearing the ledger keeps the form. -/
theorem Memory.wf_ledgerClear (s : State) (h : Memory.wf s = true) : Memory.wf s.ledgerClear = true := by
  unfold State.ledgerClear
  dsimp only
  split
  · rw [Memory.wf_iff] at *
    exact ⟨SMap.wf_keep _ (fun q => !placedIn s.mapMasks (s.ledgerRow 0) (s.ledgerRow 0 + 17280 * 61440) q) _ h.1, h.2⟩
  · exact forBelow_keeps (fun t => Memory.wf t = true) _ (fun i t ht => Memory.wf_writeIn t [2] _ _ ht) _ _ h

/-- A job's write, to HBM or to the Heath data area, keeps the form (R356). -/
theorem Memory.wf_jobWrite (s : State) (a : Nat) (bs : List Byte) (h : Memory.wf s = true) : Memory.wf (s.jobWrite a bs).2 = true := by
  unfold State.jobWrite
  split
  · split
    · rw [Memory.wf_iff] at *
      exact ⟨h.1, SMap.wf_setMany _ _ _ _ h.2.1, h.2.2⟩
    · exact h
  · exact Memory.wf_clientWrite s _ a bs h

/-- Losing HBM and the Heath data area keeps the form. -/
theorem Memory.wf_lose (s : State) (h : Memory.wf s = true) : Memory.wf { s with hbm := [], swd := [] } = true := by
  rw [Memory.wf_iff] at *
  exact ⟨rfl, rfl, h.2.2⟩

end Sys2Proof.Machine
end

