-- ==== Sys2Proof/Laws/Registers.lean ====
section
/-! SUPPORT. What the register operations do: a field read after a field write, and the registers' canonical form. -/

namespace Sys2Proof.Machine

/-! Bit fields. -/

theorem testBit_bitsOf (v hi lo i : Nat) : (bitsOf v hi lo).testBit i = (decide (i < hi + 1 - lo) && v.testBit (lo + i)) := by
  simp [bitsOf, Nat.testBit_mod_two_pow, Nat.testBit_shiftRight]

/-- A number with a field replaced, by its part above the field, the field and its part below. -/
theorem putBits_eq (v hi lo n : Nat) :
    putBits v hi lo n = 2 ^ lo * (2 ^ (hi + 1 - lo) * (v / 2 ^ lo / 2 ^ (hi + 1 - lo)) + n % 2 ^ (hi + 1 - lo)) + v % 2 ^ lo := by
  have h1 := Nat.div_add_mod v (2 ^ lo)
  have h2 := Nat.div_add_mod (v / 2 ^ lo) (2 ^ (hi + 1 - lo))
  unfold putBits bitsOf
  rw [Nat.shiftRight_eq_div_pow]
  generalize hq : v / 2 ^ lo = q at *
  generalize hr : v % 2 ^ lo = r at *
  generalize hm : q % 2 ^ (hi + 1 - lo) = m at *
  generalize q / 2 ^ (hi + 1 - lo) = p at *
  generalize n % 2 ^ (hi + 1 - lo) = k at *
  rw [← h1, ← h2, Nat.mul_add, Nat.mul_add, Nat.mul_comm m, Nat.mul_comm k]
  omega

theorem testBit_putBits (v hi lo n i : Nat) (h : lo ≤ hi) :
    (putBits v hi lo n).testBit i = if lo ≤ i ∧ i ≤ hi then n.testBit (i - lo) else v.testBit i := by
  rw [putBits_eq, Nat.testBit_two_pow_mul_add _ (Nat.mod_lt _ (Nat.two_pow_pos lo)),
    Nat.testBit_two_pow_mul_add _ (Nat.mod_lt _ (Nat.two_pow_pos _))]
  by_cases h1 : i < lo
  · simp [h1, Nat.testBit_mod_two_pow, show ¬ lo ≤ i by omega]
  · by_cases h2 : i ≤ hi
    · simp [h1, h2, Nat.testBit_mod_two_pow, show lo ≤ i by omega, show i - lo < hi + 1 - lo by omega]
    · have h3 : ¬ i - lo < hi + 1 - lo := by omega
      simp only [h1, h2, h3, if_false, and_false, ← Nat.shiftRight_eq_div_pow, Nat.testBit_shiftRight]
      congr 1
      omega

/-- The field written reads as written. -/
theorem bitsOf_putBits_same (v hi lo n : Nat) (h : lo ≤ hi) : bitsOf (putBits v hi lo n) hi lo = n % 2 ^ (hi + 1 - lo) := by
  apply Nat.eq_of_testBit_eq
  intro i
  rw [testBit_bitsOf, testBit_putBits _ _ _ _ _ h, Nat.testBit_mod_two_pow]
  by_cases hi' : i < hi + 1 - lo
  · simp [hi', show lo + i ≤ hi by omega]
  · simp [hi']

/-- A field apart from the one written reads as before. -/
theorem bitsOf_putBits_apart (v hi lo n hi' lo' : Nat) (h : lo ≤ hi) (ha : hi' < lo ∨ hi < lo') :
    bitsOf (putBits v hi lo n) hi' lo' = bitsOf v hi' lo' := by
  apply Nat.eq_of_testBit_eq
  intro i
  rw [testBit_bitsOf, testBit_bitsOf]
  by_cases hi2 : i < hi' + 1 - lo'
  · rw [testBit_putBits _ _ _ _ _ h, if_neg (by omega)]
  · simp [hi2]

/-- A field within the register's 32 bits survives the truncation. -/
theorem bitsOf_mod32 (v hi lo : Nat) (h : hi < 32) : bitsOf (v % 2 ^ 32) hi lo = bitsOf v hi lo := by
  apply Nat.eq_of_testBit_eq
  intro i
  rw [testBit_bitsOf, testBit_bitsOf, Nat.testBit_mod_two_pow]
  by_cases hi2 : i < hi + 1 - lo
  · simp [hi2, show lo + i < 32 by omega]
  · simp [hi2]

theorem bitsOf_lt (v hi lo : Nat) : bitsOf v hi lo < 2 ^ (hi + 1 - lo) := Nat.mod_lt _ (Nat.two_pow_pos _)

/-! Registers. -/

/-- A register reads as written. -/
theorem rget_rset_same (s : State) (a : Nat) (v : W32) : (s.rset a v).rget a = v := SMap.get_set_same ..

/-- Another register reads as before. -/
theorem rget_rset_other (s : State) {a b : Nat} (v : W32) (h : a ≠ b) : (s.rset a v).rget b = s.rget b :=
  SMap.get_set_other _ _ _ h

/-- A write keeps the registers' canonical form. -/
theorem regs_wf_rset (s : State) (a : Nat) (v : W32) (h : SMap.wf regReset s.regs = true) :
    SMap.wf regReset (s.rset a v).regs = true := SMap.wf_set _ _ _ _ h

/-- A field of the layout: its bits lie within the register's 32. -/
def Fld.ok (f : Fld) : Prop := f.lo ≤ f.hi ∧ f.hi < 32

/-- The field set reads as set, to its width. -/
theorem fget_fset_same (s : State) (f : Fld) (n : Nat) (h : f.ok) : (s.fset f n).fget f = n % 2 ^ (f.hi + 1 - f.lo) := by
  unfold State.fget State.fset
  rw [rget_rset_same, BitVec.toNat_ofNat, bitsOf_mod32 _ _ _ h.2, bitsOf_putBits_same _ _ _ _ h.1]

/-- A field of another register, or apart in the same one, reads as before. -/
theorem fget_fset_other (s : State) (f g : Fld) (n : Nat) (hf : f.ok) (hg : g.ok)
    (h : f.addr ≠ g.addr ∨ g.hi < f.lo ∨ f.hi < g.lo) : (s.fset f n).fget g = s.fget g := by
  unfold State.fget State.fset
  by_cases ha : f.addr = g.addr
  · rw [ha, rget_rset_same, BitVec.toNat_ofNat, bitsOf_mod32 _ _ _ hg.2]
    exact bitsOf_putBits_apart _ _ _ _ _ _ hf.1 (h.resolve_left (fun k => k ha))
  · rw [rget_rset_other _ _ ha]

theorem fget_rset_other (s : State) (a : Nat) (v : W32) (g : Fld) (h : a ≠ g.addr) : (s.rset a v).fget g = s.fget g := by
  unfold State.fget
  rw [rget_rset_other _ _ h]

theorem rget_fset_other (s : State) (f : Fld) (n a : Nat) (h : f.addr ≠ a) : (s.fset f n).rget a = s.rget a :=
  rget_rset_other _ _ h

/-- A one-bit field put reads as put. -/
theorem flag_fput_same (s : State) (f : Fld) (b : Bool) (h : f.ok) : (s.fput f b).flag f = b := by
  unfold State.flag State.fput
  rw [fget_fset_same _ _ _ h]
  have h2 : 2 ^ (f.hi + 1 - f.lo) = 2 * 2 ^ (f.hi - f.lo) := by
    rw [show f.hi + 1 - f.lo = f.hi - f.lo + 1 by have := h.1; omega, Nat.pow_succ, Nat.mul_comm]
  have h3 := Nat.two_pow_pos (f.hi - f.lo)
  cases b with
  | false => simp [b2n]
  | true =>
    rw [h2, show b2n true = 1 from rfl, Nat.mod_eq_of_lt (by omega)]
    rfl

theorem flag_fput_other (s : State) (f g : Fld) (b : Bool) (hf : f.ok) (hg : g.ok)
    (h : f.addr ≠ g.addr ∨ g.hi < f.lo ∨ f.hi < g.lo) : (s.fput f b).flag g = s.flag g := by
  unfold State.flag State.fput
  rw [fget_fset_other _ _ _ _ hf hg h]

/-- What a change of a field by hardware leaves in the registers: the field set. -/
theorem fget_fbump (s : State) (f g : Fld) (h : Nat → Nat) : (s.fbump f h).fget g = (s.fset f (h (s.fget f))).fget g := rfl

theorem rget_fbump_other (s : State) (f : Fld) (g : Nat → Nat) (a : Nat) (h : f.addr ≠ a) : (s.fbump f g).rget a = s.rget a :=
  rget_rset_other s (BitVec.ofNat 32 (putBits (s.rget f.addr).toNat f.hi f.lo (g (s.fget f)))) h

/-- A count adds and saturates at the top of its field. -/
theorem fget_fadd_same (s : State) (f : Fld) (n : Nat) (h : f.ok) :
    (s.fadd f n).fget f = min (s.fget f + n) (2 ^ (f.hi + 1 - f.lo) - 1) := by
  unfold State.fadd
  rw [fget_fbump, fget_fset_same _ _ _ h]
  have hp := Nat.two_pow_pos (f.hi + 1 - f.lo)
  have hl : s.fget f < 2 ^ (f.hi + 1 - f.lo) := bitsOf_lt ..
  unfold satAdd
  split
  · rw [Nat.mod_eq_of_lt (by omega)]; omega
  · rw [Nat.mod_eq_of_lt (by omega)]; omega

theorem fget_fadd_other (s : State) (f g : Fld) (n : Nat) (hf : f.ok) (hg : g.ok)
    (h : f.addr ≠ g.addr ∨ g.hi < f.lo ∨ f.hi < g.lo) : (s.fadd f n).fget g = s.fget g :=
  (fget_fbump _ _ _ _).trans (fget_fset_other _ _ _ _ hf hg h)

/-- What hardware sets in a W1C register is set, and the rest stays; a clear in the same cycle leaves it set (R11). -/
theorem rget_wset_same (s : State) (a m : Nat) : (s.wset a m).rget a = s.rget a ||| BitVec.ofNat 32 m := rget_rset_same ..

theorem rget_wset_other (s : State) (a m b : Nat) (h : a ≠ b) : (s.wset a m).rget b = s.rget b := rget_rset_other s _ h

/-- Bits that hardware sets in a cycle stay set through a clear of the register in that cycle (R11). -/
theorem rget_wset_wclear (s : State) (a m : Nat) :
    ((s.wset a m).wclear a).rget a = BitVec.ofNat 32 (SMap.get (fun _ => 0) s.cyc.sets a ||| m) := by
  unfold State.wclear
  rw [rget_rset_same]
  exact congrArg _ (SMap.get_put_same ..)

theorem fget_lt (s : State) (f : Fld) : s.fget f < 2 ^ (f.hi + 1 - f.lo) := bitsOf_lt ..

end Sys2Proof.Machine
end

