-- ==== Sys2Proof/Laws/Events.lean ====
section
/-! SUPPORT. What raising an event source, queuing a record and a client's read can change, said once (R270, R316, R351, R352). -/

namespace Sys2Proof.Machine

/-! Fixed sets of like things keep their number. -/

@[simp] theorem length_modNth {α : Type} (l : List α) (i : Nat) (f : α → α) : (modNth l i f).length = l.length := List.length_modify ..

@[simp] theorem length_setNth {α : Type} (l : List α) (i : Nat) (v : α) : (setNth l i v).length = l.length := List.length_set ..

/-- The element changed. -/
theorem getElem?_modNth_same {α : Type} (l : List α) (i : Nat) (f : α → α) : (modNth l i f)[i]? = l[i]?.map f := by
  simp [modNth]

/-- Another element stands. -/
theorem getElem?_modNth_other {α : Type} (l : List α) {i j : Nat} (f : α → α) (h : i ≠ j) : (modNth l i f)[j]? = l[j]? := by
  simp [modNth, h]

/-! Records (R270). -/

/-- A record queued on one attachment changes that attachment's queue, or the count of records lost, and nothing else. -/
theorem queueOn_frame (s : State) (i : Nat) (r : EvRec) :
    s.queueOn i r = { s with regs := (s.queueOn i r).regs, cyc := (s.queueOn i r).cyc,
                             ses := { s.ses with atts := (s.queueOn i r).ses.atts } } ∧
    (∀ a, a ≠ R.SES_EVT_LOST → (s.queueOn i r).rget a = s.rget a) ∧
    (s.queueOn i r).ses.atts.length = s.ses.atts.length ∧
    (SMap.wf regReset s.regs = true → SMap.wf regReset (s.queueOn i r).regs = true) := by
  unfold State.queueOn
  split
  · exact ⟨rfl, fun _ _ => rfl, rfl, id⟩
  · split
    · exact ⟨rfl, fun a h => rget_fbump_other _ _ _ _ (fun e => h e.symm), rfl, regs_wf_rset _ _ _⟩
    · exact ⟨rfl, fun _ _ => rfl, length_modNth .., id⟩

/-- A record queued on every KEYED attachment changes queues and the count of records lost, and nothing else. -/
theorem queueAll_frame (s : State) (r : EvRec) :
    s.queueAll r = { s with regs := (s.queueAll r).regs, cyc := (s.queueAll r).cyc,
                            ses := { s.ses with atts := (s.queueAll r).ses.atts } } ∧
    (∀ a, a ≠ R.SES_EVT_LOST → (s.queueAll r).rget a = s.rget a) ∧
    (s.queueAll r).ses.atts.length = s.ses.atts.length ∧
    (SMap.wf regReset s.regs = true → SMap.wf regReset (s.queueAll r).regs = true) := by
  unfold State.queueAll
  apply forBelow_keeps (fun t : State => t = { s with regs := t.regs, cyc := t.cyc, ses := { s.ses with atts := t.ses.atts } } ∧
    (∀ a, a ≠ R.SES_EVT_LOST → t.rget a = s.rget a) ∧ t.ses.atts.length = s.ses.atts.length ∧
    (SMap.wf regReset s.regs = true → SMap.wf regReset t.regs = true))
  · intro i t ht
    split
    · obtain ⟨h1, h2, h3, h4⟩ := queueOn_frame t i r
      refine ⟨?_, fun a ha => (h2 a ha).trans (ht.2.1 a ha), h3.trans ht.2.2.1, fun h => h4 (ht.2.2.2 h)⟩
      generalize t.queueOn i r = u at *
      rw [h1, ht.1]
    · exact ht
  · exact ⟨rfl, fun _ _ => rfl, rfl, id⟩

/-! Raising a source (R351, R352). -/

/-- A source marked changes its pending bit, overflow and count, and nothing else (R351). -/
theorem markEvt_frame (s : State) (n : Nat) :
    s.markEvt n = { s with regs := (s.markEvt n).regs, cyc := (s.markEvt n).cyc } ∧
    s.regsBut (s.markEvt n) [R.EVT_PEND (n / 32), R.EVT_OVF (n / 32), R.EVT_COUNT n] ∧
    (SMap.wf regReset s.regs = true → SMap.wf regReset (s.markEvt n).regs = true) := by
  unfold State.markEvt
  dsimp only
  split
  · refine ⟨by simp only [State.fadd, State.fbump, State.fset, State.wset, State.rset], fun a ha => ?_, fun h =>
      regs_wf_rset _ _ _ (regs_wf_rset _ _ _ (regs_wf_rset _ _ _ h))⟩
    simp only [List.mem_cons, List.not_mem_nil, or_false, not_or] at ha
    exact (rget_fbump_other _ _ _ _ (fun e => ha.2.2 e.symm)).trans ((rget_wset_other _ _ _ _ (fun e => ha.2.1 e.symm)).trans
      (rget_wset_other _ _ _ _ (fun e => ha.1 e.symm)))
  · refine ⟨by simp only [State.fadd, State.fbump, State.fset, State.wset, State.rset], fun a ha => ?_, fun h =>
      regs_wf_rset _ _ _ (regs_wf_rset _ _ _ h)⟩
    simp only [List.mem_cons, List.not_mem_nil, or_false, not_or] at ha
    exact (rget_fbump_other _ _ _ _ (fun e => ha.2.2 e.symm)).trans (rget_wset_other _ _ _ _ (fun e => ha.1 e.symm))

/-- Raising a source changes its registers, the count of records lost, the queues and the turn's counts, and nothing else. -/
theorem raise_frame (s : State) (n : Nat) :
    s.raise n = { s with regs := (s.raise n).regs, cyc := (s.raise n).cyc,
                         ses := { s.ses with atts := (s.raise n).ses.atts }, evtTurn := modNth s.evtTurn n (· + 1) } ∧
    s.regsBut (s.raise n) (evtRegs n) ∧
    (s.raise n).ses.atts.length = s.ses.atts.length ∧
    (SMap.wf regReset s.regs = true → SMap.wf regReset (s.raise n).regs = true) := by
  unfold State.raise
  dsimp only
  obtain ⟨k1, k2, k3⟩ := markEvt_frame s n
  generalize s.markEvt n = s2 at *
  have k4 : s2.evtTurn = s.evtTurn ∧ s2.ses = s.ses := by rw [k1]; exact ⟨rfl, rfl⟩
  have k5 : s.regsBut s2 (evtRegs n) := fun a ha => k2 a (fun h => ha (by
    simp only [evtRegs, List.mem_cons, List.not_mem_nil, or_false] at h ⊢
    rcases h with h | h | h <;> simp [h]))
  split
  · obtain ⟨q1, q2, q3, q4⟩ := queueAll_frame { s2 with evtTurn := modNth s2.evtTurn n (· + 1) } (.device n s2.lyr.turn)
    refine ⟨?_, fun a ha => (q2 a ?_).trans (k5 a ha), q3.trans (by rw [k4.2]), fun h => q4 (k3 h)⟩
    · generalize State.queueAll _ _ = u at *
      rw [q1, k4.1, k4.2, k1]
    · simp only [evtRegs, List.mem_cons, List.not_mem_nil, or_false, not_or] at ha
      exact ha.2.2.2
  · refine ⟨?_, k5, by rw [k4.2], k3⟩
    rw [k4.1, k1]

@[simp] theorem raise_pending (s : State) (n : Nat) : (s.raise n).pending = s.pending := by rw [(raise_frame s n).1]
@[simp] theorem raise_snaps (s : State) (n : Nat) : (s.raise n).snaps = s.snaps := by rw [(raise_frame s n).1]
@[simp] theorem raise_rdata (s : State) (n : Nat) : (s.raise n).rdata = s.rdata := by rw [(raise_frame s n).1]
@[simp] theorem raise_i2cOut (s : State) (n : Nat) : (s.raise n).i2cOut = s.i2cOut := by rw [(raise_frame s n).1]
@[simp] theorem raise_i2cNack (s : State) (n : Nat) : (s.raise n).i2cNack = s.i2cNack := by rw [(raise_frame s n).1]
@[simp] theorem raise_free (s : State) (n : Nat) : (s.raise n).free = s.free := by rw [(raise_frame s n).1]
@[simp] theorem raise_time (s : State) (n : Nat) : (s.raise n).time = s.time := by rw [(raise_frame s n).1]
@[simp] theorem raise_probe (s : State) (n : Nat) : (s.raise n).probe = s.probe := by rw [(raise_frame s n).1]
@[simp] theorem raise_coef0 (s : State) (n : Nat) : (s.raise n).coef0 = s.coef0 := by rw [(raise_frame s n).1]
@[simp] theorem raise_coef1 (s : State) (n : Nat) : (s.raise n).coef1 = s.coef1 := by rw [(raise_frame s n).1]
@[simp] theorem raise_lut0 (s : State) (n : Nat) : (s.raise n).lut0 = s.lut0 := by rw [(raise_frame s n).1]
@[simp] theorem raise_lut1 (s : State) (n : Nat) : (s.raise n).lut1 = s.lut1 := by rw [(raise_frame s n).1]
@[simp] theorem raise_slots (s : State) (n : Nat) : (s.raise n).slots = s.slots := by rw [(raise_frame s n).1]
@[simp] theorem raise_asms (s : State) (n : Nat) : (s.raise n).asms = s.asms := by rw [(raise_frame s n).1]
@[simp] theorem raise_asmSeq (s : State) (n : Nat) : (s.raise n).asmSeq = s.asmSeq := by rw [(raise_frame s n).1]
@[simp] theorem raise_owed (s : State) (n : Nat) : (s.raise n).owed = s.owed := by rw [(raise_frame s n).1]
@[simp] theorem raise_lyr (s : State) (n : Nat) : (s.raise n).lyr = s.lyr := by rw [(raise_frame s n).1]
@[simp] theorem raise_syn (s : State) (n : Nat) : (s.raise n).syn = s.syn := by rw [(raise_frame s n).1]
@[simp] theorem raise_tab (s : State) (n : Nat) : (s.raise n).tab = s.tab := by rw [(raise_frame s n).1]
@[simp] theorem raise_drv (s : State) (n : Nat) : (s.raise n).drv = s.drv := by rw [(raise_frame s n).1]
@[simp] theorem raise_hbm (s : State) (n : Nat) : (s.raise n).hbm = s.hbm := by rw [(raise_frame s n).1]
@[simp] theorem raise_swd (s : State) (n : Nat) : (s.raise n).swd = s.swd := by rw [(raise_frame s n).1]
@[simp] theorem raise_tsets (s : State) (n : Nat) : (s.raise n).tsets = s.tsets := by rw [(raise_frame s n).1]
@[simp] theorem raise_codeTabs (s : State) (n : Nat) : (s.raise n).codeTabs = s.codeTabs := by rw [(raise_frame s n).1]
@[simp] theorem raise_ports (s : State) (n : Nat) : (s.raise n).ports = s.ports := by rw [(raise_frame s n).1]
@[simp] theorem raise_cas (s : State) (n : Nat) : (s.raise n).cas = s.cas := by rw [(raise_frame s n).1]
@[simp] theorem raise_tim (s : State) (n : Nat) : (s.raise n).tim = s.tim := by rw [(raise_frame s n).1]
@[simp] theorem raise_pl (s : State) (n : Nat) : (s.raise n).pl = s.pl := by rw [(raise_frame s n).1]
@[simp] theorem raise_pwd (s : State) (n : Nat) : (s.raise n).pwd = s.pwd := by rw [(raise_frame s n).1]
@[simp] theorem raise_mem (s : State) (n : Nat) : (s.raise n).mem = s.mem := by rw [(raise_frame s n).1]
@[simp] theorem raise_cal (s : State) (n : Nat) : (s.raise n).cal = s.cal := by rw [(raise_frame s n).1]
@[simp] theorem raise_pwr (s : State) (n : Nat) : (s.raise n).pwr = s.pwr := by rw [(raise_frame s n).1]
@[simp] theorem raise_tap (s : State) (n : Nat) : (s.raise n).tap = s.tap := by rw [(raise_frame s n).1]
@[simp] theorem raise_boxes (s : State) (n : Nat) : (s.raise n).boxes = s.boxes := by rw [(raise_frame s n).1]
@[simp] theorem raise_heath (s : State) (n : Nat) : (s.raise n).heath = s.heath := by rw [(raise_frame s n).1]
@[simp] theorem raise_jobs (s : State) (n : Nat) : (s.raise n).jobs = s.jobs := by rw [(raise_frame s n).1]
@[simp] theorem raise_straps (s : State) (n : Nat) : (s.raise n).straps = s.straps := by rw [(raise_frame s n).1]
@[simp] theorem raise_fuses (s : State) (n : Nat) : (s.raise n).fuses = s.fuses := by rw [(raise_frame s n).1]
@[simp] theorem raise_img (s : State) (n : Nat) : (s.raise n).img = s.img := by rw [(raise_frame s n).1]
@[simp] theorem raise_boot (s : State) (n : Nat) : (s.raise n).boot = s.boot := by rw [(raise_frame s n).1]
@[simp] theorem raise_nor (s : State) (n : Nat) : (s.raise n).nor = s.nor := by rw [(raise_frame s n).1]
@[simp] theorem raise_emmc (s : State) (n : Nat) : (s.raise n).emmc = s.emmc := by rw [(raise_frame s n).1]
@[simp] theorem raise_evtTurn (s : State) (n : Nat) : (s.raise n).evtTurn = modNth s.evtTurn n (· + 1) := by
  rw [(raise_frame s n).1]

/-- The form of the memories stands. -/
theorem Memory.wf_raise (s : State) (n : Nat) (h : Memory.wf s = true) : Memory.wf (s.raise n) = true := by
  rw [Memory.wf_of_same (s := s) (by simp) (by simp) (by simp) (by simp)]
  exact h

/-- Queuing a record changes no register but the count of records lost. -/
theorem rget_queueAll (s : State) (r : EvRec) (a : Nat) (h : a ≠ R.SES_EVT_LOST) : (s.queueAll r).rget a = s.rget a :=
  (queueAll_frame s r).2.1 a h

/-- Raising a source sets its pending bit and no other of its register (R351). -/
theorem rget_pend_raise (s : State) (n : Nat) (h : n < 64) : (s.raise n).rget (R.EVT_PEND (n / 32)) =
    s.rget (R.EVT_PEND (n / 32)) ||| BitVec.ofNat 32 (2 ^ (n % 32)) := by
  have ha : ∀ m < 64, R.EVT_PEND (m / 32) ≠ R.SES_EVT_LOST ∧ R.EVT_OVF (m / 32) ≠ R.EVT_PEND (m / 32) ∧
      R.EVT_COUNT m ≠ R.EVT_PEND (m / 32) := by decide
  obtain ⟨h1, h2, h3⟩ := ha n h
  have k : (s.markEvt n).rget (R.EVT_PEND (n / 32)) = s.rget (R.EVT_PEND (n / 32)) ||| BitVec.ofNat 32 (2 ^ (n % 32)) := by
    unfold State.markEvt
    dsimp only
    split
    · exact (rget_fbump_other _ _ _ _ h3).trans ((rget_wset_other _ _ _ _ h2).trans (rget_wset_same ..))
    · exact (rget_fbump_other _ _ _ _ h3).trans (rget_wset_same ..)
  unfold State.raise
  dsimp only
  split
  · exact (rget_queueAll _ _ _ h1).trans k
  · exact k

/-- A source that is raised is pending. -/
theorem raise_pendingEvt (s : State) (n : Nat) (h : n < 64) : (s.raise n).pendingEvt n = true := by
  unfold State.pendingEvt
  rw [rget_pend_raise s n h, BitVec.toNat_or, BitVec.toNat_ofNat]
  have hn : n % 32 < 32 := Nat.mod_lt _ (by decide)
  unfold bitOf
  rw [Nat.testBit_or, Nat.testBit_mod_two_pow, Nat.testBit_two_pow_self]
  simp [hn]

/-- A source raised leaves another pending as it was (R351). -/
theorem pendingEvt_raise_other (s : State) (n m : Nat) (hn : n < 64) (hm : m < 64) (h : n ≠ m) :
    (s.raise n).pendingEvt m = s.pendingEvt m := by
  unfold State.pendingEvt
  by_cases hw : m / 32 = n / 32
  · rw [hw, rget_pend_raise s n hn, BitVec.toNat_or, BitVec.toNat_ofNat]
    unfold bitOf
    rw [Nat.testBit_or, Nat.testBit_mod_two_pow, Nat.testBit_two_pow]
    have : ¬ n % 32 = m % 32 := by omega
    simp [this]
  · have hk : ∀ i < 2, ∀ j < 2, ∀ k < 64, i = j ∨ R.EVT_PEND i ∉ [R.EVT_PEND j, R.EVT_OVF j, R.EVT_COUNT k, R.SES_EVT_LOST] := by decide
    rw [(raise_frame s n).2.1 _ ((hk _ (by omega) _ (by omega) n hn).resolve_left hw)]

/-! A client's read (R316). -/

/-- A load of registers changes registers alone. -/
theorem loads_frame (s : State) (l : List (Nat × W32)) : ∃ v, s.loads l = { s with regs := v } := by
  unfold State.loads
  induction l generalizing s with
  | nil => exact ⟨s.regs, rfl⟩
  | cons e l ih =>
    obtain ⟨v, h⟩ := ih (s.rset e.1 e.2)
    exact ⟨v, h⟩

/-- A capture changes registers, and what it keeps of the moment's captures. -/
theorem capture_frame (s : State) (f : Fld) (n : Nat) (l : List (Nat × W32)) : ∃ v q,
    s.capture f n l = { s with regs := v, caps := q } := by
  obtain ⟨v, h⟩ := loads_frame s l
  unfold State.capture
  dsimp only
  split
  · exact ⟨s.regs, s.caps, rfl⟩
  · split
    · exact ⟨v, _, by rw [h]⟩
    · exact ⟨s.regs, _, rfl⟩

/-- The capture of an uncorrectable read changes registers and what raising MEM_ECC changes. -/
theorem eccCapture_frame (s : State) (c : Client) (o : Bool) (b : Nat) : ∃ x y z q k,
    s.eccCapture c o b = { s with regs := x, ses := y, evtTurn := z, caps := q, cyc := k } := by
  obtain ⟨v, q, h⟩ := capture_frame s F.MEM_ECC_FIRST_VALID c.num
    [(R.MEM_ECC_FIRST, BitVec.ofNat 32 (2 ^ 31 + (if o then 2 ^ 30 else 0) + b / 32 % 2 ^ 30))]
  unfold State.eccCapture
  rw [h, (raise_frame _ 9).1]
  exact ⟨_, _, _, _, _, rfl⟩

/-- The rows that a list of pieces opens. -/
theorem touchAll_frame (ps : List (Nat × Nat)) (s : State) : ∃ m, ps.foldl (fun s q => s.touch q.1 q.2) s = { s with mem := m } := by
  induction ps generalizing s with
  | nil => exact ⟨s.mem, rfl⟩
  | cons q ps ih => exact (ih (s.touch q.1 q.2)).imp (fun m hm => by rw [List.foldl_cons, hm]; rfl)

/-- A client's read of pieces opens rows, and counts and captures an error; it changes no memory. -/
theorem readPieces_frame (s : State) (c : Client) (ps : List (Nat × Nat)) (e : EccResult) : ∃ x y z q f m k,
    (s.readPieces c ps e).2 = { s with regs := x, ses := y, evtTurn := z, caps := q, free := f, mem := m, cyc := k } := by
  have hc : ∀ (t : State) (o : Bool) (b : Nat), (∃ x f m k, t = { s with regs := x, free := f, mem := m, cyc := k }) →
      ∃ x y z q f m k, t.eccCapture c o b = { s with regs := x, ses := y, evtTurn := z, caps := q, free := f, mem := m, cyc := k } := by
    intro t o b h
    obtain ⟨x, f, m, k, rfl⟩ := h
    obtain ⟨x', y, z, q, k', h⟩ := eccCapture_frame { s with regs := x, free := f, mem := m, cyc := k } c o b
    exact ⟨x', y, z, q, f, m, k', h⟩
  unfold State.readPieces
  split
  · exact hc _ _ _ ⟨_, s.free, s.mem, _, rfl⟩
  · obtain ⟨m, hm⟩ := touchAll_frame ps s
    dsimp only
    rw [hm]
    split
    · exact ⟨s.regs, s.ses, s.evtTurn, s.caps, s.free, m, s.cyc, rfl⟩
    · exact ⟨_, s.ses, s.evtTurn, s.caps, s.free, m, _, rfl⟩
    · exact hc _ _ _ ⟨_, _, m, _, rfl⟩

/-- A client's read opens rows, and counts and captures an error; it changes no memory. -/
theorem clientRead_frame (s : State) (c : Client) (a n : Nat) (e : EccResult) : ∃ x y z q f m k,
    (s.clientRead c a n e).2 = { s with regs := x, ses := y, evtTurn := z, caps := q, free := f, mem := m, cyc := k } :=
  readPieces_frame s c [(a, n)] e

/-- A client's read of pieces keeps the form of the memories. -/
theorem Memory.wf_readPieces (s : State) (c : Client) (ps : List (Nat × Nat)) (e : EccResult) (h : Memory.wf s = true) :
    Memory.wf (s.readPieces c ps e).2 = true := by
  obtain ⟨x, y, z, q, f, m, k, hs⟩ := readPieces_frame s c ps e
  rw [hs]
  exact h

/-- A client's read keeps the form of the memories. -/
theorem Memory.wf_clientRead (s : State) (c : Client) (a n : Nat) (e : EccResult) (h : Memory.wf s = true) :
    Memory.wf (s.clientRead c a n e).2 = true := Memory.wf_readPieces s c _ e h

end Sys2Proof.Machine
end

