-- ==== Sys2Proof/Laws/PerInstr.lean ====
section
/-! SUPPORT. Facts about every command as syntax, one lemma a command: the table gives no row any bits, so no word spells it. -/

namespace Sys2Proof.Laws.NoWord

open Sys2Proof

/-- No word of any length spells the command. -/
def Statement (i : Instr) : Prop := ∀ n w, decodeTableWord n w ≠ some i

/-- Decoding answers none on every word. -/
theorem none_of_all (i : Instr) : Statement i := by
  intro n w h
  cases h

theorem registerWrite (p : Path) (a v : W32) : Statement (.registerWrite p a v) := none_of_all _
theorem readClearRegister (p : Path) (a : W32) : Statement (.readClearRegister p a) := none_of_all _
theorem snapshotRead (p : Path) (a : W32) : Statement (.snapshotRead p a) := none_of_all _
theorem turnLoRead (p : Path) : Statement (.turnLoRead p) := none_of_all _
theorem flipTimeLoRead (p : Path) : Statement (.flipTimeLoRead p) := none_of_all _
theorem evtFifoRead (p : Path) : Statement (.evtFifoRead p) := none_of_all _
theorem i2cWrite (dev : BitVec 7) (bytes : List Byte) : Statement (.i2cWrite dev bytes) := none_of_all _
theorem i2cRead (dev : BitVec 7) (addr : List Byte) (n : Nat) : Statement (.i2cRead dev addr n) := none_of_all _
theorem i2cBusTimeout (dev : BitVec 7) (bytes : List Byte) : Statement (.i2cBusTimeout dev bytes) := none_of_all _
theorem geomProbeGo (layer : BitVec 7) : Statement (.geomProbeGo layer) := none_of_all _
theorem geomProbeDone  : Statement (.geomProbeDone) := none_of_all _
theorem coefSwap  : Statement (.coefSwap) := none_of_all _
theorem lutSwap  : Statement (.lutSwap) := none_of_all _
theorem mapSwap  : Statement (.mapSwap) := none_of_all _
theorem synStart (stop : Bool) : Statement (.synStart stop) := none_of_all _
theorem synStop (start : Bool) : Statement (.synStop start) := none_of_all _
theorem drvStart (stop : Bool) : Statement (.drvStart stop) := none_of_all _
theorem drvStop (start : Bool) : Statement (.drvStop start) := none_of_all _
theorem fenceValueWrite (n : Fin 64) (v : W32) : Statement (.fenceValueWrite n v) := none_of_all _
theorem fallowDrop (fid : W32) : Statement (.fallowDrop fid) := none_of_all _
theorem modeRequest (tset : BitVec 3) : Statement (.modeRequest tset) := none_of_all _
theorem railUpRequest (down : Bool) : Statement (.railUpRequest down) := none_of_all _
theorem railDownRequest (up : Bool) : Statement (.railDownRequest up) := none_of_all _
theorem plTrain (p : Fin 8) : Statement (.plTrain p) := none_of_all _
theorem plForce (p : Fin 8) (mask : LaneMask) : Statement (.plForce p mask) := none_of_all _
theorem ingEnable (p : Fin 2) (en : Bool) : Statement (.ingEnable p en) := none_of_all _
theorem ingRetrain (p : Fin 2) : Statement (.ingRetrain p) := none_of_all _
theorem sesKill  : Statement (.sesKill) := none_of_all _
theorem sesFailover  : Statement (.sesFailover) := none_of_all _
theorem casEnum  : Statement (.casEnum) := none_of_all _
theorem casTimeSet (lo : W32) : Statement (.casTimeSet lo) := none_of_all _
theorem mbxSend  : Statement (.mbxSend) := none_of_all _
theorem mbxDone  : Statement (.mbxDone) := none_of_all _
theorem mbxHostReset  : Statement (.mbxHostReset) := none_of_all _
theorem mbxInDataWrite (k : Fin 254) (v : W32) : Statement (.mbxInDataWrite k v) := none_of_all _
theorem jobTailWrite (r : Fin 8) (tail : BitVec 16) : Statement (.jobTailWrite r tail) := none_of_all _
theorem jobBaseWrite (r : Fin 8) (base : BitVec 29) : Statement (.jobBaseWrite r base) := none_of_all _
theorem pwrStateGo (target : BitVec 2) : Statement (.pwrStateGo target) := none_of_all _
theorem warmReset  : Statement (.warmReset) := none_of_all _
theorem blockResetIng (p : Fin 2) : Statement (.blockResetIng p) := none_of_all _
theorem blockResetCas  : Statement (.blockResetCas) := none_of_all _
theorem blockResetJob  : Statement (.blockResetJob) := none_of_all _
theorem blockResetPl  : Statement (.blockResetPl) := none_of_all _
theorem blockResetNvm  : Statement (.blockResetNvm) := none_of_all _
theorem calGo  : Statement (.calGo) := none_of_all _
theorem mphyTrainGo  : Statement (.mphyTrainGo) := none_of_all _
theorem ingPortUp (p : Fin 2) (lanes : List LaneAlign) : Statement (.ingPortUp p lanes) := none_of_all _
theorem ingPortDown (p : Fin 2) (bad : List Nat) : Statement (.ingPortDown p bad) := none_of_all _
theorem ingAlignPeriod (p : Fin 2) : Statement (.ingAlignPeriod p) := none_of_all _
theorem packetReceive (p : Fin 2) (bytes : List Byte) : Statement (.packetReceive p bytes) := none_of_all _
theorem hello (p : Fin 2) (page : EccResult) : Statement (.hello p page) := none_of_all _
theorem cert (p : Fin 2) (page : EccResult) : Statement (.cert p page) := none_of_all _
theorem keyshare (p : Fin 2) (page : EccResult) : Statement (.keyshare p page) := none_of_all _
theorem finish (p : Fin 2) (page : EccResult) : Statement (.finish p page) := none_of_all _
theorem declare (p : Fin 2) (page : EccResult) : Statement (.declare p page) := none_of_all _
theorem block (p : Fin 2) (head ring : EccResult) : Statement (.block p head ring) := none_of_all _
theorem overlay (p : Fin 2) (page : EccResult) : Statement (.overlay p page) := none_of_all _
theorem fence (p : Fin 2) (page : EccResult) : Statement (.fence p page) := none_of_all _
theorem commit (p : Fin 2) (page : EccResult) : Statement (.commit p page) := none_of_all _
theorem commitCompletion  : Statement (.commitCompletion) := none_of_all _
theorem control (p : Fin 2) (page : EccResult) : Statement (.control p page) := none_of_all _
theorem mailMessage (p : Fin 2) (page : EccResult) : Statement (.mailMessage p page) := none_of_all _
theorem mailReport (p : Fin 2) (page : EccResult) : Statement (.mailReport p page) := none_of_all _
theorem close (p : Fin 2) (page : EccResult) : Statement (.close p page) := none_of_all _
theorem ackSend (p : Fin 2) : Statement (.ackSend p) := none_of_all _
theorem nakRepeat (p : Fin 2) : Statement (.nakRepeat p) := none_of_all _
theorem deviceRetransmit (p : Fin 2) (seq : W32) : Statement (.deviceRetransmit p seq) := none_of_all _
theorem retxLimit (p : Fin 2) (seq : W32) : Statement (.retxLimit p seq) := none_of_all _
theorem creditSend (p : Fin 2) : Statement (.creditSend p) := none_of_all _
theorem eventSend (p : Fin 2) : Statement (.eventSend p) := none_of_all _
theorem handshakeTimeout (p : Fin 2) : Statement (.handshakeTimeout p) := none_of_all _
theorem keepaliveSend (p : Fin 2) : Statement (.keepaliveSend p) := none_of_all _
theorem primarySilence  : Statement (.primarySilence) := none_of_all _
theorem standbySilence  : Statement (.standbySilence) := none_of_all _
theorem degradedTimeout  : Statement (.degradedTimeout) := none_of_all _
theorem drainComplete  : Statement (.drainComplete) := none_of_all _
theorem closeTimeout (p : Fin 2) : Statement (.closeTimeout p) := none_of_all _
theorem deviceRekey (p : Fin 2) : Statement (.deviceRekey p) := none_of_all _
theorem serverKeyExpiry (p : Fin 2) : Statement (.serverKeyExpiry p) := none_of_all _
theorem latch  : Statement (.latch) := none_of_all _
theorem fenceTimeout (g : Fin 16) : Statement (.fenceTimeout g) := none_of_all _
theorem fadeStart  : Statement (.fadeStart) := none_of_all _
theorem timeRetuneDone  : Statement (.timeRetuneDone) := none_of_all _
theorem newTimingStart  : Statement (.newTimingStart) := none_of_all _
theorem fallowJobStart  : Statement (.fallowJobStart) := none_of_all _
theorem fallowCopyDone : Statement .fallowCopyDone := none_of_all _
theorem fallowFlattenDone : Statement .fallowFlattenDone := none_of_all _
theorem slotStart (mismatch : List (Fin 8 × Fin 17 × Nat)) : Statement (.slotStart mismatch) := none_of_all _
theorem laneRetrainPhase (p : Fin 8) (lane : Fin 17) (terminated : Bool) : Statement (.laneRetrainPhase p lane terminated) := none_of_all _
theorem wakeBurst  : Statement (.wakeBurst) := none_of_all _
theorem synthRowStart (g : Fin 128) (d : RowData) : Statement (.synthRowStart g d) := none_of_all _
theorem decodeAssign (ring : EccResult) : Statement (.decodeAssign ring) := none_of_all _
theorem blockDecodeDone (d : Fin 32) (ecc : EccResult) : Statement (.blockDecodeDone d ecc) := none_of_all _
theorem overlayPrefetchDone (k : Fin 8) (band : BitVec 8) (ecc : EccResult) : Statement (.overlayPrefetchDone k band ecc) := none_of_all _
theorem bcFrameReceive (p : Fin 8) (drv : Fin 16) (bits : List Bool) : Statement (.bcFrameReceive p drv bits) := none_of_all _
theorem bcSlotMissed (p : Fin 8) (drv : Fin 16) (badCrc : Bool) : Statement (.bcSlotMissed p drv badCrc) := none_of_all _
theorem laneFailureApply (p : Fin 8) : Statement (.laneFailureApply p) := none_of_all _
theorem laneRestoreApply (p : Fin 8) : Statement (.laneRestoreApply p) := none_of_all _
theorem plPresenceDone (p : Fin 8) (terminated : LaneMask) : Statement (.plPresenceDone p terminated) := none_of_all _
theorem plTsaDone (p : Fin 8) : Statement (.plTsaDone p) := none_of_all _
theorem plTsbDone (p : Fin 8) : Statement (.plTsbDone p) := none_of_all _
theorem plStageLimit (p : Fin 8) : Statement (.plStageLimit p) := none_of_all _
theorem railGood (n : Fin 4) : Statement (.railGood n) := none_of_all _
theorem seqStepDelay  : Statement (.seqStepDelay) := none_of_all _
theorem railPgTimeout (n : Fin 4) : Statement (.railPgTimeout n) := none_of_all _
theorem emitSupPgHigh  : Statement (.emitSupPgHigh) := none_of_all _
theorem extHandshakeTimeout  : Statement (.extHandshakeTimeout) := none_of_all _
theorem seqRunEntry  : Statement (.seqRunEntry) := none_of_all _
theorem downEffect  : Statement (.downEffect) := none_of_all _
theorem emitSupPgLow  : Statement (.emitSupPgLow) := none_of_all _
theorem emitSupPgFall  : Statement (.emitSupPgFall) := none_of_all _
theorem railDischarged (n : Fin 4) : Statement (.railDischarged n) := none_of_all _
theorem dischargeTimeout (n : Fin 4) : Statement (.dischargeTimeout n) := none_of_all _
theorem railLoss (n : Fin 4) : Statement (.railLoss n) := none_of_all _
theorem railOvercurrent (n : Fin 4) : Statement (.railOvercurrent n) := none_of_all _
theorem powerDieOt  : Statement (.powerDieOt) := none_of_all _
theorem vinUndervoltage  : Statement (.vinUndervoltage) := none_of_all _
theorem aonSupplyLoss  : Statement (.aonSupplyLoss) := none_of_all _
theorem porAssert  : Statement (.porAssert) := none_of_all _
theorem porRelease (head addr1 addr0 : Bool) : Statement (.porRelease head addr1 addr0) := none_of_all _
theorem pinReset  : Statement (.pinReset) := none_of_all _
theorem refLoss  : Statement (.refLoss) := none_of_all _
theorem coreResetRelease  : Statement (.coreResetRelease) := none_of_all _
theorem bootClocksReady (voutMode : Option (BitVec 8)) : Statement (.bootClocksReady voutMode) := none_of_all _
theorem bootSelftestDone (ok : Bool) : Statement (.bootSelftestDone ok) := none_of_all _
theorem norDiscoveryDone (flash : Option NorTables) : Statement (.norDiscoveryDone flash) := none_of_all _
theorem imageCopyStaged (readOk : Bool) : Statement (.imageCopyStaged readOk) := none_of_all _
theorem sectionsApplied  : Statement (.sectionsApplied) := none_of_all _
theorem hbmTrainingDone (failPc : Option (Fin 32)) : Statement (.hbmTrainingDone failPc) := none_of_all _
theorem ledgerRestoreDone (emmc : Option Bool) (ok : Bool) : Statement (.ledgerRestoreDone emmc ok) := none_of_all _
theorem calmapLoadDone (ok : Bool) : Statement (.calmapLoadDone ok) := none_of_all _
theorem bootStepTimeout  : Statement (.bootStepTimeout) := none_of_all _
theorem runToIdle  : Statement (.runToIdle) := none_of_all _
theorem idleToStandby  : Statement (.idleToStandby) := none_of_all _
theorem jobGraceExpiry  : Statement (.jobGraceExpiry) := none_of_all _
theorem standbyToIdle  : Statement (.standbyToIdle) := none_of_all _
theorem idleToRun  : Statement (.idleToRun) := none_of_all _
theorem idleToDeep  : Statement (.idleToDeep) := none_of_all _
theorem deepToIdle  : Statement (.deepToIdle) := none_of_all _
theorem wakeDetect (cas : Bool) (port : Fin 5) : Statement (.wakeDetect cas port) := none_of_all _
theorem wakeTimerExpiry  : Statement (.wakeTimerExpiry) := none_of_all _
theorem avsWindow (slack : BitVec 6) (ack : Bool) : Statement (.avsWindow slack ack) := none_of_all _
theorem avsLower (ack : Bool) : Statement (.avsLower ack) := none_of_all _
theorem avsRetry (ack : Bool) : Statement (.avsRetry ack) := none_of_all _
theorem tempModelTick (die : List (BitVec 16)) (tpd : BitVec 16) : Statement (.tempModelTick die tpd) := none_of_all _
theorem ntcSample (n : Fin 2) (code : BitVec 12) : Statement (.ntcSample n code) := none_of_all _
theorem thermalTick  : Statement (.thermalTick) := none_of_all _
theorem thermalTrip  : Statement (.thermalTrip) := none_of_all _
theorem calRunStart  : Statement (.calRunStart) := none_of_all _
theorem calRunEnd  : Statement (.calRunEnd) := none_of_all _
theorem convTrimStep (n : Fin 4) : Statement (.convTrimStep n) := none_of_all _
theorem aonfTrim  : Statement (.aonfTrim) := none_of_all _
theorem aonsTick  : Statement (.aonsTick) := none_of_all _
theorem xtalStart  : Statement (.xtalStart) := none_of_all _
theorem refreshDue (pc : Fin 32) (hot : Bool) (panic : Bool) (idle : Bool) : Statement (.refreshDue pc hot panic idle) := none_of_all _
theorem scrubRead (r : EccResult) : Statement (.scrubRead r) := none_of_all _
theorem pageIdleClose (pc : Fin 32) (sid : Fin 3) (bank : Fin 16) : Statement (.pageIdleClose pc sid bank) := none_of_all _
theorem casPortUp (n : Fin 5) (partner : CasPartner) : Statement (.casPortUp n partner) := none_of_all _
theorem casPortDown (n : Fin 5) : Statement (.casPortDown n) := none_of_all _
theorem turnTick (n : Fin 5) (cell : List Byte) : Statement (.turnTick n cell) := none_of_all _
theorem turnSeqst (n : Fin 5) (cell : List Byte) : Statement (.turnSeqst n cell) := none_of_all _
theorem echoRequestSend  : Statement (.echoRequestSend) := none_of_all _
theorem echoRequest (n : Fin 5) (cell : List Byte) : Statement (.echoRequest n cell) := none_of_all _
theorem echoReply (n : Fin 5) (cell : List Byte) : Statement (.echoReply n cell) := none_of_all _
theorem echoReplyMissing  : Statement (.echoReplyMissing) := none_of_all _
theorem cellIdleEcho (n : Fin 5) : Statement (.cellIdleEcho n) := none_of_all _
theorem cellRetransmit (n : Fin 5) : Statement (.cellRetransmit n) := none_of_all _
theorem enumAssign (n : Fin 5) (cell : List Byte) : Statement (.enumAssign n cell) := none_of_all _
theorem enumDone (n : Fin 5) (cell : List Byte) : Statement (.enumDone n cell) := none_of_all _
theorem bcommitReceive (n : Fin 5) (cell : List Byte) : Statement (.bcommitReceive n cell) := none_of_all _
theorem bcommitFence  : Statement (.bcommitFence) := none_of_all _
theorem bcommitMode  : Statement (.bcommitMode) := none_of_all _
theorem bcommitSwap  : Statement (.bcommitSwap) := none_of_all _
theorem fenceRequest (n : Fin 5) (cell : List Byte) : Statement (.fenceRequest n cell) := none_of_all _
theorem dataCell (n : Fin 5) (cell : List Byte) : Statement (.dataCell n cell) := none_of_all _
theorem bcastCopyStart (c : Fin 8) : Statement (.bcastCopyStart c) := none_of_all _
theorem bcastCopyDone (c : Fin 8) : Statement (.bcastCopyDone c) := none_of_all _
theorem mailCell (n : Fin 5) (cell : List Byte) : Statement (.mailCell n cell) := none_of_all _
theorem mailCellResponse (n : Fin 5) (cell : List Byte) : Statement (.mailCellResponse n cell) := none_of_all _
theorem eventCell (n : Fin 5) (cell : List Byte) : Statement (.eventCell n cell) := none_of_all _
theorem wakeCell (n : Fin 5) (cell : List Byte) : Statement (.wakeCell n cell) := none_of_all _
theorem mailboxTake (box : Fin 8) : Statement (.mailboxTake box) := none_of_all _
theorem svcInfo (box : Fin 8) : Statement (.svcInfo box) := none_of_all _
theorem svcRegRead (box : Fin 8) : Statement (.svcRegRead box) := none_of_all _
theorem svcRegWrite (box : Fin 8) : Statement (.svcRegWrite box) := none_of_all _
theorem svcMapLoad (box : Fin 8) : Statement (.svcMapLoad box) := none_of_all _
theorem mapLoadDone (ok : Bool) : Statement (.mapLoadDone ok) := none_of_all _
theorem svcLedgerSave (box : Fin 8) : Statement (.svcLedgerSave box) := none_of_all _
theorem ledgerSaveDone (ok : Bool) : Statement (.ledgerSaveDone ok) := none_of_all _
theorem svcCapture (box : Fin 8) : Statement (.svcCapture box) := none_of_all _
theorem svcRailsUp (box : Fin 8) : Statement (.svcRailsUp box) := none_of_all _
theorem svcPower (box : Fin 8) : Statement (.svcPower box) := none_of_all _
theorem imageWriteBegin (box : Fin 8) (ok : Bool) : Statement (.imageWriteBegin box ok) := none_of_all _
theorem imageWriteData (box : Fin 8) (ok : Bool) : Statement (.imageWriteData box ok) := none_of_all _
theorem imageWriteEnd (box : Fin 8) (ok : Bool) : Statement (.imageWriteEnd box ok) := none_of_all _
theorem imageWriteAbort (box : Fin 8) : Statement (.imageWriteAbort box) := none_of_all _
theorem forwardRequest (box : Fin 8) : Statement (.forwardRequest box) := none_of_all _
theorem forwardTimeout  : Statement (.forwardTimeout) := none_of_all _
theorem heathResponsePlace (box : Fin 8) : Statement (.heathResponsePlace box) := none_of_all _
theorem heathWatchdogExpiry  : Statement (.heathWatchdogExpiry) := none_of_all _
theorem heathRestartDone  : Statement (.heathRestartDone) := none_of_all _
theorem jobStart : Statement .jobStart := none_of_all _
theorem jobCopyDone (r : Fin 8) (ecc : JobEcc) : Statement (.jobCopyDone r ecc) := none_of_all _
theorem jobCompressDone (r : Fin 8) (ecc : JobEcc) : Statement (.jobCompressDone r ecc) := none_of_all _
theorem jobDecompressDone (r : Fin 8) (ecc : JobEcc) : Statement (.jobDecompressDone r ecc) := none_of_all _
theorem jobLedgerSnapDone (r : Fin 8) (ecc : JobEcc) : Statement (.jobLedgerSnapDone r ecc) := none_of_all _
theorem jobCalpackDone (r : Fin 8) (ecc : JobEcc) : Statement (.jobCalpackDone r ecc) := none_of_all _
theorem jobCaptureDone (r : Fin 8) : Statement (.jobCaptureDone r) := none_of_all _
theorem serverRekeyDue (p : Fin 2) : Statement (.serverRekeyDue p) := none_of_all _
theorem cascadeAlignPeriod (n : Fin 5) : Statement (.cascadeAlignPeriod n) := none_of_all _
theorem tapInstructionLoad (op : BitVec 8) : Statement (.tapInstructionLoad op) := none_of_all _

end Sys2Proof.Laws.NoWord
end

