-- ==== Sys2Proof/Tests/Slice0.lean ====
section
/-! SUPPORT. Small tests of the model, and for each statement the states that meet its hypotheses. -/

namespace Sys2Proof.Tests

open Sys2Proof Sys2Proof.Machine

set_option Elab.async false

/-! States of the tests. -/

/-- The machine with its core running, out of bring-up, in IDLE. -/
def live : State :=
  (((({ State.reset with
    pwr := { Pwr.reset with
      por := false
      core := true
      restart := none
      going := none } } : State).plls true).bootTo 6 12).fput F.CAS_STAT_HEAD true).fput F.CLK_STAT_REF_OK true

/-- `live` with TIM running. -/
def running : State := { live with
  tim := { live.tim with
    run := true } }

/-- `live` as a follower of the cascade. -/
def follower : State := live.fput F.CAS_STAT_HEAD false

/-- `live` with the rails coming up. -/
def ramping : State := { live with
  pwd := { live.pwd with
    pos := .ramp 0
    started := [0] } }

/-- The layout of a register. -/
def descOf (a : Nat) : RegDesc := (regDesc a).getD ⟨0, 1, 0, 1, 4, [], []⟩

/-! Well-formedness: an ill-formed command for each check. -/

theorem test_wf_read_unaligned : (Instr.readClearRegister .bus 2).wf = false := by decide
theorem test_wf_snapshot_unaligned : (Instr.snapshotRead .bus 0x340011).wf = false := by decide
theorem test_wf_write_unaligned : (Instr.registerWrite .bus 2 0).wf = false := by decide
theorem test_wf_i2c_read_of_none : (Instr.i2cRead 0x5C [0, 0, 0, 0] 0).wf = false := by decide
theorem test_wf_ingest_seven_lanes : (Instr.ingPortUp 0 (List.replicate 7 ⟨false, 0, 0, 0, 0⟩)).wf = false := by decide
theorem test_wf_ingest_bad_counts : (Instr.ingPortDown 0 [1, 2]).wf = false := by decide
theorem test_wf_packet_not_blocks : (Instr.packetReceive 0 [1]).wf = false := by decide
theorem test_wf_slot_too_many_bits : (Instr.slotStart [(0, 0, 1050)]).wf = false := by decide
theorem test_wf_slot_lane_twice : (Instr.slotStart [(0, 0, 1), (0, 0, 2)]).wf = false := by decide
theorem test_wf_frame_bits : (Instr.bcFrameReceive 0 0 [true]).wf = false := by decide
theorem test_wf_fifteen_sensors : (Instr.tempModelTick (List.replicate 15 0) 0).wf = false := by decide
theorem test_wf_cell_not_blocks : (Instr.wakeCell 0 [1, 2, 3]).wf = false := by decide
theorem test_wf_good : (Instr.registerWrite .bus 4 0).wf = true := by decide

/-! Witnesses: registers and the management bus. -/

theorem wit_step_front : ({ live with
    pending := [.sesKill] } : State).pending = .sesKill :: [] := by decide
theorem wit_locked_write : addrOk (BitVec.ofNat 32 R.PWD_SEQ_CFG).toNat = true ∧ inRam (BitVec.ofNat 32 R.PWD_SEQ_CFG).toNat = false ∧
    live.isOff (BitVec.ofNat 32 R.PWD_SEQ_CFG).toNat = false ∧
    regDesc (BitVec.ofNat 32 R.PWD_SEQ_CFG).toNat = some (descOf R.PWD_SEQ_CFG) ∧
    ownerOf (BitVec.ofNat 32 R.PWD_SEQ_CFG).toNat = some .pwd ∧ (∀ f ∈ (descOf R.PWD_SEQ_CFG).fields, f.acc = .rwl) := by
  decide +kernel

/-- `ramping` with PWD started in this cycle, and `live` where the management bus has written the register in it. -/
def startedNow : State := { ramping with
  cyc := { ramping.cyc with
    starts := [.pwd] } }
def outranked : State := { live with
  cyc := { live.cyc with
    wrote := [(R.PWD_SEQ_CFG, 4)] } }
/-- Both sides of R10, and of R327. -/
theorem wit_locked_write_sides : live.stopped .pwd = true ∧ (ramping.stopped .pwd = false ∧ .pwd ∉ ramping.cyc.starts) ∧
    .pwd ∈ startedNow.cyc.starts ∧ pathRank .control + 1 < outranked.wroteNow (BitVec.ofNat 32 R.PWD_SEQ_CFG).toNat ∧
    outranked.wroteNow (BitVec.ofNat 32 R.PWD_SEQ_CFG).toNat ≤ pathRank .bus + 1 := by decide +kernel
/-- A register of RW fields, one of W1C bits of which hardware sets two in this cycle, one of RWL fields in each state of its owner,
and one of RO fields. -/
def setNowAt (a m : Nat) : State := { live.rset a 0xFF with
  cyc := { live.cyc with
    sets := [(a, m)] } }
/-- A captured event that made way for another at this moment, and a VALID bit. -/
def captured : State := { live with
  caps := [(R.DEC_ERR_FIRST, ⟨live.clock, 1, [(R.DEC_ERR_FIRST, 0x80000005)], false⟩)] }
theorem wit_write_by_code : (∀ a ∈ [R.SYN_BG_COLOUR, R.PWD_FAULT, R.PWD_SEQ_CFG, R.PWD_SEQ_STAT, R.EVT_PEND 0, R.EVT_PEND 1, R.DEC_ERR_FIRST],
      addrOk (BitVec.ofNat 32 a).toNat = true ∧ inRam (BitVec.ofNat 32 a).toNat = false ∧ live.isOff (BitVec.ofNat 32 a).toNat = false ∧
      regDesc (BitVec.ofNat 32 a).toNat = some (descOf a) ∧
      (actsOnWrite (BitVec.ofNat 32 a).toNat = false ∨ (BitVec.ofNat 32 a).toNat = R.EVT_PEND 0)) ∧
    (∃ f ∈ (descOf R.PWD_FAULT).fields, f.acc = .w1c) ∧ (setNowAt R.PWD_FAULT 3).setNow R.PWD_FAULT = 3 ∧
    (BitVec.ofNat 32 R.DEC_ERR_FIRST).toNat ∈ captureRegs ∧ captured.caps ≠ [] := by decide +kernel
theorem test_recapture : (registerWrite .bus (BitVec.ofNat 32 R.DEC_ERR_FIRST) 0x80000000 captured).rget R.DEC_ERR_FIRST = 0x80000005 := by
  decide +kernel
theorem wit_write_requests : live.isOff R.SYN_CTL = false ∧ live.isOff R.PWD_SEQ_CTL = false ∧ live.isOff R.MBX_HOST_CTL = false ∧
    bitOf (2 ^ 31 : W32).toNat F.MBX_HOST_CTL_RESET.lo = false := by decide +kernel
/-- A reserved offset, a register of a block that is off, an address outside every window and a misaligned one. -/
theorem wit_write_without_effect : (addrOk (0x1FFFC : W32).toNat = true ∧ inRam (0x1FFFC : W32).toNat = false ∧
      regDesc (0x1FFFC : W32).toNat = none) ∧
    State.reset.isOff (BitVec.ofNat 32 R.SYN_BG_COLOUR).toNat = true ∧ addrOk (BitVec.ofNat 32 R.SYN_BG_COLOUR).toNat = true ∧
    addrOk (0x90000 : W32).toNat = false ∧ addrOk (BitVec.ofNat 32 (R.SYN_BG_COLOUR + 2)).toNat = false := by decide +kernel
theorem wit_read_clears : addrOk (BitVec.ofNat 32 R.SWD_ECC_CNT).toNat = true ∧ inRam (BitVec.ofNat 32 R.SWD_ECC_CNT).toNat = false ∧
    live.isOff (BitVec.ofNat 32 R.SWD_ECC_CNT).toNat = false ∧ regDesc (BitVec.ofNat 32 R.SWD_ECC_CNT).toNat = some (descOf R.SWD_ECC_CNT) ∧
    (∃ f ∈ (descOf R.SWD_ECC_CNT).fields, f.acc = .rc) ∧ live.mem.served = false := by decide +kernel
/-- `live` with Sward errors counted. -/
def eccCounted : State := (live.fset F.SWD_ECC_CNT_CORR 5).fset F.SWD_ECC_CNT_UNCORR 2
/-- `eccCounted` with three more in this cycle. -/
def addedNow : State := eccCounted.fadd F.SWD_ECC_CNT_CORR 3
theorem wit_added_now : (∀ e ∈ eccCounted.cyc.adds, e.1 ≠ F.SWD_ECC_CNT_CORR) ∧ addedNow.beforeOf F.SWD_ECC_CNT_CORR = 5 ∧
    addedNow.aloneOf F.SWD_ECC_CNT_CORR = 3 := by decide +kernel
/-- `live` with clients of the memory system served. -/
def served : State := { live with
  mem := { live.mem with
    served := true } }
theorem test_read_clears_counts : ∃ t, exec (.readClearRegister .bus (BitVec.ofNat 32 R.SWD_ECC_CNT)) eccCounted = .next t ∧
    t.fget F.SWD_ECC_CNT_CORR = 0 ∧ bitsOf t.rdata.toNat 31 16 = 5 := ⟨_, rfl, by decide +kernel⟩
/-- The temperature peak's register, and a client's statistics once clients are served. -/
theorem wit_read_clears_others : (∀ a ∈ [R.CAL_THERM_STAT, R.MEM_CLIENT_STAT 8], addrOk (BitVec.ofNat 32 a).toNat = true ∧
    inRam (BitVec.ofNat 32 a).toNat = false ∧ served.isOff (BitVec.ofNat 32 a).toNat = false ∧
    regDesc (BitVec.ofNat 32 a).toNat = some (descOf a) ∧ ∃ f ∈ (descOf a).fields, f.acc = .rc) ∧ served.mem.served = true ∧ served.mem.levels.length = 9 ∧ served.level 8 ≤ fifoLines 8 ∧
    ∀ n, n ≤ 8 → (BitVec.ofNat 32 R.CAL_THERM_STAT).toNat ≠ R.MEM_CLIENT_STAT n := by decide +kernel
/-- A snapshot group's first register and a captured one. -/
theorem wit_snapshots : addrOk (BitVec.ofNat 32 R.CAS_TIME_LO).toNat = true ∧ live.isOff (BitVec.ofNat 32 R.CAS_TIME_LO).toNat = false ∧
    snapGroup (BitVec.ofNat 32 R.CAS_TIME_LO).toNat ≠ [] ∧ addrOk (BitVec.ofNat 32 R.CAS_TIME_HI).toNat = true ∧
    live.isOff (BitVec.ofNat 32 R.CAS_TIME_HI).toNat = false ∧ snapMember (BitVec.ofNat 32 R.CAS_TIME_HI).toNat = true := by decide +kernel
/-- `live` in a turn, its time base running. -/
def timed : State := { live with
  time := 65536 * (5 * 2 ^ 32 + 7)
  lyr := { live.lyr with
    turn := 3 * 2 ^ 32 + 9
    flipTime := 11 * 2 ^ 32 + 13 } }
theorem wit_turn_read : live.isOff R.LYR_TURN_LO = false ∧ live.snaps.armed.contains Path.bus = false := by decide +kernel
theorem test_turn_read : ∃ t, exec (.turnLoRead .bus) timed = .next t ∧ t.rdata = 9 ∧ t.snap .bus R.LYR_TURN_HI = 3 :=
  ⟨_, rfl, by decide +kernel⟩
/-- `live` with one event of the tree in its FIFO. -/
def withTreeEvt : State := { live with
  cas := { live.cas with
    fifo := [⟨5, 0x11, 3, 9⟩] } }
theorem wit_fifo_read : withTreeEvt.isOff R.CAS_EVT_FIFO0 = false ∧ withTreeEvt.cas.fifo = ⟨5, 0x11, 3, 9⟩ :: [] ∧ live.isOff R.CAS_EVT_FIFO0 = false ∧ live.cas.fifo = [] := by decide +kernel
theorem wit_bus_write : live.i2cMine 0x5C = true ∧ addrOk (BitVec.ofNat 32 R.SYN_BG_COLOUR).toNat = true ∧
    (BitVec.ofNat 32 R.SYN_BG_COLOUR).toNat ≠ R.MBX_HOST_CTL ∧ live.i2cMine 0x11 = false := by decide +kernel
theorem test_bus_write : ∃ t, exec (.i2cWrite 0x5C (leBytes 4 R.SYN_BG_COLOUR ++ [1, 2, 3, 0])) live = .next t ∧ t.rget R.SYN_BG_COLOUR = 0x30201 :=
  ⟨_, rfl, by decide +kernel⟩
theorem wit_bus_read : live.i2cMine 0x5C = true ∧ (BitVec.ofNat 32 R.SYN_BG_COLOUR).toNat % 4 = 0 ∧ (BitVec.ofNat 32 R.SYN_BG_COLOUR).toNat < 2 ^ 30 := by
  decide +kernel
theorem wit_bus_timeout : live.pwr.por = false ∧ [1, 2, 3].length < 8 ∧ ([1, 0, 0, 0, 5] : List Byte).length < 8 ∧
    leAt [1, 0, 0, 0, 5] 0 4 % 4 ≠ 0 := by decide
/-- `live` with plane 7 of the manual's example in the layer set. -/
def planeRec : LayerRec := ⟨false, true, 7, 0, false, 0, 0, 0, ⟨6144, 1728, 0, 0, 0x1000, 0x1000, 0xB50, 0xB50, false, false, 4, 4⟩, 0, 0⟩
/-- `live` showing plane 7. -/
def probing : State := { live with
  lyr := { live.lyr with
    layerSet := [⟨planeRec, .slot 0⟩] } }
/-- `probing` with the probe free, its emitter chosen. -/
def probeReady : State := ((probing.fput F.SYN_GEOM_PROBE_CTL_DONE true).fset F.SYN_GEOM_PROBE_EMIT_X 30731).fset F.SYN_GEOM_PROBE_EMIT_Y 8643
/-- `live` with the results of a probe due. -/
def probeDue : State := { live with
  probe := some (5, 6) }
theorem wit_probe : probeReady.isOff R.SYN_GEOM_PROBE_CTL = false ∧ probeReady.flag F.SYN_GEOM_PROBE_CTL_DONE = true ∧
    (probeReady.lyr.layerSet.find? (fun t => t.layer.overlay == decide (64 ≤ (7 : BitVec 7).toNat) &&
      t.layer.index == (if (7 : BitVec 7).toNat < 64 then (7 : BitVec 7).toNat else (7 : BitVec 7).toNat - 64) &&
      decide ((7 : BitVec 7).toNat < 72))) = some ⟨planeRec, .slot 0⟩ ∧
    probeReady.fget F.SYN_GEOM_PROBE_EMIT_X < 480 * probeReady.tab.geom.ng ∧ probeReady.fget F.SYN_GEOM_PROBE_EMIT_Y < probeReady.tab.geom.hp := by
  decide +kernel
theorem wit_probe_busy : (live.fput F.SYN_GEOM_PROBE_CTL_DONE false).isOff R.SYN_GEOM_PROBE_CTL = false ∧
    (live.fput F.SYN_GEOM_PROBE_CTL_DONE false).flag F.SYN_GEOM_PROBE_CTL_DONE = false ∧ probeDue.probe = some (5, 6) ∧
    probeDue.coreRuns = true ∧ State.reset.coreRuns = false := by decide +kernel
/-- `live` with every swap pending, and with page 1 of the RAMs active. -/
def swapsPend : State := ((live.fput F.SYN_COEF_CTL_PEND true).fput F.COL_LUT_CTL_PEND true).fput F.EMC_MAP_CTL_PEND true
def pagesOne : State := (live.fput F.SYN_COEF_CTL_ACTIVE true).fput F.COL_LUT_CTL_ACTIVE true
theorem wit_swaps : live.isOff R.SYN_COEF_CTL = false ∧ live.isOff R.COL_LUT_CTL = false ∧ live.isOff R.EMC_MAP_CTL = false ∧
    live.flag F.SYN_COEF_CTL_PEND = false ∧ live.flag F.COL_LUT_CTL_PEND = false ∧ live.flag F.EMC_MAP_CTL_PEND = false ∧
    swapsPend.isOff R.SYN_COEF_CTL = false ∧ swapsPend.isOff R.COL_LUT_CTL = false ∧ swapsPend.isOff R.EMC_MAP_CTL = false ∧
    swapsPend.flag F.SYN_COEF_CTL_PEND = true ∧ swapsPend.flag F.COL_LUT_CTL_PEND = true ∧ swapsPend.flag F.EMC_MAP_CTL_PEND = true := by
  decide +kernel
/-- The first and last words of the two RAMs, in each state of their page and swap. -/
theorem wit_ram_writes : (∀ a ∈ [0x3000000, 0x3001FFC, 0x3100000, 0x313FFFC], (BitVec.ofNat 32 a).toNat = a ∧ a % 4 = 0 ∧
      live.isOff a = false ∧ pagesOne.isOff a = false ∧ swapsPend.isOff a = false) ∧
    live.flag F.SYN_COEF_CTL_ACTIVE = false ∧ live.flag F.COL_LUT_CTL_ACTIVE = false ∧ pagesOne.flag F.SYN_COEF_CTL_ACTIVE = true ∧
    pagesOne.flag F.COL_LUT_CTL_ACTIVE = true ∧ pagesOne.flag F.SYN_COEF_CTL_PEND = false ∧ pagesOne.flag F.COL_LUT_CTL_PEND = false := by
  decide +kernel
theorem wit_start_stop : live.isOff R.SYN_CTL = false ∧ live.isOff R.DRV_CTL = false := by decide +kernel
/-- `live` with system fences, the head of a tree. -/
def sysFenced : State := live.fput F.CAS_CTL_SYSFENCE true
/-- `follower` with system fences. -/
def sysFollower : State := follower.fput F.CAS_CTL_SYSFENCE true
/-- The clauses meet at fence 47 and 48, and at the values 0 and 2^31 - 1 after the present one. -/
theorem wit_fences : live.isOff (R.LYR_FENCE_VAL 48) = false ∧ live.isOff R.LYR_FALLOW_DROP = false ∧
    live.flag F.CAS_CTL_SYSFENCE = false ∧ newer32 (0x7FFFFFFF : W32).toNat (live.fget (F.LYR_FENCE_VAL_VALUE 48)) = true ∧
    newer32 (0 : W32).toNat (live.fget (F.LYR_FENCE_VAL_VALUE 48)) = false ∧
    newer32 (0x80000000 : W32).toNat (live.fget (F.LYR_FENCE_VAL_VALUE 48)) = false ∧
    sysFenced.flag F.CAS_CTL_SYSFENCE = true ∧ sysFenced.isHead = true ∧ newer32 (5 : W32).toNat (sysFenced.fenceIssued 48) = true ∧
    newer32 (0x7FFFFFFF : W32).toNat (sysFenced.fget (F.LYR_FENCE_VAL_VALUE 47)) = true ∧
    sysFollower.flag F.CAS_CTL_SYSFENCE = true ∧ sysFollower.isHead = false ∧ (1 : W32) ≠ 0 := by decide +kernel
/-- `live` with timing set 2 in its image. -/
def twoSets : State := { live with
  tsets := [⟨0, Timing.reset, Geom.reset, 0, [], [], [], none, 0⟩, ⟨2, Timing.reset, Geom.reset, 0, [], [], [], none, 0⟩] }
/-- `twoSets` with a change in progress. -/
def changing : State := { twoSets with
  lyr := { twoSets.lyr with
    mode := .q1 } }
theorem wit_mode_requests : live.isOff R.TIM_MODE_REQ = false ∧ follower.isHead = false ∧ (live.isHead = true ∧ (0 : BitVec 3).toNat = live.activeSet) ∧
    ((7 : BitVec 3).toNat ≠ live.activeSet ∧ live.tsetValid (7 : BitVec 3).toNat = false) ∧
    (twoSets.isHead = true ∧ (2 : BitVec 3).toNat ≠ twoSets.activeSet ∧ twoSets.tsetValid (2 : BitVec 3).toNat = true ∧
      twoSets.modeBusy = false ∧ changing.modeBusy = true) := by decide +kernel

/-! Witnesses: requests to the rails, the panel link, ingest, sessions and the cascade. -/

theorem live_shaped : live.Shaped := by constructor <;> decide +kernel
/-- `live` with the rails up and EXT_PG high. -/
def railsUp : State := { live.fput F.PWD_SEQ_STAT_EXT_PG true with
  pwd := { live.pwd with
    pos := .run
    started := [0, 1, 2, 3] } }
/-- `railsUp` with TIM running. -/
def railsRun : State := { railsUp with
  tim := { railsUp.tim with
    run := true } }
theorem wit_rail_requests : live.isOff R.PWD_SEQ_CTL = false ∧
    (live.pwd.pos = .off ∧ live.flag F.PWD_SEQ_STAT_SAFE = true ∧ live.rget R.PWD_FAULT = 0 ∧ live.twinPartner = false ∧
      live.railsBarred = false) ∧
    ramping.pwd.pos ≠ .off ∧ (railsRun.pwd.pos = .run ∧ railsRun.tim.run = true) ∧
    (railsUp.pwd.pos.upOrRun = true ∧ ¬ (railsUp.pwd.pos = .run ∧ railsUp.tim.run = true) ∧ railsUp.flag F.PWD_SEQ_STAT_EXT_PG = true) := by
  decide +kernel
/-- `live` with panel-link port 2 running. -/
def linkRunning : State := live.fset (F.PL_STAT_STATE 2) 3
/-- A reversed port whose lanes have failed. -/
def linkReversed : State := (((live.fput (F.PL_STAT_REVERSED 2) true).fset (F.PL_LANE_STAT_FAILS 2 3) 9).fset (F.PL_LANE_STAT_FAILS 2 16) 2)
theorem wit_panel_requests : linkReversed.flag (F.PL_STAT_REVERSED 2) = true ∧ linkReversed.tim.run = false ∧ live.isOff (R.PL_CTL 2) = false ∧ live.tim.run = false ∧ running.tim.run = true ∧
    linkRunning.fget (F.PL_STAT_STATE 2) = 3 ∧ live.fget (F.PL_STAT_STATE 2) ≠ 3 := by decide +kernel
/-- Lanes 0 and 16, the first and the last, forced. -/
theorem test_force_lanes : ∃ t, exec (.plForce 2 0x10001) linkRunning = .next t ∧ (t.plPort 2).fails = [(0, 6), (16, 6)] := ⟨_, rfl, by decide +kernel⟩
/-- `live` with ingest port 1 training, and with it UP. -/
def ingTraining : State := (live.fput (F.ING_CTL_EN 1) true).fset (F.ING_STAT_STATE 1) 1
def ingUp : State := (live.fput (F.ING_CTL_EN 1) true).fset (F.ING_STAT_STATE 1) 2
/-- Eight lanes in order, with the greatest skew the port takes. -/
def eightLanes : List LaneAlign := (List.finRange 8).map (fun l => ⟨false, l, BitVec.ofNat 8 (64 * (l.val / 7)), 1, 9⟩)
/-- ALIGN blocks of the other port, with two counts, and with one lane twice. -/
def otherPort : List LaneAlign := eightLanes.map (fun l => { l with port := 0 })
def twoCounts : List LaneAlign := setNth eightLanes 3 ⟨false, 3, 0, 1, 8⟩
def oneTwice : List LaneAlign := setNth eightLanes 3 ⟨false, 2, 0, 1, 9⟩
/-- `live` halted. -/
def haltedIng : State := { live with
  boot := { live.boot with
    state := 7 } }
theorem wit_ingest_port : live.isOff (R.ING_CTL 1) = false ∧ live.fget (F.ING_STAT_STATE 1) = 0 ∧
    (ingTraining.isOff (R.ING_CTL 1) = false ∧ ingTraining.flag (F.ING_CTL_EN 1) = true ∧ ingTraining.fget (F.ING_STAT_STATE 1) = 1 ∧
      eightLanes.length = 8 ∧ (eightLanes.map (fun l => l.logical)).Nodup ∧ (∀ l ∈ eightLanes, l.skew.toNat ≤ 64) ∧
      (∀ l ∈ eightLanes, l.port = 1) ∧ ∀ l ∈ eightLanes, ∀ k ∈ eightLanes, l.count = k.count) ∧
    (ingUp.isOff (R.ING_CTL 1) = false ∧ ingUp.flag (F.ING_CTL_EN 1) = true ∧ ingUp.portUp 1 = true) ∧
    (live.boot.state ≠ 7 ∧ live.boot.state ≠ 8 ∧ haltedIng.boot.state = 7 ∧ haltedIng.isOff (R.ING_CTL 1) = false) ∧
    (∃ l ∈ otherPort, l.port ≠ 1) ∧ (∃ l ∈ twoCounts, ∃ k ∈ twoCounts, l.count ≠ k.count) ∧
    ¬ (oneTwice.map (fun l => l.logical)).Nodup := by decide +kernel
/-- An attachment of session 5 on a port, in a state, its handshake done. -/
def attOn (p : Nat) (r : Role) (k : AttState) : Att := { Att.fresh p 5 r with
  state := k
  keyed := k == .keyed || k == .declared || k == .streaming }
/-- `live` with ports UP, a primary on port 0 and a standby on port 1. -/
def twoPaths : State :=
  { (live.fset (F.ING_STAT_STATE 0) 2).fset (F.ING_STAT_STATE 1) 2 with
    ses := { live.ses with
      active := true
      sid := 5
      atts := [attOn 0 .primary .declared, attOn 1 .standby .keyed] } }
/-- `twoPaths` in whose cycle a keepalive expiry has brought the failover, the former primary's CLOSE sent. -/
def failedNow : State := primarySilence twoPaths
theorem test_failover_reason : (sesFailover failedNow).ses.closeInfo.getD 0 (0, 0) = (CloseReason.host.code, 0) ∧
    ((sesFailover failedNow).port 0).unacked.any (fun u => u.pkt.hdr.ty == PType.close.code) = true ∧
    ((sesFailover failedNow).port 0).unacked.all (fun u => u.pkt.hdr.ty != PType.close.code ||
      byteAt u.pkt.hdr.tsf 0 == CloseReason.host.code) = true := by decide +kernel
theorem wit_session_requests : live.isOff R.SES_CTL = false ∧ live.standby = none ∧ twoPaths.isOff R.SES_CTL = false ∧
    twoPaths.standby = some 1 ∧ twoPaths.primary = some 0 ∧
    live.ses.failAt ≠ some live.clock ∧
    (failedNow.standby = none ∧ failedNow.ses.failAt = some failedNow.clock ∧ failedNow.isOff R.SES_CTL = false ∧
      (failedNow.att 0).any (fun a => a.closing.isSome && a.isPrimary && a.ports == [0]) = true ∧
      (failedNow.ses.closeInfo.getD 0 (0, 0)).1 = CloseReason.timeout.code ∧ 0 < failedNow.ses.closeInfo.length ∧
      (failedNow.port 0).unacked.all (fun u => u.firstAt == failedNow.ageNs) = true) := by decide +kernel
/-- `live` as an enabled head. -/
def enabledHead : State := live.fput F.CAS_CTL_EN true
theorem wit_cascade_requests : (enabledHead.isOff R.CAS_CTL = false ∧ enabledHead.isHead = true ∧ enabledHead.flag F.CAS_CTL_EN = true ∧
    enabledHead.enumerating = false) ∧ follower.isOff R.CAS_CTL = false ∧ follower.isHead = false := by decide +kernel

/-! Witnesses: mailboxes, job rings, power requests, resets and runs. -/

/-- `live` with box 0's IN or OUT full. -/
def boxFull : State := { live with
  boxes := modNth live.boxes 0 (fun b => { b with
    inMsg := some [1, 2, 3, 4, 5, 6, 7, 8]
    outMsg := some [1, 2, 3, 4, 5, 6, 7, 8]
    last := some (9, 9) }) }
/-- `live` in a cycle that discards what box 0's IN holds. -/
def clearedNow : State := { live with
  cyc := { live.cyc with
    cleared := [0] } }
/-- `live` where the last message taken is the composed one. -/
def boxRepeat : State := { live with
  boxes := modNth live.boxes 0 (fun b => { b with
    last := some (0, 0) }) }
theorem wit_host_sends : live.isOff R.MBX_HOST_CTL = false ∧ live.isOff (R.MBX_IN_DATA 253) = false ∧
    ((live.box 0).inMsg = none ∧ (live.box 0).last ≠ some (msgKey live.hostMsg) ∧ 0 ∉ live.cyc.cleared ∧ 0 ∈ clearedNow.cyc.cleared) ∧
    ((boxFull.box 0).inMsg.isSome = true ∧ (boxFull.box 0).last ≠ some (msgKey boxFull.hostMsg)) ∧
    (boxRepeat.box 0).last = some (msgKey boxRepeat.hostMsg) ∧ (boxFull.box 0).outMsg.isSome = true ∧ (live.box 0).outMsg = none := by
  decide +kernel
/-- `live` with ring 7 enabled. -/
def ringOn : State := live.fput (F.JOB_RING_CFG_EN 7) true
/-- The same, started in this cycle. -/
def ringStarts : State := { ringOn with
  cyc := { ringOn.cyc with
    starts := [.jobRing 7] } }
/-- The ring of 16 takes 16 descriptors and refuses 17. -/
theorem wit_job_ring : live.isOff (R.JOB_RING_TAIL 7) = false ∧ live.isOff (R.JOB_RING_BASE 7) = false ∧
    ((16 : BitVec 16).toNat + 65536 - live.fget (F.JOB_RING_HEAD_HEAD 7)) % 65536 ≤ live.ringSize 7 ∧
    live.ringSize 7 < ((17 : BitVec 16).toNat + 65536 - live.fget (F.JOB_RING_HEAD_HEAD 7)) % 65536 ∧
    live.ringStopped 7 = true ∧ ringOn.ringStopped 7 = false ∧ .jobRing 7 ∉ ringOn.cyc.starts ∧
    .jobRing (7 : Fin 8).val ∈ ringStarts.cyc.starts := by decide +kernel
/-- `live` at CRIT, and on its way to another state. -/
def critical : State := live.fset F.CAL_THERM_STAT_LEVEL 4
def moving : State := { live with
  pwr := { live.pwr with
    due := some 0 } }
theorem wit_power_requests : live.isOff R.PWR_STATE_REQ = false ∧ critical.runRefused = true ∧
    (live.runRefused = false ∧ (1 : BitVec 2).toNat = live.pstate ∧ live.pwr.due = none ∧ live.pwr.going = none) ∧
    (0 : BitVec 2).toNat ≠ live.pstate ∧ moving.pwr.due = some 0 := by decide +kernel
/-- The core in reset, from a pin reset and from a warm one. -/
def heldPin : State := { live with
  pwr := { live.pwr with
    core := false
    restart := some 1 } }
def heldWarm : State := { live with
  pwr := { live.pwr with
    core := false
    restart := some 4 } }
theorem wit_resets : live.pwr.por = false ∧ live.pwr.tripped = false ∧ live.pwr.restart = none ∧ live.flag F.CLK_STAT_REF_OK = true ∧
    live.pstate ≤ 1 ∧ (heldPin.pwr.restart = some 1 ∧ heldPin.flag F.PWD_SEQ_STAT_SAFE = true) ∧
    (heldWarm.pwr.restart = some 4 ∧ heldWarm.flag F.PWD_SEQ_STAT_SAFE = true) := by decide +kernel
/-- RESET_N low since POR was asserted. -/
def heldLow : State := { State.reset with
  pwr := { Pwr.reset with
    resetLow := true } }
theorem wit_power_on : State.reset.pwr.por = true ∧ State.reset.pwr.resetLow = false ∧ heldLow.pwr.por = true ∧ heldLow.pwr.resetLow = true ∧
    live.pwr.por = false ∧ live.pwr.tripped = false := by decide
/-- `live` of a follower's straps. -/
def strapFollower : State := { follower with
  straps := ⟨false, false, false⟩ }
/-- `live` between two timings. -/
def retuning : State := { live with
  lyr := { live.lyr with
    mode := .retune } }
theorem wit_block_resets : live.pwr.por = false ∧ strapFollower.straps.head = false ∧ live.tim.run = false ∧ running.tim.run = true ∧
    live.modeQuiet = false ∧ retuning.modeQuiet = true ∧
    live.heath.ledgerSave = none := by decide +kernel
/-- `live` with a calibration run asked for, and with one that runs. -/
def calAsked : State := { live.fput F.CAL_STAT_RUNNING true with
  cal := { live.cal with
    starting := true } }
def calRuns : State := (live.fput F.CAL_STAT_RUNNING true).fput F.CAL_STAT_QUEUED true
theorem wit_calibration : live.isOff R.CAL_CTL = false ∧ live.pstate ≤ 1 ∧ live.flag F.CAL_STAT_RUNNING = false ∧
    calAsked.cal.starting = true ∧ (calRuns.flag F.CAL_STAT_RUNNING = true ∧ calRuns.cal.starting = false) ∧
    (live.isOff R.MPHY_TRAIN_CTL = false ∧ live.flag F.DRV_CTL_RUN = false ∧ live.coreRuns = true) := by decide +kernel

/-! Witnesses: packets, the handshake and the session. -/

/-- `live` in RUN with its sessions open, two slots sized, an overlay buffer, and both ingest ports UP. -/
def open0 : State :=
  (((((((twoSets.fset F.PWR_STATE_STAT_STATE 0).fput F.SES_CTL_OPEN true).fset (F.ING_STAT_STATE 0) 2).fset (F.ING_STAT_STATE 1) 2).fset
    F.SWD_SLOT_CFG_SIZE0 4).fset F.SWD_SLOT_CFG_SIZE1 4).fset (F.MEM_REGION_BASE 6) 1).fset (F.MEM_REGION_SIZE 6) 64
/-- A packet in the clear. -/
def pkt (ty : Nat) (seq sid : Nat) (tsf payload : List Byte) : Pkt :=
  ⟨⟨ty, false, false, false, false, 0, payload.length, seq, 0, sid, padTo 12 tsf, 0⟩, payload, []⟩
/-- A state whose port 0 holds one packet, next to process. -/
def holding (s : State) (k : Pkt) (joined : Option Nat) : State :=
  s.modPort 0 (fun q => { q with
    held := [(k.hdr.seq, ⟨k, false, joined⟩)]
    rxNext := k.hdr.seq + 1
    procNext := k.hdr.seq
    uncovered := 1 })
/-- `open0` with session 5 and one attachment of it on port 0. -/
def sesWith (a : Att) : State := { open0 with
  ses := { open0.ses with
    active := true
    sid := 5
    atts := [a] } }
/-- The packet that a test holds. -/
def theHeld (s : State) : HeldPkt := (((s.port 0).held.head?).map Prod.snd).getD ⟨pkt 0 0 0 [] [], false, none⟩

/-- A HELLO and its bytes. -/
def helloPkt : Pkt := pkt 0x01 0 0 [1, 1] (List.replicate 32 0x5A)
theorem wit_round_trip : helloPkt.wf := by unfold Pkt.wf; decide +kernel
/-- The bytes of a HELLO with a bit of the CRC wrong. -/
def badBytes : List Byte := (helloPkt.encode.take 60) ++ ((helloPkt.encode.drop 60).map (fun b => b ^^^ 1))
/-- A primary in HELLO whose port has taken up to 4. -/
def inHello : State := (sesWith (attOn 0 .primary .hello)).modPort 0 (fun q => { q with
  rxNext := 4
  procNext := 4 })
theorem wit_packet_checks : live.portUp 0 = false ∧ open0.portUp 0 = true ∧ [(1 : Byte)].length < 36 ∧ framePkt badBytes = .badCrc ∧
    framePkt helloPkt.encode = .ok helloPkt ∧ helloPkt.hdr.unseq = false ∧
    (inHello.portUp 0 = true ∧ inHello.attOf 0 = some 0 ∧ inHello.att 0 = some (attOn 0 .primary .hello) ∧
      (attOn 0 .primary .hello).state ≠ .closed ∧ (inHello.port 0).already 0 = true) ∧
    (framePkt (pkt 0x02 4100 5 [] []).encode = .ok (pkt 0x02 4100 5 [] []) ∧ (inHello.port 0).already 4100 = false ∧
      4096 ≤ (inHello.port 0).above 4100 ∧ (inHello.port 0).above 4099 < 4096) ∧
    (open0.attOf 0 = none ∧ check4 false (leAt helloPkt.encode 0 4) helloPkt.hdr = true ∧ helloPkt.hdr.ty = 0x01 ∧ helloPkt.hdr.seq = 0 ∧
      (open0.port 0).held = [] ∧ byteAt helloPkt.hdr.tsf 1 ≠ 3) := by
  decide +kernel
/-- A session whose primary on port 0 is KEYED, and a bond HELLO on port 1 under a key that the device does not hold. -/
def keyedOne : State := sesWith (attOn 0 .primary .keyed)
def bondPkt : Pkt := ⟨⟨1, true, false, false, false, 2, 0, 0, 0, 5, padTo 12 [1, 3], 0⟩, [], List.replicate 16 0⟩
theorem wit_bond_check : keyedOne.portUp 1 = true ∧ framePkt bondPkt.encode = .ok bondPkt ∧ bondPkt.hdr.unseq = false ∧
    keyedOne.attOf 1 = none ∧ check4 false (leAt bondPkt.encode 0 4) bondPkt.hdr = true ∧ bondPkt.hdr.ty = 0x01 ∧ bondPkt.hdr.seq = 0 ∧
    (keyedOne.port 1).held = [] ∧ byteAt bondPkt.hdr.tsf 1 = 3 ∧ keyedOne.helloCheck 1 (leAt bondPkt.encode 0 4) bondPkt = none ∧
    keyedOne.primary = some 0 ∧ keyedOne.att 0 = some (attOn 0 .primary .keyed) ∧
    ((attOn 0 .primary .keyed).rx.find bondPkt.hdr.keyph).bind (fun u => openPkt u.2 1 bondPkt) = none := by decide +kernel

/-- States that hold a HELLO, a certificate fragment, and a key share or a FINISH of the right length and of another. -/
def holdHello : State := holding open0 helloPkt none
def holdCert : State := holding (sesWith (attOn 0 .primary .hello)) (pkt 0x02 1 5 [0, 1, 0, 0, 5, 0, 0, 0] [1, 2, 3, 4, 5]) none
def holdCertBad : State := holding (sesWith (attOn 0 .primary .hello)) (pkt 0x02 1 5 [0, 0, 0, 0, 5, 0, 0, 0] [1, 2, 3, 4, 5]) none
def holdShare (n : Nat) (a : Att) : State := holding (sesWith a) (pkt 0x03 2 5 [] (List.replicate n 4)) none
/-- An attachment whose certificate chain is whole. -/
def certified : Att := { attOn 0 .primary .hello with
  certs := [⟨0, 1, 5, 0, [1, 2, 3, 4, 5]⟩] }
/-- An attachment in AUTH that expects a FINISH. -/
def inAuth : Att := { attOn 0 .primary .auth with
  finS := List.replicate 48 6 }
def holdFinish (v : Byte) : State := holding (sesWith inAuth) (pkt 0x04 3 5 [] (List.replicate 48 v)) none
theorem wit_hello : holdHello.headOf 0 .hello = some (theHeld holdHello) ∧ holdHello.attOf 0 = none ∧ holdHello.ses.recent.length ≤ 16 ∧
    byteAt (theHeld holdHello).pkt.hdr.tsf 1 = 1 ∧
    holdHello.helloCheck 0 (leAt (theHeld holdHello).pkt.hdr.encode 0 4) (theHeld holdHello).pkt = none := by decide +kernel
theorem wit_cert : holdCert.attOf 0 = some 0 ∧ holdCert.att 0 = some (attOn 0 .primary .hello) ∧
    (attOn 0 .primary .hello).state ≠ .closed ∧ holdCert.headOf 0 .cert = some (theHeld holdCert) ∧ (attOn 0 .primary .hello).keyshare = none ∧
    byteAt (theHeld holdCert).pkt.hdr.tsf 1 = 1 ∧ byteAt (theHeld holdCert).pkt.hdr.tsf 0 < 1 ∧ leAt (theHeld holdCert).pkt.hdr.tsf 4 2 = 5 ∧
    leAt (theHeld holdCert).pkt.hdr.tsf 6 2 = 0 ∧ (theHeld holdCert).pkt.payload.length = min 4096 (5 - 0) ∧
    (∀ c ∈ (attOn 0 .primary .hello).certs, c.count = 1 ∧ (c.index = 0 → c.clen = 5)) ∧
    (holdCertBad.headOf 0 .cert = some (theHeld holdCertBad) ∧ byteAt (theHeld holdCertBad).pkt.hdr.tsf 1 = 0) := by decide +kernel
theorem wit_key_share : (∀ n ∈ [192, 193], (holdShare n certified).attOf 0 = some 0 ∧ (holdShare n certified).att 0 = some certified ∧
    (holdShare n certified).headOf 0 .keyshare = some (theHeld (holdShare n certified))) ∧
    (theHeld (holdShare 192 certified)).pkt.payload.length ≠ 193 ∧ (theHeld (holdShare 193 certified)).pkt.payload.length = 193 ∧
    certified.chain = some [[1, 2, 3, 4, 5]] ∧ (attOn 0 .primary .hello).chain = none := by decide +kernel
/-- A FINISH while box 1 still holds a message of before a reset. -/
def holdFinishMail : State := { holdFinish 6 with
  boxes := modNth (holdFinish 6).boxes 1 (fun b => { b with
    outMsg := some [0, 0, 1, 0, 4, 0, 2, 0] }) }
theorem wit_finish_mail : (holdFinishMail.box inAuth.box).outMsg.isSome = true ∧ ((holdFinish 6).box inAuth.box).outMsg = none ∧
    holdFinishMail.sendPort inAuth = 0 ∧ (holdFinishMail.port 0).unacked = [] ∧ (holdFinishMail.port 0).waiting = [] ∧
    holdFinishMail.attOf 0 = some 0 ∧ holdFinishMail.att 0 = some inAuth ∧
    holdFinishMail.headOf 0 .finish = some (theHeld (holdFinish 6)) := by decide +kernel
theorem wit_finish : (∀ v ∈ [6, 7], (holdFinish v).attOf 0 = some 0 ∧ (holdFinish v).att 0 = some inAuth ∧
    (holdFinish v).headOf 0 .finish = some (theHeld (holdFinish v))) ∧ inAuth.state ≠ .closed ∧ inAuth.role ≠ .standby ∧
    (theHeld (holdFinish 6)).pkt.payload = inAuth.finS ∧ (theHeld (holdFinish 7)).pkt.payload ≠ inAuth.finS := by decide +kernel

/-! Witnesses: the picture, commits, the server's commands and what the device sends. -/

/-- A layer record of a declaration: group 0, the whole panel at no slope. -/
def layerB (kind index w h : Nat) : List Byte :=
  padTo 48 (leBytes 4 (kind * 128 + index) ++ leBytes 2 w ++ leBytes 2 h ++ leBytes 8 0 ++ leBytes 2 0x1000 ++ leBytes 2 0x1000)
/-- A declaration of slot 0 in group 0: plane 3 of 512 by 16 and overlay 2 of 8 by 1. -/
def declB (release : Nat) : List Byte :=
  [0, 0, 1, 0, 1, 1, BitVec.ofNat 8 release] ++ List.replicate 9 0 ++ padTo 24 [] ++ layerB 0 3 512 16 ++ layerB 1 2 8 1
/-- The attachment of the tests that act in a session: a declared primary. -/
def prim : Att := attOn 0 .primary .declared
/-- A session of `prim`, and the same with slot 0 FILLING with `declB`. -/
def inSession : State := sesWith prim
def filling : State := { inSession with
  slots := modNth inSession.slots 0 (fun t => { t with
    phase := .filling
    sid := 5
    decl := some (readDecl (declB 0)) }) }
/-- A coded block of plane 3, band 0, column 0, wholly transparent. -/
def zeroBlock : List Byte := [0xB7, 1, 3, 0, 0x80, 0, 0, 0, 16, 0, 0, 0, 7, 0, 0, 0]
/-- `filling` with that block's one fragment on its way, or another plane's. -/
def blockIn (plane : Byte) : State := { filling with
  asms := [⟨0, 0x300, 0, 16, true, 1, zeroBlock.set 2 plane, [⟨0, 0, zeroBlock.set 2 plane, false⟩], [0]⟩] }
def holdBlock (plane : Byte) : State :=
  holding (blockIn plane) (pkt 0x11 9 5 [0, 0, 3, 0, 0, 0, 0, 0, 16, 0, 0] (zeroBlock.set 2 plane)) (some 1)
def holdDecl (release : Nat) (s : State) : State := holding s (pkt 0x10 9 5 [] (declB release)) none
def holdOverlay : State := holding filling (pkt 0x12 9 5 [0, 2, 0, 0, 0, 1] (List.replicate 32 0x33)) none
def holdFence (n : Byte) : State := holding inSession (pkt 0x13 9 5 [n, 0, 0, 0, 5] []) none
theorem wit_declare : (holdDecl 0 inSession).attOf 0 = some 0 ∧ (holdDecl 0 inSession).att 0 = some prim ∧
    (holdDecl 0 inSession).headOf 0 .declare = some (theHeld (holdDecl 0 inSession)) ∧
    ((((holdDecl 0 inSession).passHead 0).swardRead .corrected).2.declProcess (declB 0)).1 = none ∧
    bitOf (byteAt (declB 0) 6) 0 = false ∧ (holdDecl 0 inSession).slotCode 0 = 1 ∧
    ((((holdDecl 2 inSession).passHead 0).swardRead .corrected).2.declProcess (declB 2)).1 ≠ none ∧
    (holdDecl 2 inSession).headOf 0 .declare = some (theHeld (holdDecl 2 inSession)) := by decide +kernel
/-- A release has 16 bytes: the slot and the bit. -/
def releaseB : List Byte := [0, 0, 0, 0, 0, 0, 1] ++ List.replicate 9 0
def holdRelease : State := holding filling (pkt 0x10 9 5 [] releaseB) none
theorem wit_release : holdRelease.headOf 0 .declare = some (theHeld holdRelease) ∧ bitOf (byteAt releaseB 6) 0 = true ∧
    (((holdRelease.passHead 0).swardRead .corrected).2.declProcess releaseB).1 = none ∧ holdRelease.isFilling 0 = true := by decide +kernel
theorem wit_block : inSession.isFilling 0 = false ∧ (holdBlock 3).headOf 0 .block = some (theHeld (holdBlock 3)) ∧
    (holdBlock 3).isFilling (readBlkTsf (theHeld (holdBlock 3)).pkt.hdr.tsf).slot = true ∧
    (holdBlock 3).asmAt (readBlkTsf (theHeld (holdBlock 3)).pkt.hdr.tsf) =
      some ⟨0, 0x300, 0, 16, true, 1, zeroBlock, [⟨0, 0, zeroBlock, false⟩], [0]⟩ ∧ some 1 = (theHeld (holdBlock 3)).joined ∧
    (holdBlock 3).blockCheck { readBlkTsf (theHeld (holdBlock 3)).pkt.hdr.tsf with
      blen := 16 } zeroBlock true false false = none ∧
    (holdBlock 4).blockCheck { readBlkTsf (theHeld (holdBlock 4)).pkt.hdr.tsf with
      blen := 16 } (zeroBlock.set 2 4) true false false = some 0x25 := by decide +kernel
def holdBlockFree : State := holding inSession (pkt 0x11 9 5 [0, 0, 3, 0, 0, 0, 0, 0, 16, 0, 0] zeroBlock) none
theorem wit_block_free : holdBlockFree.headOf 0 .block = some (theHeld holdBlockFree) ∧
    holdBlockFree.isFilling (readBlkTsf (theHeld holdBlockFree).pkt.hdr.tsf).slot = false := by decide +kernel
/-- The overlay of `declB` and a packet of its one chunk. -/
def ovlLayer : LayerRec := ((filling.slot 0).overlayOf 2).getD planeRec
theorem wit_overlay : holdOverlay.headOf 0 .overlay = some (theHeld holdOverlay) ∧
    (filling.isFilling 0 = true ∧ (filling.slot 0).overlayOf 2 = some ovlLayer ∧ filling.isHead = true ∧ 0 < ovlLayer.place.h ∧
      0 + 1 ≤ chunksOf ovlLayer.place.w ∧ 1 ≤ (if ovlLayer.ofmt = 1 then 1 else 2) ∧
      (List.replicate 32 (0x33 : Byte)).length = chunkPixels ovlLayer.place.w 0 1 * (if ovlLayer.ofmt = 1 then 5 else 4)) ∧
    (let v := readOvlTsf (theHeld holdOverlay).pkt.hdr.tsf; (v.slot, v.ovl, v.row, v.chunk, v.nch) = (0, 2, 0, 0, 1)) ∧
    holdOverlay.inRegions [6] (holdOverlay.ovlAddr 0 2 0 0) 40 = true := by decide +kernel
theorem wit_fence_packet : (holdFence 63).headOf 0 .fence = some (theHeld (holdFence 63)) ∧ byteAt (theHeld (holdFence 63)).pkt.hdr.tsf 0 ≤ 63 ∧
    (theHeld (holdFence 63)).pkt.hdr.len = 0 ∧ (holdFence 63).flag F.CAS_CTL_SYSFENCE = false ∧
    (holdFence 64).headOf 0 .fence = some (theHeld (holdFence 64)) ∧ 63 < byteAt (theHeld (holdFence 64)).pkt.hdr.tsf 0 := by decide +kernel

/-! Witnesses: commits, the server's commands, what the device sends, and the session's timers. -/

/-- `filling` that holds a COMMIT of slot 0 with id 7, and one that names slot 1, which is FREE. -/
def holdCommit (slot : Byte) : State := holding filling (pkt 0x14 9 5 [] [7, 0, 0, 0, slot, 0xFF, 0, 0]) none
theorem wit_commit : (holdCommit 0).attOf 0 = some 0 ∧ (holdCommit 0).att 0 = some prim ∧ prim.role ≠ .promoted ∧
    (holdCommit 0).headOf 0 .commit = some (theHeld (holdCommit 0)) ∧ (holdCommit 0).slotSize 0 ≠ 0 ∧ (holdCommit 1).slotSize 1 ≠ 0 ∧
    (holdCommit 0).idRec 7 = none ∧ (holdCommit 0).newestId = none ∧ (holdCommit 0).isFilling 0 = true ∧
    (holdCommit 0).commitCheck4 (holdCommit 0).activeSet (((holdCommit 0).slot 0).decl.map Decl.tset) = none ∧
    (holdCommit 1).headOf 0 .commit = some (theHeld (holdCommit 1)) ∧ (holdCommit 1).isFilling 1 = false ∧
    (holdCommit 1).ses.active = true := by decide +kernel
/-- A commit of slot 0 that is complete, and the same where group 1 shows the declared plane. -/
def theCommit : Commit := ⟨0, 5, 7, some 0, 0, [(0, 0)], false, false, ⟨0, 9⟩⟩
def completes : State := { filling with
  lyr := { filling.lyr with
    commits := [theCommit]
    ids := [⟨7, .undecided, 0, 0, 1, []⟩]
    count := 1 }
  slots := modNth filling.slots 0 (fun t => { t with
    ovlGot := [(2, 0, 1)]
    rings := [(0x300, { t.ring 0x300 with
      rcvd := 1 })] }) }
def clashes : State := { completes with
  lyr := { completes.lyr with
    groups := setNth completes.lyr.groups 1 (some ⟨1, 5, 6, 0, [{ planeRec with
      index := 3 }]⟩) } }
theorem wit_commit_completion : completes.completing = some theCommit ∧ theCommit.slot = some 0 ∧ completes.isFilling 0 = true ∧
    completes.clash 0 = none ∧ (completes.poolTotals 0).1 ≤ 819 ∧ (completes.poolTotals 0).2 ≤ 102 ∧ completes.fallowShort 0 = none ∧
    clashes.completing = some theCommit ∧ clashes.isFilling 0 = true ∧ clashes.clash 0 ≠ none ∧ live.completing = none := by decide +kernel

/-- A CONTROL packet of one operation (1 a read, 2 a write) or of none. -/
def holdControl (n op : Byte) : State :=
  holding inSession (pkt 0x20 9 5 [n] (if n = 0 then [] else [op, 0, 0, 0] ++ leBytes 4 R.SYN_BG_COLOUR ++ leBytes 8 0x12345)) none
theorem wit_control_first : ∀ x, (holdControl 1 2).wroteNow x ≤ 2 := fun _ => Nat.zero_le 2
theorem wit_control : (∀ n ∈ [0, 1], ∀ op ∈ [1, 2], (holdControl n op).headOf 0 .control = some (theHeld (holdControl n op)) ∧
      byteAt (theHeld (holdControl n op)).pkt.hdr.tsf 0 = n.toNat ∧
      (n = 1 → ((((holdControl n op).passHead 0).swardRead .corrected).2.ctlCheck prim (theHeld (holdControl n op)).pkt.hdr.tsf
        (theHeld (holdControl n op)).pkt.payload = none ∧ byteAt (theHeld (holdControl n op)).pkt.payload 0 = op.toNat))) ∧
    (holdControl 1 2).attOf 0 = some 0 ∧ (holdControl 1 2).att 0 = some prim ∧ prim.state ≠ .closed ∧
    (theHeld (holdControl 1 2)).pkt.payload.length = 16 ∧
    opAddr (theHeld (holdControl 1 2)).pkt.payload = (BitVec.ofNat 32 R.SYN_BG_COLOUR).toNat ∧
    leAt (theHeld (holdControl 1 2)).pkt.payload 8 4 = (0x12345 : W32).toNat := by decide +kernel
/-- A mailbox message of 8 bytes and its header alone, to a box, into an IN that is empty or full. -/
def mailB (box : Byte) : List Byte := [0, 0, box, 0, 4, 0, 2, 0]
def holdMail (box : Byte) (full : Bool) : State :=
  holding { inSession with
    boxes := modNth inSession.boxes 1 (fun b => { b with
      inMsg := if full then some (mailB 1) else none }) } (pkt 0x21 9 5 [] (mailB box)) none
/-- A report of MSEQ 4, EPOCH 2 (or another) on the message in box 1's OUT. -/
def holdReport (seq : Byte) : State :=
  holding { inSession with
    boxes := modNth inSession.boxes 1 (fun b => { b with
      outMsg := some (mailB 1) }) } (pkt 0x21 9 5 [1, 3, seq, 0, 1, 0, 0, 0, 2, 0] []) none
/-- The fields of that report. -/
def tsfOf (seq : Byte) : List Byte := (theHeld (holdReport seq)).pkt.hdr.tsf
theorem wit_mail : (∀ k ∈ [(2, false), (1, false), (1, true)], (holdMail k.1 k.2).headOf 0 .mail = some (theHeld (holdMail k.1 k.2)) ∧
      byteAt (theHeld (holdMail k.1 k.2)).pkt.hdr.tsf 0 = 0 ∧ (theHeld (holdMail k.1 k.2)).pkt.payload = mailB k.1 ∧
      ((holdMail k.1 k.2).box 1).inMsg.isSome = k.2 ∧ ((holdMail k.1 k.2).box 1).last ≠ some (msgKey (mailB k.1)) ∧
      prim.box ∉ (holdMail k.1 k.2).cyc.cleared) ∧
    (mailB 1).length = 8 + msgLen (mailB 1) ∧ byteAt (mailB 2) 2 ≠ prim.box ∧ byteAt (mailB 1) 2 = prim.box := by decide +kernel
theorem wit_report : (∀ q ∈ [(4 : Byte), 5], (holdReport q).headOf 0 .mail = some (theHeld (holdReport q)) ∧
      ((holdReport q).box 1).outMsg = some (mailB 1)) ∧
    (tsfOf 4).take 5 = [1, 3, 4, 0, 1] ∧ (leAt (tsfOf 4) 8 2, leAt (tsfOf 4) 2 2) = msgKey (mailB 1) ∧
    (leAt (tsfOf 5) 8 2, leAt (tsfOf 5) 2 2) ≠ msgKey (mailB 1) := by decide +kernel
/-- A CLOSE with a reason, on an attachment. -/
def holdClose (r : Byte) (a : Att) : State := holding (sesWith a) (pkt 0x34 9 5 [r] []) none
theorem wit_close : (∀ r ∈ [0, 2, 3], ∀ a ∈ [prim, attOn 0 .standby .keyed, attOn 0 .primary .hello],
      (holdClose r a).headOf 0 .close = some (theHeld (holdClose r a)) ∧ (holdClose r a).attOf 0 = some 0 ∧
      byteAt (theHeld (holdClose r a)).pkt.hdr.tsf 0 = r.toNat) ∧
    prim.role ≠ .standby ∧ prim.keyedUp = true ∧ prim.state ≠ .draining ∧ (attOn 0 .primary .hello).keyedUp = false := by decide +kernel

/-! Witnesses: what the device sends, and the session's timers. -/

/-- `inSession` with a packet taken and not acknowledged, and one taken beyond a gap. -/
def ackDue : State := inSession.modPort 0 (fun q => { q with
  uncovered := 1 })
def gapped : State := inSession.modPort 0 (fun q => { q with
  rxNext := 4
  procNext := 4
  held := [(6, ⟨pkt 0x33 6 5 [] [], false, none⟩)] })
/-- `inSession` with one packet of the device not acknowledged, sent 15 times again or none. -/
def unacked (n : Nat) : State := inSession.modPort 0 (fun q => { q with
  txNext := 8
  unacked := [⟨pkt 0x32 7 5 [] [], n, 0⟩] })
/-- `inSession` with a grant and a record to send. -/
def grantDue : State := { inSession with
  ses := { inSession.ses with
    grants := [(0, 0x300)]
    atts := [{ prim with
      queue := [.device 3 0] }] } }
theorem wit_device_sends : ackDue.portUp 0 = true ∧ 0 < (ackDue.port 0).uncovered ∧ (inSession.port 0).uncovered = 0 ∧
    live.portUp 0 = false ∧ gapped.portUp 0 = true ∧ (gapped.port 0).beyond = [2] ∧ (inSession.port 0).beyond = [] ∧
    (∀ n ∈ [0, 15], (unacked n).portUp 0 = true ∧ (((unacked n).port 0).unacked.find? (fun u => u.pkt.hdr.seq == (7 : W32).toNat)).map SentPkt.tries = some n) ∧
    ((unacked 0).port 0).unacked.find? (fun u => u.pkt.hdr.seq == (8 : W32).toNat) = none := by decide +kernel
theorem wit_device_queues : grantDue.primary = some 0 ∧ (grantDue.att 0).map Att.keyed = some true ∧ grantDue.ses.grants ≠ [] ∧
    (grantDue.att 0).map Att.isOpen = some true ∧ (grantDue.att 0).map Att.queue = some [.device 3 0] ∧
    (grantDue.port 0).unacked.length < 256 ∧ (grantDue.port 0).waiting = [] ∧ grantDue.portUp 0 = true ∧
    grantDue.fget (F.ING_STAT_STATE 0) ≠ 0 := by decide +kernel
/-- Attachments for the timers: one closed with its CLOSE outstanding, one whose REKEY record has been sent, one DEGRADED, one
DRAINING. -/
def attClosing : Att := { attOn 0 .primary .closed with
  closing := some (0, 3) }
def attDue : Att := { prim with
  rx := { prim.rx with
    dueSent := true } }
def attDegraded : Att := { attOn 0 .primary .degraded with
  silent := true
  resume := .declared
  keyed := true }
def attDraining : Att := { attOn 0 .primary .draining with
  keyed := true }
/-- An attachment whose sending key is in a later phase, and its port with a packet of the phase before not acknowledged. -/
def attPhase : Att := { prim with
  tx := { prim.tx with
    phase := 2 } }
def rekeyWaits : State := (sesWith attPhase).modPort 0 (fun q => { q with
  unacked := [⟨⟨⟨0x32, true, false, false, false, 1, 0, 7, 0, 5, padTo 12 [], 0⟩, [], List.replicate 16 0⟩, 0, 0⟩] })
/-- A drained session, and one with a commit that waits. -/
def drainWaits : State := { sesWith attDraining with
  lyr := { open0.lyr with
    commits := [theCommit] } }
/-- A standby in its own session. -/
def onlyStandby : State := sesWith (attOn 0 .standby .keyed)
theorem wit_session_timers : (∀ a ∈ [attOn 0 .primary .hello, prim, attClosing, attDue, attDegraded, attDraining],
      (sesWith a).attOf 0 = some 0 ∧ (sesWith a).att 0 = some a) ∧
    prim.state ≠ .hello ∧ prim.state ≠ .auth ∧ attClosing.closing.isSome = true ∧ prim.closing = none ∧ prim.keyed = true ∧
    prim.isOpen = true ∧ prim.tx.phase = 0 ∧ prim.rx.dueSent = false ∧ attDue.rx.dueSent = true ∧ attDue.keyed = true ∧
    (attOn 0 .primary .hello).keyed = false ∧
    ((sesWith attPhase).attOf 0 = some 0 ∧ (sesWith attPhase).att 0 = some attPhase ∧ attPhase.keyed = true ∧ attPhase.isOpen = true ∧
      0 < attPhase.tx.phase ∧ (∀ q ∈ attPhase.ports, ((sesWith attPhase).port q).unacked = []) ∧ rekeyWaits.attOf 0 = some 0 ∧
      rekeyWaits.att 0 = some attPhase ∧ 0 ∈ attPhase.ports ∧
      (rekeyWaits.port 0).unacked.map (fun u => (u.pkt.hdr.auth, u.pkt.hdr.keyph)) = [(true, (attPhase.tx.phase + 3) % 4)]) := by decide +kernel
/-- `twoPaths` in the cycle of a failover. -/
def failedOver : State := { twoPaths with
  ses := { twoPaths.ses with
    failAt := some twoPaths.clock } }
/-- `twoPaths` in a cycle in which a packet of the primary has counted. -/
def heardNow : State := { twoPaths with
  cyc := { twoPaths.cyc with
    heard := [0] } }
theorem wit_silence : (heardNow.primary = some 0 ∧ heardNow.att 0 = some prim ∧ (∃ q ∈ prim.ports, q ∈ heardNow.cyc.heard) ∧
      (∀ q ∈ prim.ports, q ∉ twoPaths.cyc.heard ∧ q ∉ inSession.cyc.heard)) ∧ twoPaths.primary = some 0 ∧ twoPaths.att 0 = some prim ∧ prim.keyedUp = true ∧ prim.state ≠ .draining ∧
    twoPaths.standby = some 1 ∧ inSession.primary = some 0 ∧ inSession.standby = none ∧ prim.silent = false ∧
    (sesWith attDegraded).primary = some 0 ∧ attDegraded.state = .degraded ∧ attDegraded.silent = true ∧ live.primary = none ∧
    onlyStandby.standby = some 0 ∧ ((sesWith attDraining).attWhere (fun b => b.state == .draining)) = some 0 ∧
    twoPaths.ses.failAt ≠ some twoPaths.clock ∧ failedOver.ses.failAt = some failedOver.clock ∧ failedOver.primary = some 0 ∧
    (sesWith attDraining).drained = true ∧ (drainWaits.attWhere (fun b => b.state == .draining)) = some 0 ∧ drainWaits.drained = false := by
  decide +kernel

/-! Witnesses: the latch row, the mode change and the Fallow cache. -/

/-- An accepted commit of a HELD slot 0, ready to land. -/
def landing : State := { completes with
  tim := { completes.tim with
    run := true }
  lyr := { completes.lyr with
    commits := [{ theCommit with
      accepted := true }] }
  slots := modNth completes.slots 0 (fun t => { t with
    phase := .held }) }
theorem wit_latch : live.lyr.mode = .idle ∧ live.tim.run = false ∧ live.tim.restart = false ∧
    (running.tim.run = true ∧ running.isHead = true ∧ running.fget F.CAS_STAT_STATE ≠ 6 ∧ running.cas.bcHold = [] ∧
      running.cas.setReq = none ∧ running.lyr.commits = []) ∧
    (landing.lyr.mode = .idle ∧ landing.tim.run = true ∧ landing.isHead = true ∧ landing.fget F.CAS_STAT_STATE ≠ 6 ∧
      landing.lyr.commits.length = 1 ∧ theCommit.tset = landing.activeSet ∧ landing.lyr.modeCommit = none ∧ landing.lyr.jobs = [] ∧
      landing.fencesReached { theCommit with
        accepted := true } 0 = true ∧ landing.contentOf 0 0 ≠ []) := by decide +kernel
/-- `running` with every swap pending and a start or a stop of SYN and DRV held, which a latch row of another cycle takes; and the
same asked for in the latch row's own cycle. -/
def requested (v now good : Bool) : State := { (((running.fput F.SYN_COEF_CTL_PEND true).fput F.COL_LUT_CTL_PEND true).fput
    F.EMC_MAP_CTL_PEND true |>.fput F.SYN_CTL_PEND true |>.fput F.DRV_CTL_PEND true |>.fput F.DRV_LEDGER_CFG_READY good
    |>.fset F.SYN_LEAD_CFG_LEAD (if good then 8 else 7) |>.fput F.SYN_CTL_RUN (!v) |>.fput F.DRV_CTL_RUN (!v)) with
  lyr := { running.lyr with
    heldSyn := some v
    heldDrv := some v }
  cyc := { running.cyc with
    asked := if now then [R.SYN_CTL, R.DRV_CTL, R.SYN_COEF_CTL, R.COL_LUT_CTL, R.EMC_MAP_CTL] else [] } }
theorem wit_latch_requests : ∀ v ∈ [true, false], ∀ now ∈ [true, false], ∀ good ∈ [true, false],
    (requested v now good).tim.run = true ∧ (requested v now good).isHead = true ∧ (requested v now good).fget F.CAS_STAT_STATE ≠ 6 ∧
    (requested v now good).lyr.mode = .idle ∧ (requested v now good).lyr.heldSyn.isSome = true ∧
    (requested v now good).askedNow R.SYN_CTL = now ∧ (requested v now good).flag F.EMC_MAP_CTL_PEND = true ∧
    (requested v now good).cas.bcHold = [] ∧ (requested v now good).cas.setReq = none := by decide +kernel
/-- A commit whose group 15 has waited to its end, and one that has a turn to go. -/
def waited (w : Nat) : State := { landing with
  lyr := { landing.lyr with
    commits := [{ theCommit with
      accepted := true
      groups := [(15, w)] }]
    waited := [(theCommit.key, 15)] } }
/-- The same, held by its job at that latch row. -/
def heldBack : State := { waited 60000 with
  lyr := { (waited 60000).lyr with
    waited := [] } }
/-- The repeats of each part of R121. -/
def repeated (n : Nat) : State := { running.fset F.LYR_REPEAT_STAT_COUNT n with
  lyr := { running.lyr with
    repeatCfg := (((running.fput F.LYR_REPEAT_CFG_ACTION true).fset F.LYR_REPEAT_CFG_REPEAT_MAX 10).fset
      F.LYR_REPEAT_CFG_FADE_TURNS 4).rget R.LYR_REPEAT_CFG } }
def inMode (m : ModePhase) : State := { twoSets with
  tim := { twoSets.tim with
    parked := false }
  lyr := { twoSets.lyr with
    mode := m
    modeTarget := 2 } }
/-- A follower after a rejoin's quiet turns, in a state of CAS. -/
def rejoins (st : Nat) : State := { ((inMode .ready).fput F.CAS_STAT_HEAD false).fset F.CAS_STAT_STATE st with
  tim := { (inMode .ready).tim with
    restart := true } }
theorem wit_latch_timers : (waited 60000).lyr.fenceLim ≤ 60000 ∧
    (waited 60000).lyr.commits = [{ theCommit with
      accepted := true
      groups := [(15, 60000)] }] ∧ (waited 60000).lyr.modeCommit = none ∧ (theCommit.key, (15 : Fin 16).val) ∈ (waited 60000).lyr.waited ∧
    heldBack.lyr.waited = [] ∧
    (∀ c ∈ (waited 0).lyr.commits, ∀ e ∈ c.groups, e.1 = 15 → e.2 < (waited 0).lyr.fenceLim) ∧
    (inMode .retune).lyr.mode = .retune ∧ live.lyr.mode ≠ .retune ∧ live.lyr.mode ≠ .ready ∧ (inMode .ready).lyr.mode = .ready ∧
    (inMode .ready).tim.parked = false ∧ live.tim.parked = true ∧ (inMode .ready).tim.restart = false ∧
    ((rejoins 3).lyr.mode = .ready ∧ (rejoins 3).tim.parked = false ∧ (rejoins 3).fget F.CAS_STAT_STATE = 3) ∧
    ((rejoins 6).tim.restart = true ∧ (rejoins 6).fget F.CAS_STAT_STATE ≠ 3) ∧
    ((inMode .ready).tsetOf (inMode .ready).lyr.modeTarget).map TSet.tset = some 2 ∧
    (∀ n ∈ [10, 11, 13, 14], fieldOf (repeated n).lyr.repeatCfg F.LYR_REPEAT_CFG_ACTION = 1 ∧
      fieldOf (repeated n).lyr.repeatCfg F.LYR_REPEAT_CFG_REPEAT_MAX = 10 ∧ (repeated n).fget F.LYR_REPEAT_STAT_COUNT = n ∧
      fieldOf (repeated n).lyr.repeatCfg F.LYR_REPEAT_CFG_FADE_TURNS = 4) := by decide +kernel
/-- A job of Fallow entry 9 with one member or two, waiting or running. -/
def fallowJob (started : Bool) (members : List LayerRec) : State := { landing with
  lyr := { landing.lyr with
    entries := [⟨9, 0, none, none, 0, 0⟩]
    jobs := [⟨9, 0, 0, members, 4, started, false⟩] } }
/-- The plane of `declB`, and a small one. -/
def plane3 : LayerRec := ((filling.slot 0).decl.bind (fun d => d.layers.head?)).getD planeRec
theorem wit_fallow : (fallowJob false [plane3]).nextJob = some ⟨9, 0, 0, [plane3], 4, false, false⟩ ∧ live.nextJob = none ∧
    (fallowJob true [plane3]).runningJob = some ⟨9, 0, 0, [plane3], 4, true, false⟩ ∧
    live.isOff R.LYR_FALLOW_DROP = false ∧ (6 : W32) ≠ 0 ∧
    (fallowJob true [plane3, plane3]).runningJob = some ⟨9, 0, 0, [plane3, plane3], 4, true, false⟩ ∧ live.runningJob = none := by
  decide +kernel

/-! Witnesses: row slots, synthesis and the panel. -/

/-- TIM running before slot `q` with port 2 running and the rails in RUN, and the clusters past row 8. -/
def beforeSlot (q : Nat) : State :=
  { ((railsRun.fset (F.PL_STAT_STATE 2) 3).fset F.PWD_SEQ_STAT_STATE 2).fput (F.PL_CTL_RB_EN 2) true with
    tim := { railsRun.tim with
      slot := q - 1 }
    syn := { railsRun.syn with
      clusters := List.replicate 128 ⟨8, 0⟩ } }
theorem wit_row_slots : live.tim.run = false ∧ (∀ q ∈ [7, 17280], (beforeSlot q).tim.run = true ∧
      ((beforeSlot q).tim.slot + 1) % (beforeSlot q).tab.timing.slots = q ∧ (beforeSlot q).plLive 2 = true ∧ (beforeSlot q).plLive 3 = false ∧
      (beforeSlot q).flag (F.PL_CTL_RB_EN 2) = true ∧ max 1 ((beforeSlot q).fget (F.PL_RB_CFG_THRESH 2)) ≤ 1050 ∧
      (beforeSlot q).fget (F.PL_STAT_STATE 2) = 3 ∧ (beforeSlot q).laneFailed 2 16 = false) ∧
    (7 < (beforeSlot 7).tab.geom.hp ∧ (beforeSlot 7).tab.geom.hp = 17280 ∧
      ∀ g ∈ List.range 128, 7 < ((beforeSlot 7).syn.clusters.getD g ⟨0, 0⟩).next) := by decide +kernel
/-- `live` with port 2 in TS-B. -/
def linkTraining : State := live.modPl 2 (fun q => { q with
  stage := .tsb })
/-- `beforeSlot 7` where lane 3 of port 2 is restored at the row start that comes. -/
def startsRow : State := (beforeSlot 7).modPl 2 (fun q => { q with
  start := some ⟨[], 0, 0, [], [3]⟩ })
theorem wit_row_start : (startsRow.plPort 2).start = some ⟨[], 0, 0, [], [3]⟩ ∧ (16 : Fin 17).val ∉ [3] ∧ startsRow.tim.run = true ∧
    ((beforeSlot 7).plPort 2).start = none := by decide +kernel
theorem wit_slot_training : linkTraining.tim.run = false ∧ linkTraining.bcTrains 2 = true ∧ (∀ k ∈ List.range 8, live.bcTrains k = false) ∧
    (beforeSlot 17280).tab.geom.hp ≤ 17280 := by decide +kernel
/-- `live` with lane 16 of port 2 retraining. -/
def retraining (r : Retrain) : State := live.modPl 2 (fun q => { q with
  retry := [⟨16, r, false⟩] })
theorem wit_lane_retrain : (∀ r ∈ [Retrain.presence, .tsa], ((retraining r).plPort 2).retry.find? (fun r => r.lane == (16 : Fin 17).val) =
    some ⟨16, r, false⟩) ∧ (live.plPort 2).retry.find? (fun r => r.lane == (16 : Fin 17).val) = none := by decide +kernel
/-- Row data all in time. -/
def rowInTime : RowData := ⟨false, .clean, false, .clean⟩
/-- A twin's partner that has lost its pair. -/
def lonePair : State := { beforeSlot 7 with
  cas := { live.cas with
    pairLost := true } }
theorem wit_synthesis : (beforeSlot 7).tim.run = true ∧ (127 : Fin 128).val < (beforeSlot 7).tab.geom.ng ∧
    ((beforeSlot 7).syn.clusters.getD 127 ⟨0, 0⟩).next < (beforeSlot 7).tab.geom.hp ∧ (beforeSlot 7).tab.drvRun = false ∧
    live.tim.run = false ∧ railsRun.seqRun = false ∧ lonePair.cas.pairLost = true := by decide +kernel
/-- A coded block of plane 3: 32 EMPTY sub-tiles (R49). -/
def emptyTiles : List Byte := [0xB7, 1, 3, 0, 0, 0, 0, 0, 24, 0, 0, 0, 7, 0, 0, 0] ++ List.replicate 8 0
theorem test_empty_tiles : decodeBlock [] emptyTiles = .ok clearBlock := by decide +kernel
/-- Plane 3 with the height of a whole plane: its band 5 waits until bands 0 to 4 are done with. -/
def tallPlane : LayerRec := { plane3 with
  place := { plane3.place with
    h := 1728 } }
def showingTall : State := { landing with
  tab := { landing.tab with
    geom := { landing.tab.geom with
      hp := 400 } }
  lyr := { landing.lyr with
    layerSet := [⟨tallPlane, .slot 0⟩] }
  syn := { landing.syn with
    order := [(0, 5, 0)] } }
/-- A turn that shows plane 3 of slot 0, its block 0 stored or absent, and overlay 2; the block is next in the decode order or in a
decoder. -/
def showing (stored : Bool) (order : List (Nat × Nat × Nat)) (dec : Option (Nat × Nat × Nat)) : State := { landing with
  tab := showingTall.tab
  lyr := { landing.lyr with
    layerSet := [⟨plane3, .slot 0⟩, ⟨ovlLayer, .slot 0⟩] }
  slots := modNth landing.slots 0 (fun t => { t with
    rings := if stored then [(0x300, { t.ring 0x300 with
      alloc := true
      dirBase := 0x3000
      rcvd := 1 })] else []
    dir := [(0x3000, ⟨false, false, 4096, readBlockHdr emptyTiles, 0, emptyTiles⟩)] })
  syn := { landing.syn with
    order := order
    decoders := setNth landing.syn.decoders 0 dec } }
theorem wit_decode_assign : live.syn.order = [] ∧ (showing true [(0, 0, 0)] none).syn.order = (0, 0, 0) :: [] ∧
    (showing true [(0, 0, 0)] none).layerAt 0 = some ⟨plane3, .slot 0⟩ ∧ (showing true [(0, 0, 0)] none).bandHeld plane3 0 = true ∧
    (showing false [(0, 0, 0)] none).blockSrc ⟨plane3, .slot 0⟩ 0 0 = none ∧
    (showing true [(0, 0, 0)] none).blockSrc ⟨plane3, .slot 0⟩ 0 0 =
      some ⟨⟨false, false, 4096, readBlockHdr emptyTiles, 0, emptyTiles⟩, none, none⟩ ∧
    (showing true [(0, 0, 0)] (some (0, 0, 1))).syn.decoders.findIdx? (fun x => x.isNone) = some 1 ∧
    showingTall.syn.order = (0, 5, 0) :: [] ∧ showingTall.bandHeld tallPlane 5 = false := by
  decide +kernel
/-- The turn of `showing` whose block 0 has got DERR while a decoder works on it. -/
def derrNow : State := { showing true [] (some (0, 0, 0)) with
  slots := modNth (showing true [] none).slots 0 (fun t => { t with
    dir := [(0x3000, ⟨false, true, 4096, readBlockHdr emptyTiles, 0, emptyTiles⟩)] }) }
theorem wit_decode_derr : derrNow.syn.decoders.getD 0 none = some (0, 0, 0) ∧ derrNow.layerAt 0 = some ⟨plane3, .slot 0⟩ ∧
    derrNow.blockSrc ⟨plane3, .slot 0⟩ 0 0 = some ⟨⟨false, true, 4096, readBlockHdr emptyTiles, 0, emptyTiles⟩, none, none⟩ ∧
    derrNow.syn.late.contains (0, 0, 0) = false := by decide +kernel
theorem wit_decode_done : live.syn.decoders.getD 0 none = none ∧ (showing true [] (some (0, 0, 0))).syn.decoders.getD 0 none = some (0, 0, 0) ∧
    (showing true [] (some (0, 0, 0))).layerAt 0 = some ⟨plane3, .slot 0⟩ ∧
    (showing true [] (some (0, 0, 0))).blockSrc ⟨plane3, .slot 0⟩ 0 0 =
      some ⟨⟨false, false, 4096, readBlockHdr emptyTiles, 0, emptyTiles⟩, none, none⟩ ∧
    (showing true [] (some (0, 0, 0))).syn.late.contains (0, 0, 0) = false ∧ (readBlockHdr emptyTiles).zero = false ∧
    (showing true [] (some (0, 0, 0))).codeTabs = [] := by decide +kernel
theorem wit_prefetch : (showing true [] none).lyr.layerSet.findIdx? (fun x => x.layer.overlay && x.layer.index == (2 : Fin 8).val) = some 1 ∧
    (showing true [] none).layerAt 1 = some ⟨ovlLayer, .slot 0⟩ ∧ (0 : BitVec 8).toNat < nbandOf ovlLayer.place.h ∧
    (showing true [] none).syn.ovl.any (fun o => o.layer == 1 && o.band == (0 : BitVec 8).toNat) = false ∧
    (showing true [] none).bandHeld ovlLayer (0 : BitVec 8).toNat = true ∧
    (∀ j ∈ List.range 1, (showing true [] none).inRegions [6, 7] ((showing true [] none).ovlAddr 0 ovlLayer.index j 0)
      (5 * ovlLayer.place.w) = true) ∧ min 16 (ovlLayer.place.h - 0) = 1 ∧
    live.lyr.layerSet.findIdx? (fun x => x.layer.overlay && x.layer.index == (2 : Fin 8).val) = none := by decide +kernel
/-- The turn of `showing` with every decoder busy, each with a block fetched ahead or none. -/
def busy (ahead : Bool) : State := { showing true [(0, 0, 0)] none with
  syn := { (showing true [(0, 0, 0)] none).syn with
    decoders := List.replicate 32 (some (0, 0, 1))
    ahead := List.replicate 32 (if ahead then some (0, 0, 1) else none) } }
/-- A decoder's block with other bytes, or of a Fallow plane, HBM serving or training. -/
def decoding (bytes : List Byte) : State := { showing true [] (some (0, 0, 0)) with
  slots := modNth (showing true [] none).slots 0 (fun t => { t with
    dir := [(0x3000, ⟨false, false, 4096, readBlockHdr emptyTiles, 0, bytes⟩)] }) }
def fallowPlane : FallowGen := ⟨plane3, [(0, 0, ⟨false, false, 0, readBlockHdr emptyTiles, 0, emptyTiles⟩)], [], [0]⟩
def decodingFallow (trains : Nat) : State := { (showing true [] (some (0, 0, 0))).fset F.MPHY_TRAIN_STAT_STATE trains with
  lyr := { landing.lyr with
    layerSet := [⟨plane3, .fallow fallowPlane⟩, ⟨ovlLayer, .slot 0⟩] } }
theorem wit_decoders_busy : (busy false).freeDecoder = some (0, true) ∧ (busy true).freeDecoder = none ∧
    (showing true [(0, 0, 0)] (some (0, 0, 1))).freeDecoder = some (1, false) ∧ 0 < ncolOf plane3.place.w := by decide +kernel
theorem test_block_kinds : decodeBlock [] (emptyTiles.take 20) = .overrun ∧ decodeBlock [] (emptyTiles.set 8 25 ++ [0]) = .trailing := by
  decide +kernel
theorem wit_fallow_decode : (∀ n ∈ [0, 1], (decodingFallow n).syn.decoders.getD 0 none = some (0, 0, 0) ∧
      (decodingFallow n).layerAt 0 = some ⟨plane3, .fallow fallowPlane⟩ ∧
      (decodingFallow n).blockSrc ⟨plane3, .fallow fallowPlane⟩ 0 0 =
        some ⟨⟨false, false, 0, readBlockHdr emptyTiles, 0, emptyTiles⟩, some fallowPlane, none⟩) ∧
    (decodingFallow 0).hbmTrains = false ∧ (decodingFallow 1).hbmTrains = true := by decide +kernel

/-! Witnesses: the back-channel, panel training and the rails. -/

/-- A back-channel frame of driver `d` (R198): its 36 bits between header and check. -/
def frameOf (d lk temp : Nat) : List Bool :=
  let c := bitsMsb 4 d ++ bitsMsb 2 lk ++ bitsMsb 20 0 ++ bitsMsb 10 temp
  List.replicate 8 false ++ bitsMsb 4 0xC ++ c ++ bitsMsb 8 (crcMsb 8 0x07 0 c)
/-- Port 2 running in an active row, with failures or restorations due, or after row 0's slot. -/
def linkActive (fails : List (Nat × Nat)) (restore : List Nat) : State := (beforeSlot 7).modPl 2 (fun q => { q with
  fails := fails
  restore := restore })
def laneRestored : State := (linkActive [] [16]).fput (F.PL_LANE_STAT_FAILED 2 16) true
/-- A failure of lane 2 and the restoration of lane 3 at one row start. -/
def bothDue : State := (linkActive [(2, 3)] [3]).fput (F.PL_LANE_STAT_FAILED 2 3) true
theorem wit_row_start_order : bothDue.rowStartNext = true ∧ (bothDue.plPort 2).start = none ∧ (bothDue.plPort 2).fails = [((2 : Fin 17).val, 3)] ∧
    bothDue.laneFailed 2 2 = false ∧ (bothDue.plPort 2).restore = [(3 : Fin 17).val] ∧ ((linkActive [(0, 7)] []).plPort 2).start = none ∧
    (laneRestored.plPort 2).start = none := by decide +kernel
theorem wit_back_channel : live.bcRow 2 = false ∧ (linkActive [] []).bcRow 2 = true ∧ readFrame [] = none ∧
    linkTraining.bcRow 2 = false ∧ linkTraining.bcTrains 2 = true ∧ live.bcTrains 2 = false ∧
    (readFrame (frameOf 6 1 100)).map (fun f => f.drv) = some 6 ∧
    (readFrame (frameOf 5 1 100)).map (fun f => (f.drv, f.lk0, f.temp)) = some (5, false, 100) ∧ live.rowStartNext = false ∧
    (∀ c ∈ [0, 7], (linkActive [(0, c)] []).rowStartNext = true ∧ ((linkActive [(0, c)] []).plPort 2).fails = [((0 : Fin 17).val, c)] ∧
      (linkActive [(0, c)] []).laneFailed 2 0 = false ∧ (linkActive [(0, c)] []).flag (F.PL_STAT_SPARE_USED 2) = false ∧
      (linkActive [(0, c)] []).laneGroup 2 0 = some 0) ∧
    laneRestored.rowStartNext = true ∧ (laneRestored.plPort 2).restore = [(16 : Fin 17).val] ∧ (laneRestored.plPort 2).fails = [] := by
  decide +kernel
/-- No lane of the port has failed. -/
theorem wit_no_lane_failed : ∀ k ∈ List.range 17, (linkActive [(0, 7)] []).laneFailed 2 k = false := by decide +kernel
/-- Port 2 in a stage of its training, with the reports of all sixteen drivers or of none. -/
def inStage (st : PlStage) (reps : List TrainRep) : State :=
  ((List.range 17).foldl (fun s l => s.fput (F.PL_LANE_STAT_PRESENT 2 l) true) (live.fset (F.PL_STAT_STATE 2) 1)).modPl 2 (fun q => { q with
    stage := st
    reps := reps })
def allStraight : List TrainRep := (List.range 16).map (fun i => ⟨i, true, true, i⟩)
def allReversed : List TrainRep := (List.range 16).map (fun i => ⟨i, true, true, 16 - i⟩)
/-- Reports of driver 2 alone at the limit, and reports that mix a straight port with a reversed one. -/
def oneReport (l : Nat) : List TrainRep := [⟨2, true, true, l⟩]
def mixedReports : List TrainRep := [⟨2, true, true, 2⟩, ⟨5, true, true, 11⟩]
theorem wit_stage_limit : ((inStage .tsb (oneReport 14)).plPort 2).phase3 ≠ [] ∧ ((inStage .tsb (oneReport 14)).plPort 2).straight = false ∧
    ((inStage .tsb (oneReport 14)).plPort 2).reversed = true ∧ ((inStage .tsb (oneReport 2)).plPort 2).straight = true ∧
    ((inStage .tsb mixedReports).plPort 2).straight = false ∧ ((inStage .tsb mixedReports).plPort 2).reversed = false ∧
    ((inStage .tsb mixedReports).plPort 2).phase3 ≠ [] ∧ ((inStage .reversal (oneReport 14)).plPort 2).stage = .reversal := by decide +kernel
theorem wit_training : ((inStage .presence []).plPort 2).stage = .presence ∧ (live.plPort 2).stage ≠ .presence ∧
    ((inStage .tsa []).plPort 2).stage = .tsa ∧ (live.plPort 2).stage ≠ .tsa ∧ (live.plPort 2).stage ≠ .tsb ∧
    (live.plPort 2).stage ≠ .reversal ∧ ((inStage .reversal []).plPort 2).phase3 = [] ∧
    (∀ l ∈ [allStraight, allReversed], ((inStage .tsb l).plPort 2).stage = .tsb ∧ ((inStage .tsb l).plPort 2).reps ≠ [] ∧
      ∀ i ∈ List.range 16, ((inStage .tsb l).plPort 2).reps.any (fun r => r.drv == i && r.up0 && r.up1) = true) ∧
    ((inStage .tsb allStraight).plPort 2).straight = true ∧ ((inStage .tsb allReversed).plPort 2).straight = false ∧
    ((inStage .tsb allReversed).plPort 2).reversed = true := by decide +kernel
/-- The sequencer at a position with rails started, TIM running or not, and every rail good or none. -/
def seqAt (pos : SeqPos) (started : List Nat) (good : Bool) : State := { live.fset F.PWD_SEQ_STAT_PG (if good then 15 else 0) with
  pwd := { live.pwd with
    pos := pos
    started := started } }
/-- The same, with EXT_PG high. -/
def seqExt (pos : SeqPos) (started : List Nat) (good : Bool) : State := (seqAt pos started good).fput F.PWD_SEQ_STAT_EXT_PG true
/-- The rails up before the last step of bring-up. -/
def upEarly : State := (seqAt .release [0, 1, 2, 3] true).bootTo 1 3
theorem wit_rails_up : (∀ n ∈ [0, 3], (seqAt (.ramp n) (List.range (n + 1)) false).pwd.pos = .ramp n ∧
      (seqAt (.ramp n) (List.range (n + 1)) false).pwd.started.contains n = true) ∧ live.pwd.pos ≠ .ramp 3 ∧
    (seqAt (.stepUp 3) [0, 1, 2] true).pwd.pos = .stepUp (3 : Fin 4).val ∧ (seqAt (.stepUp 4) [0, 1, 2, 3] true).pwd.pos = .stepUp 4 ∧
    (seqExt (.stepUp 4) [0, 1, 2, 3] true).flag F.PWD_SEQ_STAT_EXT_PG = true ∧ (seqAt (.stepUp 5) [0, 1, 2, 3] true).pwd.pos = .stepUp 5 ∧
    ((seqAt .extUp [0, 1, 2, 3] true).pwd.pos = .extUp ∧ (seqAt .extUp [0, 1, 2, 3] true).pwd.started.contains 3 = true) ∧
    ((seqAt .release [0, 1, 2, 3] true).pwd.pos = .release ∧ (seqAt .release [0, 1, 2, 3] true).timMayStart = true ∧
      (seqAt .release [0, 1, 2, 3] true).twinPartner = false ∧ (seqAt .release [0, 1, 2, 3] true).bootMayRun = true) ∧
    (upEarly.bootMayRun = false ∧ upEarly.timMayStart = true ∧ upEarly.twinPartner = false) ∧ follower.timMayStart = false := by decide +kernel
/-- `railsRun` with a DOWN request that waits, and the power-down after a fault. -/
def downWaits : State := { railsRun with
  pwd := { railsRun.pwd with
    downReq := true } }
def seqFast (pos : SeqPos) (started : List Nat) : State := { seqExt pos started true with
  pwd := { (seqExt pos started true).pwd with
    fast := true } }
theorem wit_rails_down : (∀ k ∈ downWaits.pwd.started, k < 4) ∧ downWaits.pwd.downReq = true ∧ downWaits.pwd.pos = .run ∧
    downWaits.flag F.PWD_SEQ_STAT_EXT_PG = true ∧ live.pwd.downReq = false ∧
    ((seqExt .extDown [0, 1, 2, 3] true).pwd.pos = .extDown ∧ (seqExt .extDown [0, 1, 2, 3] true).pwd.started.contains 3 = true ∧
      (∀ k ∈ (seqExt .extDown [0, 1, 2, 3] true).pwd.started, k ≤ 3) ∧ (seqExt .extDown [0, 1, 2, 3] true).pwd.fast = false ∧
      (seqFast .extDown [0, 1, 2, 3]).pwd.fast = true) ∧
    (seqAt (.stepDown 3) [0, 1, 2, 3] true).pwd.pos = .stepDown (3 : Fin 4).val ∧
    ((seqAt (.discharge 0) [0] false).pwd.pos = .discharge (0 : Fin 4).val ∧ (seqAt (.discharge 0) [0] false).pwd.uv = false ∧
      (∀ k ∈ (seqAt (.discharge 0) [0] false).pwd.started, 0 ≤ k)) ∧
    ((seqAt (.discharge 3) [0, 1, 2, 3] false).pwd.pos = .discharge (3 : Fin 4).val ∧
      (seqAt (.discharge 3) [0, 1, 2, 3] false).pwd.started.contains 2 = true ∧
      (∀ j ∈ (seqAt (.discharge 3) [0, 1, 2, 3] false).pwd.started, j < 3 → j ≤ 2)) ∧ live.pwd.pos ≠ .discharge 0 := by decide +kernel
def downNowIn (c : Nat) : State := { seqExt .extDown [0, 1, 2, 3] true with
  pwd := { (seqExt .extDown [0, 1, 2, 3] true).pwd with
    downAt := some c } }
theorem wit_rails_same_cycle : (downNowIn 0).railIsGood 3 = true ∧ (downNowIn 0).pwd.pos = .extDown ∧ (downNowIn 0).pwd.fast = false ∧
    (downNowIn 0).pwd.downAt = some (downNowIn 0).pwrCycle ∧ (downNowIn 1).pwd.downAt ≠ some (downNowIn 1).pwrCycle := by
  decide +kernel
theorem wit_rails_faults : ((seqExt .run [0, 1, 2, 3] true).railIsGood 3 = true ∧ (seqExt .run [0, 1, 2, 3] true).pwd.pos.upOrRun = true ∧
      (seqExt .run [0, 1, 2, 3] true).pwd.started.contains 3 = true ∧ (seqExt .run [0, 1, 2, 3] true).pwd.pos = .run ∧
      (∀ k ∈ (seqExt .run [0, 1, 2, 3] true).pwd.started, k ≤ 3)) ∧ live.railIsGood 3 = false ∧ live.pwd.pos ≠ .run ∧
    live.pwd.started = [] := by decide +kernel

/-! Witnesses: bring-up, power states, temperature and the memories' own work. -/

/-- The sections of a copy with the reference timing and geometry: TIMING, GEOMETRY and MEMMAP (R369 to R371), or with a
region of the map too small for the ledger. -/
def sections (ledger : Nat) : List Byte :=
  let t := Timing.reset
  let e := fun (ty off len : Nat) => leBytes 2 ty ++ leBytes 2 1 ++ leBytes 4 off ++ leBytes 4 len ++ leBytes 4 0
  leBytes 6 0 ++ leBytes 2 3 ++ leBytes 56 0 ++ e 2 112 224 ++ e 3 336 16 ++ e 11 352 80 ++
  (leBytes 4 0 ++ leBytes 4 333333333 ++ leBytes 4 t.rowCyc ++ leBytes 4 (t.blank * 65536 + t.active) ++
    leBytes 4 (t.npwmLog2 * 2 ^ 30 + t.recoverRows * 2 ^ 15 + t.emitRows) ++ leBytes 12 0 ++
    (t.goutCfg ++ t.goutEdge ++ t.goutRow).flatMap (leBytes 4)) ++
  (leBytes 4 0 ++ leBytes 4 0x7F0099 ++ leBytes 8 0) ++
  ((List.range 9).flatMap (fun k => leBytes 4 (regReset (R.MEM_MAP_MASK k)).toNat) ++ leBytes 8 0 ++
    leBytes 4 (ledger * 65536) ++ leBytes 12 0 ++ leBytes 4 (100 + 60 * 65536) ++ leBytes 16 0)
theorem wit_sections : applyCause (sections 16) = 0 ∧ applyCause (sections 15) ≠ 0 ∧ copyRecs (sections 16) 1 = [] := by decide +kernel
/-- The core out of reset at a step of bring-up (R375). -/
def atStep (st step : Nat) : State := live.bootTo st step
/-- The clocks not yet ready. -/
def clockless : State := { (live.bootTo 0 1) with
  pwr := { live.pwr with
    core := false } }
/-- Step 5 with copy A's header in flash and copy B absent, and step 6 with a copy staged. -/
def withCopy (tried : List Bool) : State := { atStep 2 5 with
  nor := (List.range 64).zip ([0x57, 0x45, 0x4C, 0x4E, 1, 0, 1, 0, 7, 0, 0, 0] ++ [0, 0x20, 0x20, 3] ++ leBytes 4 400 ++ leBytes 4 0x82007EF0 ++ leBytes 40 0)
  boot := { (atStep 2 5).boot with
    tried := tried } }
def stagedCopy (c : List Byte) : State := { atStep 3 6 with
  boot := { (atStep 3 6).boot with
    staged := some (true, c) } }
/-- Step 7 with training running. -/
def training : State := (atStep 4 7).fset F.MPHY_TRAIN_STAT_STATE 1
/-- Step 3 with an UP accepted before it and an ingest port enabled. -/
def upAtThree : State := { (atStep 1 3).fput (F.ING_CTL_EN 1) true with
  pwd := { live.pwd with
    pos := .ramp 0
    started := [0] } }
theorem wit_stood_down : (atStep 1 3).stoodDown ∧ ¬ upAtThree.stoodDown ∧ upAtThree.bootAtStep 1 3 = true := by
  unfold State.stoodDown; decide +kernel
theorem wit_boot : (clockless.alive = true ∧ clockless.pwr.core = false ∧ clockless.pwr.restart = none ∧ clockless.boot.state = 0 ∧
      clockless.boot.step = 1) ∧ (atStep 1 3).bootAtStep 1 3 = true ∧ (atStep 2 4).bootAtStep 2 4 = true ∧
    ((atStep 2 5).bootAtStep 2 5 = true ∧ (atStep 2 5).nextCopy = none) ∧ (withCopy []).nextCopy = some false ∧ (∀ l ∈ [[], [true]], (withCopy l).bootAtStep 2 5 = true ∧ (withCopy l).pwr.restart = none ∧ (withCopy l).alive = true) ∧
    (withCopy [true]).boot.tried ≠ [] ∧ (withCopy [true]).nextCopy = some false ∧
    ((stagedCopy (sections 16)).bootAtStep 3 6 = true ∧ (stagedCopy (sections 16)).boot.staged = some (true, sections 16)) ∧
    (training.fget F.MPHY_TRAIN_STAT_STATE = 1 ∧ training.bootAtStep 4 7 = true) ∧ live.fget F.MPHY_TRAIN_STAT_STATE ≠ 1 ∧
    ((atStep 4 8).bootAtStep 4 8 = true ∧ (atStep 4 8).bootBit 2 = false) ∧
    ((atStep 4 9).bootAtStep 4 9 = true ∧ ((atStep 4 9).img.map Image.bootTset).bind (atStep 4 9).tsetOf = none) ∧
    heldPin.pwr.restart ≠ none ∧ (∀ e ∈ [(0, 1), (0, 2), (1, 3), (2, 4), (4, 7)], (atStep e.1 e.2).pwr.restart = none ∧
      (atStep e.1 e.2).alive = true ∧ (atStep e.1 e.2).boot.state = e.1 ∧ (atStep e.1 e.2).boot.step = e.2) := by decide +kernel

/-! Witnesses: the TAP, power states, voltage and temperature, and the memories' own work. -/

/-- `live` in a power state, with one due and one being entered. -/
def inPower (st : Nat) (due going : Option Nat) : State := { live.fset F.PWR_STATE_STAT_STATE st with
  pwr := { live.pwr with
    due := due
    going := going } }
/-- RUN, the rails up, IDLE due. -/
def leavingRun : State := { railsRun.fset F.PWR_STATE_STAT_STATE 0 with
  tim := { railsRun.tim with
    run := true }
  pwr := { railsRun.pwr with
    due := some 1 } }
/-- STANDBY due with a job running, and in its grace. -/
def jobHolds (grace : Bool) : State := { inPower 1 (if grace then none else some 2) none with
  jobs := { live.jobs with
    rings := setNth live.jobs.rings 0 ⟨[], some ⟨readDesc (leBytes 64 0), 0, 0, none, [], false⟩, 0⟩ }
  pwr := { live.pwr with
    due := if grace then none else some 2
    going := if grace then some 2 else none
    grace := grace } }
/-- Waking: STANDBY left for IDLE, training running. -/
def waking : State := (inPower 2 none (some 1)).fset F.MPHY_TRAIN_STAT_STATE 1
/-- DEEP due with a ledger area in eMMC and the save asked for. -/
def savesLedger : State := { (inPower 1 (some 3) none).fput F.PWR_WAKE_CFG_SAVE_LEDGER true with
  emmc := ((List.range 64).zip (leBytes 4 0x54414541 ++ leBytes 4 1 ++ leBytes 4 3235727671 ++ leBytes 20 0 ++
    leBytes 4 8 ++ leBytes 4 1000 ++ leBytes 24 2)).filter (fun e => e.2 != 0) }
/-- The same with no ledger area. -/
def noArea : State := (inPower 1 (some 3) none).fput F.PWR_WAKE_CFG_SAVE_LEDGER true
/-- DEEP due with no save. -/
def deepDue : State := (inPower 1 (some 3) none).fput F.PWR_WAKE_CFG_SAVE_LEDGER false
/-- STANDBY with a wake source enabled that asks for IDLE. -/
def asleep (f : Fld) : State := (((inPower 2 none none).fput F.PWR_WAKE_CFG_CAS false).fput F.PWR_WAKE_CFG_TIMER false |>.fput f true).fset F.PWR_WAKE_CFG_WAKE_TO 1
  |>.fset F.PWR_WAKE_TIMER_SECONDS 5
/-- The rails not safe. -/
def energised (s : State) : State := s.fput F.PWD_SEQ_STAT_SAFE false
/-- A twin's partner whose lead is up. -/
def leadIsUp : State := energised ((((follower.fset F.CAS_PAIR_CFG_MODE 1).fput F.CAS_PAIR_CFG_ROLE true).fset F.PWD_SEQ_STAT_STATE 2).fset
  (F.CAS_PORT_STAT_STATE 0) 2)
theorem wit_tap : (energised railsRun).flag F.PWD_SEQ_STAT_SAFE = false ∧ (energised railsRun).pwd.pos.upOrRun = true ∧
    (energised (seqExt .run [0, 1, 2, 3] true)).flag F.PWD_SEQ_STAT_EXT_PG = true ∧ (energised (seqExt .run [0, 1, 2, 3] true)).pwd.pos.upOrRun = true ∧
    (energised (seqExt .run [0, 1, 2, 3] true)).flag F.PWD_SEQ_STAT_SAFE = false ∧
    (energised (seqExt .extDown [0, 1, 2, 3] true)).flag F.PWD_SEQ_STAT_SAFE = false ∧ (energised (seqExt .extDown [0, 1, 2, 3] true)).pwd.pos.upOrRun = false ∧
    (energised railsRun).leadUp = false ∧ (energised (seqExt .extDown [0, 1, 2, 3] true)).leadUp = false ∧
    (leadIsUp.leadUp = true ∧ leadIsUp.flag F.PWD_SEQ_STAT_SAFE = false ∧ leadIsUp.cas.ports.length = 5 ∧ leadIsUp.casState ≠ 7 ∧
      leadIsUp.casUp 0 = true ∧ (leadIsUp.casPort 0).waiting = []) := by
  decide +kernel
theorem wit_power : (leavingRun.pwr.due = some 1 ∧ leavingRun.pstate = 0 ∧ leavingRun.pwd.pos = .run ∧ leavingRun.tim.run = true) ∧
    ((inPower 1 (some 2) none).pwr.due = some 2 ∧ (inPower 1 (some 2) none).pstate = 1 ∧ (inPower 1 (some 2) none).jobsRunning = 0 ∧
      (inPower 1 (some 2) none).flag F.PWR_AVS_STAT_FAIL = false) ∧
    ((jobHolds false).pwr.due = some 2 ∧ (jobHolds false).pstate = 1 ∧ (jobHolds false).jobsRunning ≠ 0) ∧
    (jobHolds true).pwr.grace = true ∧
    ((inPower 2 (some 1) none).pwr.due = some 1 ∧ (inPower 2 (some 1) none).pstate = 2) ∧
    (waking.fget F.MPHY_TRAIN_STAT_STATE = 1 ∧ waking.pwr.going = some 1 ∧ waking.pstate = 2 ∧ waking.bootAtStep 4 7 = false) ∧
    ((inPower 1 (some 0) none).pwr.due = some 0 ∧ (inPower 1 (some 0) none).pstate = 1) := by decide +kernel
theorem wit_power_deep : (deepDue.pwr.due = some 3 ∧ deepDue.pstate = 1 ∧ deepDue.flag F.PWR_WAKE_CFG_SAVE_LEDGER = false) ∧
    (savesLedger.pwr.due = some 3 ∧ savesLedger.pstate = 1 ∧ savesLedger.flag F.PWR_WAKE_CFG_SAVE_LEDGER = true ∧
      savesLedger.heath.ledgerSave = none ∧ savesLedger.ledgerOldest = some (0, ⟨8, 1000, 2⟩) ∧ savesLedger.heathRing ≠ none) ∧
    (noArea.pwr.due = some 3 ∧ noArea.pstate = 1 ∧ noArea.flag F.PWR_WAKE_CFG_SAVE_LEDGER = true ∧
      noArea.heath.ledgerSave = none ∧ noArea.ledgerOldest = none) ∧
    ((inPower 3 (some 1) none).pwr.due = some 1 ∧ (inPower 3 (some 1) none).pstate = 3) := by decide +kernel
theorem wit_wakes : (live.pstate ≠ 2 ∧ live.pstate ≠ 3) ∧ bitOf live.pwr.ingDet (1 : Fin 5) = false ∧
    (asleep F.PWR_WAKE_CFG_TIMER).flag F.PWR_WAKE_CFG_CAS = false ∧
    ((asleep F.PWR_WAKE_CFG_CAS).pstate = 2 ∧ (asleep F.PWR_WAKE_CFG_CAS).flag F.PWR_WAKE_CFG_CAS = true ∧
      (asleep F.PWR_WAKE_CFG_CAS).fget F.PWR_WAKE_CFG_WAKE_TO = 1 ∧ (asleep F.PWR_WAKE_CFG_CAS).pwr.due = none ∧
      (asleep F.PWR_WAKE_CFG_CAS).pwr.going = none ∧ (asleep F.PWR_WAKE_CFG_CAS).fget F.PWR_WAKE_TIMER_SECONDS ≠ 0 ∧
      (asleep F.PWR_WAKE_CFG_CAS).flag F.PWR_WAKE_CFG_TIMER = false ∧ (asleep F.PWR_WAKE_CFG_CAS).pstate ≠ 0) ∧
    live.fget F.PWR_WAKE_TIMER_SECONDS = 0 ∧
    ((asleep F.PWR_WAKE_CFG_TIMER).pstate = 2 ∧ (asleep F.PWR_WAKE_CFG_TIMER).fget F.PWR_WAKE_TIMER_SECONDS ≠ 0 ∧
      (asleep F.PWR_WAKE_CFG_TIMER).flag F.PWR_WAKE_CFG_TIMER = true ∧ (asleep F.PWR_WAKE_CFG_TIMER).fget F.PWR_WAKE_CFG_WAKE_TO = 1 ∧
      (asleep F.PWR_WAKE_CFG_TIMER).pwr.due = none ∧ (asleep F.PWR_WAKE_CFG_TIMER).pwr.going = none) := by decide +kernel
/-- `live` with the voltage loop on, at a voltage and a count of slack windows. -/
def avsAt (v hi : Nat) (fail : Bool) : State := { ((live.fput F.PWR_AVS_CFG_EN true).fset F.PWR_AVS_STAT_VOUT v).fput F.PWR_AVS_STAT_FAIL fail with
  pwr := { live.pwr with
    avsOn := true
    avsV := v
    avsHi := hi } }
/-- FAIL with the exponent of VOUT_MODE known, and where a mode other than LINEAR16 has been read. -/
def avsKnown : State := { avsAt 750 0 true with
  pwr := { (avsAt 750 0 true).pwr with
    avsExp := some (-12) } }
def avsBarred : State := { avsAt 750 0 true with
  pwr := { (avsAt 750 0 true).pwr with
    avsOther := true } }
theorem wit_avs_retry : avsKnown.flag F.PWR_AVS_STAT_FAIL = true ∧ avsKnown.pwr.avsOther = false ∧ avsKnown.pwr.avsExp = some (-12) ∧
    (avsAt 750 0 true).pwr.avsOther = false ∧ (avsAt 750 0 true).pwr.avsExp = none ∧ avsBarred.pwr.avsOther = true := by decide +kernel
theorem wit_voltage : live.avsActive = false ∧ ((avsAt 750 0 false).avsActive = true ∧
      (0#6).toNat < (avsAt 750 0 false).fget F.PWR_AVS_CFG_M_LOW ∧
      min ((avsAt 750 0 false).pwr.avsV + 10) (avsLimit ((avsAt 750 0 false).fget F.PWR_AVS_LIM_VMAX)) ≠ (avsAt 750 0 false).pwr.avsV) ∧
    ((avsAt (avsLimit (live.fget F.PWR_AVS_LIM_VMAX)) 0 false).pwr.avsV =
      min ((avsAt (avsLimit (live.fget F.PWR_AVS_LIM_VMAX)) 0 false).pwr.avsV + 10) (avsLimit (live.fget F.PWR_AVS_LIM_VMAX))) ∧
    (avsAt 750 0 false).fget F.PWR_AVS_CFG_M_LOW ≤ (63#6).toNat ∧ (avsAt 750 0 false).pwr.avsHi ≠ 10 ∧
    ((avsAt 750 10 false).pwr.avsHi = 10 ∧ max ((avsAt 750 10 false).pwr.avsV - 5) (avsLimit ((avsAt 750 10 false).fget F.PWR_AVS_LIM_VMIN)) ≠ 750 ∧
      max ((avsAt 750 10 false).pwr.avsV - 5) (avsLimit ((avsAt 750 10 false).fget F.PWR_AVS_LIM_VMIN)) < 1024) ∧
    (avsAt 750 0 true).flag F.PWR_AVS_STAT_FAIL = true := by decide +kernel
/-- A tripped device with a pin reset waiting; the machine at a junction temperature; the rails up with a converter off its target. -/
def tripped : State := { live with
  pwr := { live.pwr with
    core := false
    tripped := true
    tripReset := true } }
def atTemp (t : Int) : State := (live.fset F.CAL_TJ_TJ (uInt 16 t)).fput F.CAL_CTL_EN false
def zoned : State := { live with
  cal := { live.cal with
    frames := setNth live.cal.frames 3 (some (500, live.time)) } }
def trimming : State := { seqAt .run [0, 1, 2, 3] true with
  regs := ((seqAt .run [0, 1, 2, 3] true).fset F.PWD_SEQ_STAT_STATE 2).regs
  cal := { live.cal with
    conv := setNth live.cal.conv 2 [(3, 3), (9, 4)] } }
theorem wit_temperature : State.reset.pwr.por = true ∧ (live.pwr.por = false ∧ live.pwr.tripped = false) ∧
    (tripped.pwr.por = false ∧ tripped.pwr.tripped = true ∧ tripped.pwr.tripReset = true ∧ tripped.pwr.restart = none) ∧
    (3 < zoned.geom.ng ∧ zoned.zoneReport 3 = some 500) ∧ 5 * 4096 ≤ 100 * (2048#12).toNat ∧ 100 * (2048#12).toNat ≤ 95 * 4096 ∧
    100 * (0#12).toNat < 5 * 4096 ∧
    ((atTemp 400).nextLevel (atTemp 400).tj = (atTemp 400).fget F.CAL_THERM_STAT_LEVEL ∧ (atTemp 400).flag F.CAL_CTL_EN = false) ∧
    (∀ t ∈ ([-500, 1600, 1800] : List Int), (atTemp t).nextLevel (atTemp t).tj ≠ (atTemp t).fget F.CAL_THERM_STAT_LEVEL) ∧
    ((atTemp 1800).gradeLimits.2 + 160 ≤ (atTemp 1800).tj) ∧ (live.railIsGood 2 && live.seqRun) = false ∧
    ((trimming.railIsGood 2 && trimming.seqRun) = true ∧ trimming.cal.conv[2]? = some [(3, 3), (9, 4)]) := by decide +kernel
/-- `live` with refreshes owed by pseudo-channel 4, open rows, its delay lines off target, and the scrub at a line. -/
def owing (n line : Nat) : State := { live.fset F.MBX_HEATH_STAT_STATE 1 with
  mem := { live.mem with
    owed := setNth live.mem.owed 4 n
    openRows := [(4 * 48 + 5, 7), (5 * 48, 1)]
    dq := setNth live.mem.dq 4 [⟨10, 12, []⟩, ⟨5, 5, []⟩]
    scrub := line } }
/-- The same with clients served. -/
def owingServed (n k : Nat) : State := { owing n 0 with
  free := k
  mem := { (owing n 0).mem with
    served := true } }
theorem wit_memory_served : (owingServed 8 0).mem.served = true ∧ (owingServed 8 0).coreRuns = true ∧ (owingServed 8 0).mem.selfRefresh = false ∧
    (owingServed 8 0).mem.levels.length = 9 := by decide +kernel
theorem wit_memory : (live.coreRuns = true ∧ live.mem.selfRefresh = false ∧ live.mem.owed.length = 32 ∧ live.mem.dq.length = 32 ∧ live.mem.levels.length = 9) ∧
    (tripped.coreRuns = false) ∧ (∀ n ∈ [0, 7, 8], (owing n 0).mem.owed.getD (4 : Fin 32) 0 = n) ∧
    ((owing 0 0x4A4200).coreRuns = true ∧ 0x12908000 ≤ 64 * (owing 0 0x4A4200).mem.scrub ∧ (owing 0 0x4A4200).fget F.MBX_HEATH_STAT_STATE = 1) := by
  decide +kernel

/-! Witnesses: the cascade. -/

/-- An enabled cascade with port `n` in a state of its link; `head` says whether the device is the head. -/
def casIn (head : Bool) (n st : Nat) : State :=
  ((((if head then live else follower).fput F.CAS_CTL_EN true).fset F.CAS_CTL_DN_EN 15).fset (F.CAS_PORT_STAT_STATE n) st).fset
    F.CAS_STAT_STATE 2
/-- An ECHO cell, or another from the parent or a child, and what it holds. -/
def cellTo (ty seq : Nat) (all : Bool) (dst : Nat) (p : List Byte) : Cell := ⟨ty, seq, 0, false, 0, all, dst, p⟩
/-- A partner whose four lanes agree in ALIGN. -/
def peer (head : Bool) : CasPartner := ⟨head, [⟨0, 0x80, 9⟩, ⟨1, 0x80, 9⟩, ⟨2, 0x80, 9⟩, ⟨3, 0x80, 9⟩]⟩
/-- Partners whose lanes do not: a lane twice, three lanes, a fifth, another port's byte, and two counts. -/
def strays : List CasPartner := [⟨false, [⟨0, 0x80, 9⟩, ⟨1, 0x80, 9⟩, ⟨2, 0x80, 9⟩, ⟨2, 0x80, 9⟩]⟩,
  ⟨false, [⟨0, 0x80, 9⟩, ⟨1, 0x80, 9⟩, ⟨2, 0x80, 9⟩]⟩, ⟨false, [⟨0, 0x80, 9⟩, ⟨1, 0x80, 9⟩, ⟨2, 0x80, 9⟩, ⟨4, 0x80, 9⟩]⟩,
  ⟨false, [⟨0, 0x80, 9⟩, ⟨1, 0x00, 9⟩, ⟨2, 0x80, 9⟩, ⟨3, 0x80, 9⟩]⟩, ⟨false, [⟨0, 0x80, 9⟩, ⟨1, 0x80, 9⟩, ⟨2, 0x80, 8⟩, ⟨3, 0x80, 9⟩]⟩]
/-- Port `n` UP with cells not yet acknowledged. -/
def unackedOn (n : Nat) : State := (casIn true n 2).modCasPort n (fun q => { q with
  unacked := [cellTo 3 4 false 0 (leBytes 8 1), cellTo 3 5 false 0 (leBytes 8 1)]
  txSeq := 6
  rxNext := 9 })
/-- A follower whose ECHO request 7 left 3000 ns ago and request 6 before it, with delays already taken. -/
def echoing (k : Nat) : State := { casIn false 0 2 with
  time := 5000 * 65536
  clock := 5000 * 65536
  cas := { (casIn false 0 2).cas with
    echoId := 7
    echoes := [(6, 1), (7, 2000 * 65536)]
    delays := List.replicate k 1000000 } }
def echoReq : Cell := cellTo 2 0 false 0 (leBytes 1 1 ++ leBytes 1 9 ++ leBytes 6 0)
def echoRep (ta : Nat) : Cell := cellTo 2 0 false 0 (leBytes 1 2 ++ leBytes 1 7 ++ leBytes 2 0 ++ leBytes 4 ta)
/-- The cell arrives. -/
def arr (s : State) (n : Nat) (ty : CType) (c : Cell) : Bool :=
  s.casUp n && decide (readCell c.encode = some c) && c.ty == ty.code && cellFormOk c &&
  (!cellSequenced c.ty || c.seq == (s.casPort n).rxNext) && (s.casState != 7 || ty == .echo || ty == .enum || ty == .wake)
theorem arr_arrives {s : State} {n : Nat} {ty : CType} {c : Cell} (h : arr s n ty c = true) : s.arrives n ty c.encode c := by
  simp only [arr, Bool.and_eq_true, Bool.or_eq_true, Bool.not_eq_true', decide_eq_true_eq, beq_iff_eq, bne_iff_ne, ne_eq] at h
  obtain ⟨⟨⟨⟨⟨h1, h2⟩, h3⟩, h4⟩, h5⟩, h6⟩ := h
  refine ⟨h1, h2, h3, h4, fun h => ?_, fun h => ?_⟩
  · rcases h5 with h5 | h5
    · rw [h] at h5; cases h5
    · exact h5
  · rcases h6 with ((h6 | h6) | h6) | h6
    · exact absurd h h6
    · exact Or.inl h6
    · exact Or.inr (Or.inl h6)
    · exact Or.inr (Or.inr h6)
theorem wit_cas_links : (casIn true 2 0).casEnabled 0 = false ∧
    (∀ e ∈ [(true, 2, 1), (true, 4, 3), (false, 0, 1), (false, 1, 1)], (casIn e.1 e.2.1 e.2.2).casEnabled e.2.1 = true ∧
      (casIn e.1 e.2.1 e.2.2).fget (F.CAS_PORT_STAT_STATE e.2.1) = e.2.2) ∧
    (∀ e ∈ [(true, 2), (false, 0)], (casIn e.1 e.2 2).fget (F.CAS_PORT_STAT_STATE e.2) = 2 ∧ (casIn e.1 e.2 2).casUp e.2 = true) ∧
    live.fget (F.CAS_PORT_STAT_STATE 2) = 0 ∧ live.casUp 2 = false ∧ ((unackedOn 2).casUp 2 = true ∧ ((unackedOn 2).casPort 2).unacked ≠ []) ∧
    (casIn false 0 2).isHead = false ∧ (casIn false 0 2).casState ≠ 7 ∧
    (∀ h, casLanesOk (peer h).lanes = true) ∧ ∀ q ∈ strays, casLanesOk q.lanes = false := by decide +kernel
theorem wit_echo : (arr (casIn true 2 2) 2 .echo echoReq = true ∧ byteAt echoReq.payload 0 = 1) ∧
    arr (casIn false 0 2) 0 .echo echoReq = true ∧
    (arr (casIn false 0 2) 0 .echo (echoRep 0) = true ∧ (casIn false 0 2).cas.echoes = []) ∧
    (∀ k ∈ [14, 15], arr (echoing k) 0 .echo (echoRep 500000) = true ∧ (echoing k).isHead = false ∧
      (echoing k).cas.echoes.find? (fun e => e.1 == byteAt (echoRep 500000).payload 1) = some (7, 2000 * 65536) ∧
      byteAt (echoRep 500000).payload 0 = 2 ∧ (echoing k).cas.delays.length = k) ∧ readCell [] = none := by decide +kernel
/-- A follower with its parent's port UP and some of its downstream ports. -/
def midway (downs : List Nat) : State := downs.foldl (fun s n => (s.fset (F.CAS_PORT_STAT_STATE n) 2).fput (F.CAS_PORT_STAT_NUMBERED n) true) (casIn false 0 2)
/-- An ENUM cell, and a TURN cell of a kind with the sender's rails and time. -/
def enumCell (op level excl value : Nat) : Cell := cellTo 3 0 false 0 (leBytes 1 op ++ leBytes 1 level ++ leBytes 1 excl ++ leBytes 1 0 ++ leBytes 4 value)
def turnCell (kind seq ns : Nat) : Cell :=
  cellTo 1 0 false 0 (leBytes 8 ns ++ leBytes 2 0 ++ leBytes 14 0 ++ leBytes 2 0 ++ leBytes 1 seq ++ leBytes 1 kind ++ leBytes 4 0)
/-- Awaiting the DONE of a downstream port. -/
def awaits (k : Nat) : State := { (midway [1, 3]).fset (F.CAS_PORT_SIZE_SIZE 0) (if k = 0 then 0 else 6) with
  cas := { (midway [1, 3]).cas with
    enum := some ⟨20, k, false⟩ } }
/-- Excluded, awaiting the DONE of the last port that is UP. -/
def awaitsExcl : State := { midway [1, 3] with
  cas := { (midway [1, 3]).cas with
    enum := some ⟨20, 2, true⟩ } }
/-- A follower whose delay is valid, at 5000 ns. -/
def timedBase : State := { (echoing 16).fput F.CAS_DELAY_VALID true with
  regs := (((echoing 16).fput F.CAS_DELAY_VALID true).fset F.CAS_DELAY_D 1000).regs }
/-- The same with a pair link on its downstream port 0. -/
def apartFrom : State := (timedBase.fset F.CAS_PAIR_CFG_MODE 1).fset F.CAS_PAIR_CFG_PORT 0
/-- A device of a pair, 1 twin or 2 split, as the child or the parent of it. -/
def paired (mode : Nat) (role : Bool) : State := ((if role then casIn false 0 2 else casIn true 2 2).fset F.CAS_PAIR_CFG_MODE mode).fput F.CAS_PAIR_CFG_ROLE role
  |>.fset F.CAS_PAIR_CFG_PORT 1
/-- The twin partner with TIM running, and a split device with its rails up. -/
def twinRuns : State := { paired 1 true with
  tim := { live.tim with
    run := true } }
def splitRuns : State := { paired 2 false with
  pwd := railsUp.pwd }
/-- A twin's lead in RUN with TIM running. -/
def leadRuns : State := { paired 1 false with
  tim := { live.tim with
    run := true }
  pwd := { railsUp.pwd with
    pos := .run } }
/-- A half of a split pair with its link, before its first rail or between two, the other half in a state; and a twin's partner in OFF whose
lead is in RUN. -/
def halfAt (pos : SeqPos) (st : Nat) : State := { ((paired 2 false).fput F.CAS_PAIR_STAT_LINKED true).fset F.CAS_PAIR_STAT_PSEQ st with
  pwd := { live.pwd with
    pos := pos } }
def mirrors : State := (paired 1 true).fset F.PWD_SEQ_STAT_STATE 2
theorem wit_rail_pairs : (∀ n ∈ [0, 1, 2, 3], (halfAt .off n).pwd.pos = .off ∧ (halfAt .off n).waitsForPeer = true ∧ (halfAt .off n).peerState = n ∧
      (halfAt .off n).flag F.PWD_SEQ_STAT_SAFE = true ∧ (halfAt .off n).rget R.PWD_FAULT = 0 ∧ (halfAt .off n).twinPartner = false ∧
      (halfAt .off n).railsBarred = false ∧ (halfAt .off n).isOff R.PWD_SEQ_CTL = false ∧ (halfAt (.stepUp 2) n).pwd.pos = .stepUp 2 ∧
      (halfAt (.stepUp 2) n).waitsForPeer = true ∧ (halfAt (.stepUp 2) n).peerState = n) ∧
    mirrors.pwd.pos = .off ∧ mirrors.leadUp = true ∧ mirrors.casUp 0 = true ∧ mirrors.isOff R.PWD_SEQ_CTL = false ∧
    live.leadUp = false := by decide +kernel
theorem wit_enum : (∀ e ∈ [0, 5, 9], arr (midway []) 0 .enum (enumCell 1 e 0 12) = true ∧ (midway []).isHead = false ∧
      byteAt (enumCell 1 e 0 12).payload 0 = 1 ∧ bitOf (byteAt (enumCell 1 e 0 12).payload 2) 0 = false ∧
      byteAt (enumCell 1 e 0 12).payload 1 = e) ∧
    (∀ k ∈ [0, 1, 2, 3], (midway []).casUp (k + 1) = false) ∧
    (∀ c ∈ [enumCell 1 8 0 12, enumCell 1 9 0 12, enumCell 1 5 0 (2 ^ 18 - 1), enumCell 1 5 1 0],
      arr (midway [2, 4]) 0 .enum c = true ∧ (midway [2, 4]).casUp (1 + 1) = true ∧ (midway [2, 4]).casUp (0 + 1) = false) ∧
    leAt (enumCell 1 5 0 (2 ^ 18 - 2)).payload 4 4 + 1 < 2 ^ 18 ∧ leAt (enumCell 1 5 0 (2 ^ 18 - 1)).payload 4 4 + 1 = 2 ^ 18 ∧
    (arr (midway []) 0 .enum (enumCell 1 5 1 0) = true ∧ bitOf (byteAt (enumCell 1 5 1 0).payload 2) 0 = true) ∧
    (arr (midway [1]) 1 .enum (enumCell 2 0 0 3) = true ∧ (midway [1]).cas.enum = none) ∧
    (∀ k ∈ [0, 2], arr (awaits k) (k + 1) .enum (enumCell 2 0 0 3) = true ∧ (awaits k).cas.enum = some ⟨20, k, false⟩ ∧
      byteAt (enumCell 2 0 0 3).payload 0 = 2) ∧ (∀ k ∈ [3], (awaits 2).casUp (k + 1) = false) ∧
    (arr (awaits 0) 3 .enum (enumCell 2 0 0 3) = true ∧ (awaits 0).casUp (1 + 1) = false ∧ (awaits 0).casUp (2 + 1) = true ∧
      (awaits 0).fget F.CAS_STAT_LEVEL < 9) ∧
    (arr (awaitsExcl) 3 .enum (enumCell 2 0 0 0) = true ∧ awaitsExcl.cas.enum = some ⟨20, 2, true⟩) := by decide +kernel
/-- `timedBase` in state 6 of R289, with or without the new timing waiting. -/
def turning6 (waits : Bool) : State := { timedBase.fset F.CAS_STAT_STATE 6 with
  tim := { timedBase.tim with
    restart := waits } }
theorem wit_turns : (∀ b, arr (turning6 b) 0 .turn (turnCell 0 0 6000) = true ∧ (turning6 b).casState = 6 ∧ (turning6 b).tim.restart = b ∧
      (turning6 b).flag F.CAS_DELAY_VALID = true) ∧
    (arr timedBase 0 .turn (turnCell 0 0 6000) = true ∧ arr timedBase 0 .turn (turnCell 0 0 3000) = true ∧ timedBase.isHead = false ∧
      byteAt (turnCell 0 0 6000).payload 27 = 0 ∧ timedBase.flag F.CAS_DELAY_VALID = true ∧ timedBase.time ≤ timedBase.tickTime (turnCell 0 0 6000).payload ∧
      timedBase.tickTime (turnCell 0 0 3000).payload < timedBase.time ∧ timedBase.tim.run = false ∧ timedBase.casState = 2) ∧
    (arr (midway []) 0 .turn (turnCell 0 0 6000) = true ∧ (midway []).flag F.CAS_DELAY_VALID = false) ∧
    (arr (midway [1]) 1 .turn (turnCell 0 0 6000) = true) ∧
    (arr apartFrom 0 .turn (turnCell 1 0 6000) = true ∧ apartFrom.pairPort = 1 ∧ apartFrom.isHead = false ∧
      byteAt (turnCell 1 0 6000).payload 27 = 1 ∧ apartFrom.flag F.CAS_DELAY_VALID = true) ∧
    arr ((paired 1 false).fset (F.CAS_PORT_STAT_STATE 1) 2) 1 .turn (turnCell 1 0 6000) = true ∧
    (arr (paired 1 false) 2 .turn (turnCell 1 9 0) = true ∧ (paired 1 false).pairPort = 2 ∧ byteAt (turnCell 1 9 0).payload 27 = 1 ∧
      (paired 1 false).fget F.CAS_PAIR_CFG_MODE ≠ 0 ∧ (paired 1 false).fget F.CAS_PAIR_CFG_MODE ≠ 3) ∧
    (arr (paired 0 false) 2 .turn (turnCell 1 9 0) = true ∧ (paired 0 false).pairPort = 2 ∧ (paired 0 false).isHead = true ∧
      (paired 0 false).twinPartner = false ∧ (paired 0 false).splitPair = false ∧ (paired 0 false).twinLead = false) ∧
    (arr leadRuns 2 .turn (turnCell 1 3 0) = true ∧ leadRuns.twinLead = true ∧ leadRuns.pwd.pos = .run ∧ leadRuns.tim.run = true ∧
      bitOf (byteAt (turnCell 1 3 0).payload 26) 3 = false ∧ bitsOf (byteAt (turnCell 1 3 0).payload 26) 1 0 = 3) ∧
    (arr splitRuns 2 .turn (turnCell 1 3 0) = true ∧ splitRuns.tim.run = false) ∧
    (arr twinRuns 0 .turn (turnCell 1 4 0) = true ∧ twinRuns.pairPort = 0 ∧ twinRuns.twinPartner = true ∧
      bitsOf (byteAt (turnCell 1 4 0).payload 26) 1 0 = 0 ∧ bitOf (byteAt (turnCell 1 4 0).payload 26) 2 = true) ∧
    (arr splitRuns 2 .turn (turnCell 1 8 0) = true ∧ splitRuns.pairPort = 2 ∧ splitRuns.splitPair = true ∧
      bitOf (byteAt (turnCell 1 8 0).payload 26) 3 = true) := by decide +kernel
/-- A broadcast commit cell, and one DATA cell of channel 2. -/
def bcCell (all : Bool) (kind arg target value : Nat) : Cell :=
  cellTo 4 0 all 0 (leBytes 1 kind ++ leBytes 1 arg ++ leBytes 6 target ++ leBytes 4 value ++ leBytes 4 0)
def dataOf (row x n : Nat) : Cell :=
  cellTo 8 0 true 0 (leBytes 1 2 ++ leBytes 1 0 ++ leBytes 2 row ++ leBytes 2 x ++ leBytes 2 n ++ leBytes (5 * n) 0x0908070605040302)
/-- A follower with a child that takes broadcast cells, TIM running, and the commits that it holds. -/
def below (hold : List BCommit) : State := { (midway [3]).fput F.CAS_CTL_EN true with
  tim := { live.tim with
    run := true }
  lyr := { live.lyr with
    turn := 10 }
  cas := { (midway [3]).cas with
    bcHold := hold } }
/-- Channel 2 of 16 by 8 pixels, at a place in its inactive buffer. -/
def chan (s : State) (q : Bcast) : State := { ((s.fput (F.CAS_BOVL_CFG_EN 2) true).fset (F.CAS_BOVL_CFG_W 2) 16).fset (F.CAS_BOVL_CFG_H 2) 8 with
  cas := { s.cas with
    chans := setNth s.cas.chans 2 q } }
def partly : Bcast := { Bcast.reset with
  rows := 3
  x := 10
  width := some 16
  whole := true }
def wholeChan : Bcast := { Bcast.reset with
  rows := 7
  x := 16
  width := some 16
  whole := true }
/-- The head, opened, at turn 10 with commits held and a mode waiting or not. -/
def above (hold : List BCommit) (m : ModePhase) (go : Bool) : State := { casIn true 2 2 with
  tim := { live.tim with
    run := true }
  lyr := { live.lyr with
    turn := 10
    opened := true
    mode := m
    modeTarget := 5
    modeGo := go }
  cas := { (casIn true 2 2).cas with
    bcHold := hold } }
/-- The head with a copy queued, running with a cell unacknowledged, or running and all acknowledged. -/
def copying (queued run : Option BCopy) (sent : Bool) : State :=
  ((chan ((above [] .idle false).fput (F.CAS_PORT_STAT_NUMBERED 2) true) { Bcast.reset with
    queued := queued
    copy := run }).modCasPort 2 (fun q => { q with
      unacked := if sent then [dataOf 0 0 1] else [] }))
theorem wit_sys_fences : sysFenced.isOff (R.LYR_FENCE_VAL 48) = false ∧ sysFenced.flag F.CAS_CTL_SYSFENCE = true ∧ sysFenced.isHead = true ∧
    newer32 (0 : W32).toNat (sysFenced.fenceIssued 48) = false ∧ newer32 (0x7FFFFFFF : W32).toNat (sysFenced.fenceIssued 63) = true ∧
    sysFenced.casState ≠ 7 ∧ sysFollower.flag F.CAS_CTL_SYSFENCE = true ∧ sysFollower.isHead = false ∧
    sysFollower.isOff (R.LYR_FENCE_VAL 48) = false := by decide +kernel
theorem wit_bc_down : (arr (below []) 0 .bcommit (bcCell true 1 50 20 3) = true ∧ (below []).isHead = false ∧
      (readBc (bcCell true 1 50 20 3).payload).downOk = true ∧ (below []).bcLate (readBc (bcCell true 1 50 20 3).payload) = false ∧
      (below []).dnEnumerated 2 = true ∧ (below []).casUp (2 + 1) = true) ∧
    (arr (below []) 0 .bcommit (bcCell true 1 50 9 3) = true ∧ (below []).bcLate (readBc (bcCell true 1 50 9 3).payload) = true) ∧
    arr (midway [1]) 1 .bcommit (bcCell true 1 50 9 3) = true ∧ ((arr (below []) 0 .bcommit (bcCell false 1 50 9 3)) = true ∧
      (bcCell false 1 50 9 3).all = false) := by decide +kernel
/-- A follower that holds a MODE cell for a set that it has. -/
def modeBelow : State := { below [⟨2, 2, 11, 0⟩] with
  lyr := { (below []).lyr with
    opened := true }
  tsets := (inMode .ready).tsets }
/-- A follower whose channel 2 has a whole last row `r` and a SWAP due. -/
def swapBelow (r : Nat) : State :=
  chan { below [⟨3, 2, 11, 0⟩] with lyr := { (below []).lyr with opened := true } } { wholeChan with rows := r }
theorem wit_bc_due : ((above [⟨1, 50, 11, 7⟩, ⟨1, 51, 12, 7⟩] .idle false).nextTurn = 11 ∧
      (above [⟨1, 50, 11, 7⟩, ⟨1, 51, 12, 7⟩] .idle false).cas.bcHold.filter (fun b => b.kind == 1 && due48 b.target (11 : Nat)) = [⟨1, 50, 11, 7⟩]) ∧
    ((above [⟨2, 5, 11, 0⟩] .waiting false).cas.bcHold.filter (fun b => b.kind == 2 && due48 b.target (11 : Nat)) = [⟨2, 5, 11, 0⟩] ∧
      (above [⟨2, 5, 11, 0⟩] .waiting false).isHead = true ∧ (above [⟨2, 5, 11, 0⟩] .waiting false).lyr.mode = .waiting ∧
      (above [⟨2, 5, 11, 0⟩] .waiting false).lyr.modeTarget = 5) ∧
    (∀ q ∈ [partly, wholeChan], (chan (above [⟨3, 2, 11, 0⟩] .idle false) q).cas.bcHold.filter
        (fun b => b.kind == 3 && due48 b.target (11 : Nat)) = [⟨3, 2, 11, 0⟩] ∧ (chan (above [⟨3, 2, 11, 0⟩] .idle false) q).nextTurn = 11 ∧
        (chan (above [⟨3, 2, 11, 0⟩] .idle false) q).modeStarts = false ∧ (chan (above [⟨3, 2, 11, 0⟩] .idle false) q).isHead = true) ∧
    (∀ r ∈ [7, 6], (swapBelow r).isHead = false ∧ (swapBelow r).modeStarts = false ∧
      (swapBelow r).cas.bcHold.filter (fun b => b.kind == 3 && due48 b.target (swapBelow r).nextTurn) = [⟨3, 2, 11, 0⟩] ∧
      ((swapBelow r).cas.chans.getD (2 : Fin 8) Bcast.reset).rows = r ∧ (swapBelow r).fget (F.CAS_BOVL_CFG_H 2) = 8) ∧
    ((swapBelow 7).cas.chans.getD (2 : Fin 8) Bcast.reset).complete = true ∧
    ((swapBelow 6).cas.chans.getD (2 : Fin 8) Bcast.reset).complete = true ∧
    ((modeBelow.cas.bcHold.filter (fun b => b.kind == 2 && due48 b.target modeBelow.nextTurn) = [⟨2, 2, 11, 0⟩]) ∧ modeBelow.isHead = false ∧
      modeBelow.lyr.mode = .idle ∧ modeBelow.activeSet ≠ 2 ∧ modeBelow.tsetValid 2 = true) ∧
    partly.complete = false ∧ wholeChan.complete = true ∧
    (above [⟨3, 2, 11, 0⟩] .waiting true).modeStarts = true := by decide +kernel
theorem wit_fence_requests : (arr (above [] .idle false) 2 .bcommit (bcCell false 4 48 0 5) = true ∧ (above [] .idle false).isHead = true ∧
      (readBc (bcCell false 4 48 0 5).payload).kind = 4 ∧ (readBc (bcCell false 4 48 0 5).payload).arg = 48 ∧
      newer32 5 ((above [] .idle false).fenceIssued 48) = true ∧ newer32 5 ((above [⟨1, 63, 12, 9⟩] .idle false).fenceIssued 63) = false) ∧
    (arr (midway [1]) 1 .bcommit (bcCell false 4 63 0 5) = true ∧ (midway [1]).isHead = false ∧ (bcCell false 4 63 0 5).all = false ∧
      (readBc (bcCell false 4 63 0 5).payload).kind = 4 ∧ (readBc (bcCell false 4 63 0 5).payload).arg = 63 ∧ (midway [1]).routeOf 0 = .port 0) ∧
    arr (midway [1]) 1 .bcommit (bcCell false 4 47 0 5) = true ∧ arr (midway [1]) 1 .bcommit (bcCell false 4 64 0 5) = true := by decide +kernel
theorem wit_data : (arr (chan (below []) partly) 0 .data (dataOf 3 10 6) = true ∧ (chan (below []) partly).isHead = false ∧
      byteAt (dataOf 3 10 6).payload 0 = 2 ∧ (chan (below []) partly).flag (F.CAS_BOVL_CFG_EN 2) = true ∧
      (chan (below []) partly).fget (F.CAS_BOVL_CFG_H 2) = 8 ∧ (chan (below []) partly).fget (F.CAS_BOVL_CFG_W 2) = 16 ∧
      (chan (below []) partly).inRegions Client.ovlWr.writes ((chan (below []) partly).bcastAddr 2 1 3 10) 30 = true ∧
      (∀ i < 30, ∀ j < 30, hbmPlace (chan (below []) partly).mapMasks ((chan (below []) partly).bcastAddr 2 1 3 10 + i) =
        hbmPlace (chan (below []) partly).mapMasks ((chan (below []) partly).bcastAddr 2 1 3 10 + j) → i = j)) ∧
    (arr (chan (below []) partly) 0 .data (dataOf 8 10 6) = true) ∧ arr (midway [1]) 1 .data (dataOf 3 10 6) = true := by decide +kernel
theorem wit_copies : ((copying (some ⟨1, 0, 4, 2⟩) none false).cas.chans.getD (2 : Fin 8) Bcast.reset).queued = some ⟨1, 0, 4, 2⟩ ∧
    ((copying (some ⟨1, 0, 4, 2⟩) none false).cas.chans.getD (2 : Fin 8) Bcast.reset).copy = none ∧ (copying (some ⟨1, 0, 4, 2⟩) none false).isHead = true ∧
    0 < min 2 ((copying (some ⟨1, 0, 4, 2⟩) none false).fget (F.CAS_BOVL_CFG_H 2)) ∧ (copying (some ⟨1, 0, 4, 2⟩) none false).dnEnumerated 1 = true ∧
    (copying (some ⟨1, 0, 4, 2⟩) none false).casUp (1 + 1) = true ∧ (copying (some ⟨1, 0, 4, 2⟩) none false).casState ≠ 7 ∧
    0 < min 4 ((copying (some ⟨1, 0, 4, 2⟩) none false).fget (F.CAS_BOVL_CFG_W 2)) ∧ (copying none (some ⟨1, 0, 4, 2⟩) true).copyPending (2 : Fin 8) = true ∧
    (copying none (some ⟨1, 0, 4, 2⟩) false).copyPending (2 : Fin 8) = false ∧
    ((copying none (some ⟨1, 0, 4, 2⟩) false).cas.chans.getD (2 : Fin 8) Bcast.reset).copy ≠ none := by decide +kernel

/-! Witnesses: mail, events, wakes and Heath's messages. -/

/-- A message to a box with a body; a MAIL cell that carries one, or its response; an EVENT and a WAKE cell. -/
def msgTo (b : Nat) (body : List Byte) : List Byte :=
  leBytes 2 body.length ++ leBytes 1 b ++ leBytes 1 0 ++ leBytes 2 5 ++ leBytes 2 9 ++ body
def mailOf (resp out dst : Nat) (m : List Byte) : Cell := cellTo 5 0 false dst (leBytes 1 resp ++ leBytes 1 out ++ leBytes 6 0 ++ m)
def eventOf (dst : Nat) : Cell := cellTo 6 0 false dst (leBytes 2 0x305 ++ leBytes 1 2 ++ leBytes 1 0 ++ leBytes 6 77 ++ leBytes 2 0)
def wakeOf (st : Nat) : Cell := cellTo 7 0 true 0 (leBytes 1 st ++ leBytes 3 0)
/-- A body: SVC, RID, TARGET and arguments. -/
def bodyOf (svc target : Nat) (args : List Byte) : List Byte := leBytes 2 svc ++ leBytes 2 0x77 ++ leBytes 4 target ++ args
/-- A device numbered 3, Heath serving, with one of its boxes set. -/
def numberedAs (s : State) : State := ((s.fput F.CAS_NUM_VALID true).fset F.CAS_NUM_NUM 3).fset F.MBX_HEATH_STAT_STATE 1
def boxed (b : Nat) (x : Box) (s : State) : State := { s with
  boxes := setNth s.boxes b x }
def inHolds (m : List Byte) : Box := { Box.reset with
  inMsg := some m
  inFrom := 8 }
def outHolds (m : List Byte) (r : List (Nat × List Byte)) : Box := { Box.reset with
  outMsg := some m
  responses := r }
def answering (r : List (Nat × List Byte)) : Box := { Box.reset with
  responses := r }
def asked (body : List Byte) : Box := { Box.reset with
  req := some (8, body) }
def node : State := numberedAs (midway [1])
def fifoAt (n : Nat) : State := { (casIn true 2 2).fput F.CAS_NUM_VALID true with
  cas := { (casIn true 2 2).cas with
    fifo := List.replicate n ⟨1, 2, 3, 4⟩ } }
theorem wit_mail_cells : (arr node 0 .mail (mailOf 0 0 3 (msgTo 4 [1, 2, 3])) = true ∧ bitOf (byteAt (mailOf 0 0 3 (msgTo 4 [1, 2, 3])).payload 0) 0 = false ∧
      node.numbered = true ∧ node.devNum = 3 ∧ (mailOf 0 0 3 (msgTo 4 [1, 2, 3])).srcNone = false ∧
      byteAt ((mailOf 0 0 3 (msgTo 4 [1, 2, 3])).payload.drop 8) 2 = (4 : Fin 8).val ∧
      ((mailOf 0 0 3 (msgTo 4 [1, 2, 3])).payload.drop 8).length = 8 + msgLen ((mailOf 0 0 3 (msgTo 4 [1, 2, 3])).payload.drop 8) ∧
      (node.box 4).inMsg = none ∧ (node.box 4).last ≠ some (msgKey (msgTo 4 [1, 2, 3]))) ∧
    (arr (boxed 4 (inHolds []) node) 0 .mail (mailOf 0 0 3 (msgTo 4 [])) = true ∧ ((boxed 4 (inHolds []) node).box 4).inMsg ≠ none ∧
      ((boxed 4 (inHolds []) node).box 4).last ≠ some (msgKey (msgTo 4 [])) ∧ (mailOf 0 0 3 (msgTo 4 [])).src ≠ node.devNum) ∧
    (arr (boxed 7 (outHolds (msgTo 7 [9]) []) node) 0 .mail (mailOf 1 3 3 (msgTo 7 [9])) = true ∧
      (boxed 7 (outHolds (msgTo 7 [9]) []) node).outBoxOf ((mailOf 1 3 3 (msgTo 7 [9])).payload.drop 8) = some (7 : Fin 8).val ∧
      node.outBoxOf ((mailOf 1 3 3 (msgTo 7 [9])).payload.drop 8) = none) := by decide +kernel
/-- The same MAIL cell to all, to a head's child that has one of its own; and a box that was written in this cycle. -/
def mailAll : Cell := { mailOf 0 0 0 (msgTo 4 [1]) with all := true }
def writtenBox : State := { node with cyc := { node.cyc with cleared := [4] } }
theorem wit_mail_all : arr (numberedAs (below [])) 0 .mail mailAll = true ∧ bitOf (byteAt mailAll.payload 0) 0 = false ∧ mailAll.srcNone = false ∧
    (numberedAs (below [])).cas.enum = none ∧ ((numberedAs (below [])).box 4).inMsg = none ∧ (numberedAs (below [])).numbered = true ∧
    ((numberedAs (below [])).box 4).last ≠ some (msgKey (msgTo 4 [1])) ∧ (4 : Nat) ∉ (numberedAs (below [])).cyc.cleared ∧
    (numberedAs (below [])).dnEnumerated 2 = true ∧ (numberedAs (below [])).casUp (2 + 1) = true ∧ (4 : Nat) ∉ node.cyc.cleared ∧
    arr writtenBox 0 .mail (mailOf 0 0 3 (msgTo 4 [1, 2, 3])) = true ∧ (writtenBox.box 4).inMsg = none ∧
    (writtenBox.box 4).last ≠ some (msgKey (msgTo 4 [1, 2, 3])) := by decide +kernel
/-- `node` while it enumerates, and with its child's range known but the child's link DOWN. -/
def enumNode : State := { node with
  cas := { node.cas with
    enum := some ⟨4, 0, false⟩ } }
def cutNode : State := (node.fset (F.CAS_PORT_SIZE_SIZE 0) 2).fset (F.CAS_PORT_STAT_STATE 1) 3
theorem wit_mail_routes : (arr (midway [1]) 0 .mail (mailOf 0 0 3 (msgTo 4 [])) = true ∧ (midway [1]).numbered = false ∧
      (mailOf 0 0 3 (msgTo 4 [])).all = false) ∧
    (arr enumNode 0 .mail (mailOf 1 0 3 (msgTo 4 [])) = true ∧ enumNode.cas.enum ≠ none) ∧
    (arr node 1 .mail (mailOf 0 0 9 (msgTo 4 [])) = true ∧ node.cas.enum = none ∧ node.routeOf 9 = .port 0 ∧ node.devNum ≠ 9) ∧
    (arr cutNode 0 .mail (mailOf 0 0 4 (msgTo 4 [1])) = true ∧ cutNode.numbered = true ∧ cutNode.cas.enum = none ∧ cutNode.devNum = 3 ∧
      cutNode.routeOf 4 = .none ∧ (mailOf 0 0 4 (msgTo 4 [1])).src = 0 ∧ cutNode.routeOf 0 = .port 0) ∧
    (arr (fifoAt 0 |>.fput F.CAS_NUM_VALID false) 2 .event (eventOf 0) = true ∧ (fifoAt 0 |>.fput F.CAS_NUM_VALID false).numbered = false ∧
      eventsFull (fifoAt 0).cas.held = false) := by decide +kernel
theorem wit_events : (∀ k ∈ [0, 1, 511, 512], arr (fifoAt k) 2 .event (eventOf 0) = true ∧ (fifoAt k).isHead = true ∧ (fifoAt k).numbered = true ∧ (fifoAt k).cas.enum = none ∧
      (fifoAt k).cas.fifo.length = k) ∧
    arr (midway [1]) 0 .event (eventOf 0) = true ∧
    (arr node 1 .event (eventOf 0) = true ∧ node.isHead = false ∧ (eventOf 0).all = false ∧ node.cas.enum = none ∧ node.routeOf 0 = .port 0 ∧
      (node.casPort 0).waiting = []) ∧
    (arr (fifoAt 0) 2 .wake (wakeOf 1) = true) ∧
    (arr ((midway [1]).fset F.PWR_STATE_STAT_STATE 2) 0 .wake (wakeOf 1) = true ∧ byteAt (wakeOf 1).payload 0 = 1 ∧
      ((midway [1]).fset F.PWR_STATE_STAT_STATE 2).pwr.due = none ∧ ((midway [1]).fset F.PWR_STATE_STAT_STATE 2).pwr.going = none) := by decide +kernel
theorem wit_takes : (∀ e ∈ [bodyOf 0x99 0 [], bodyOf 2 0 [], bodyOf 2 (2 ^ 31 + 40) []],
      ((boxed 5 (inHolds (msgTo 5 e)) node).box 5).inMsg = some (msgTo 5 e) ∧ (boxed 5 (inHolds (msgTo 5 e)) node).heathServes 5 = true ∧
      ((boxed 5 (inHolds (msgTo 5 e)) node).box 5).req = none ∧ bitOf (reqSvc e) 15 = false ∧ msgBody (msgTo 5 e) = e) ∧
    node.svcKnown 2 = true ∧ node.svcKnown 0x99 = false ∧ node.svcDenied 5 2 = false ∧
    node.forwards (bodyOf 2 (2 ^ 31 + 40) []) = true ∧ node.forwards (bodyOf 2 0 []) = false ∧
    ((boxed 5 (asked (bodyOf 2 (2 ^ 31 + 40) [])) node).box 5).req = some (8, bodyOf 2 (2 ^ 31 + 40) []) ∧ live.numbered = false ∧
    (live.fset F.MBX_HEATH_STAT_STATE 1).heathServes 5 = true := by decide +kernel
def fullBox : Box := { inHolds (msgTo 5 (bodyOf 2 0 [])) with
  responses := List.replicate 16 (0, []) }
/-- An image whose POLICY lets no mailbox but the host's read registers. -/
def denies : State := { node with
  img := some ⟨false, 7, 0, 0, 0, 0x100, (0, 0, []), List.replicate 58 0 ++ [0xFF, 0xFF] ++ List.replicate 4 0, [], []⟩ }
/-- Requests sent on, and a response that waits for its box. -/
def sentOn : State := { node with
  heath := { node.heath with
    forwards := [⟨⟨5, 8, 0x77⟩, 2, 40⟩, ⟨⟨0, 0, 1⟩, 1, 41⟩] } }
/-- Box 5 holds a response of device 40 to a request sent on, or one that says BADSVC. -/
def relays (svc rid : Nat) : State := boxed 5 { Box.reset with
  inMsg := some (msgTo 5 (leBytes 2 svc ++ leBytes 2 rid ++ leBytes 4 0))
  inFrom := 40 } sentOn
theorem wit_relays : (∀ e ∈ [(0x8002, 0x77), (0xFFFF, 0x77), (0x8002, 0x78)], (relays e.1 e.2).heathServes 5 = true ∧
      ((relays e.1 e.2).box 5).req = none ∧ bitOf e.1 15 = true ∧
      ((relays e.1 e.2).heath.forwards.find? (fun f => f.dev == 40 && (f.svc == e.1 % 32768 || e.1 == 0xFFFF) && f.req.rid == e.2)).isSome =
        (e.2 == 0x77)) ∧ ((boxed 1 (answering [(0, [1, 2])]) { inSession with
      regs := (inSession.fset F.MBX_HEATH_STAT_STATE 1).regs }).boxAtt 1).isSome = true := by decide +kernel
/-- Box 0 taken while a message was turned away from it in this cycle. -/
def turnedBox : State := { boxed 0 (inHolds (msgTo 0 (bodyOf 2 0 []))) node with
  cyc := { node.cyc with turned := [(0, 0, msgTo 0 [7])] } }
/-- Heath restarts while DEEP is due. -/
def restartsToDeep : State := { live.fset F.MBX_HEATH_STAT_STATE 3 with
  pwr := { live.pwr with going := some 3 } }
theorem wit_turned : turnedBox.cyc.turned.find? (fun e => e.1 == 0) = some (0, 0, msgTo 0 [7]) ∧ turnedBox.heathServes 0 = true ∧
    (turnedBox.box 0).req = none ∧ node.cyc.turned = [] ∧ restartsToDeep.fget F.MBX_HEATH_STAT_STATE = 3 ∧ restartsToDeep.pwr.going = some 3 ∧
    (live.fset F.MBX_HEATH_STAT_STATE 3).pwr.going ≠ some 3 := by decide +kernel
theorem wit_forwards : sentOn.heath.forwards = [⟨⟨5, 8, 0x77⟩, 2, 40⟩, ⟨⟨0, 0, 1⟩, 1, 41⟩] ∧ node.heath.forwards = [] ∧
    (∀ b ∈ [0, 1, 5], ((boxed b (answering [(0, [1, 2])]) node).box b).responses = [(0, [1, 2])] ∧
      ((boxed b (answering [(0, [1, 2])]) node).box b).outMsg = none ∧ (boxed b (answering [(0, [1, 2])]) node).heathServes b = true) ∧
    node.boxAtt (1 : Fin 8) = none ∧ node.routeOf 0 = .port 0 ∧ node.fget F.MBX_HEATH_STAT_STATE = 1 ∧ live.fget F.MBX_HEATH_STAT_STATE ≠ 1 ∧
    (live.fset F.MBX_HEATH_STAT_STATE 3).fget F.MBX_HEATH_STAT_STATE = 3 := by decide +kernel
/-! Witnesses: Heath's services. -/

/-- `node` with a request taken by box 5 for a service. -/
def asks (svc : Nat) (args : List Byte) (s : State) : State := boxed 5 (asked (bodyOf svc 0 args)) s
/-- eMMC with a ledger area, a map area of one row of one column group, its data all zero, and an area too small for the ledger. -/
def media : List (Nat × Byte) :=
  let e := fun (a n ty : Nat) => leBytes 4 a ++ leBytes 4 n ++ leBytes 24 ty
  let es := e 8 1000 2 ++ e 2000 100 1 ++ e 3000 1 2
  let hdr := areaHeader 1 1 1 1 0 1 (List.replicate 32 0) 0
  ((((List.range 128).zip (leBytes 4 0x54414541 ++ leBytes 4 3 ++ leBytes 4 (crc32c es) ++ leBytes 20 0 ++ es)) ++
    (List.range' 1024000 34).zip hdr)).filter (fun e => e.2 != 0)
def withMedia : State := { node.fset F.SYN_GEOM_CFG_NG_M1 0 with
  emmc := media }
def loading (area : Nat) (swap : Bool) : State := { withMedia with
  heath := { withMedia.heath with
    mapLoad := some ⟨some ⟨5, 8, 0x77⟩, area, 1, swap⟩ } }
def saving (area : Nat) (snap : Option (Nat × Nat × Nat)) : State := { withMedia with
  heath := { withMedia.heath with
    ledgerSave := some ⟨some ⟨5, 8, 0x77⟩, area, 4, 2, 9, snap⟩ } }
def writing (target total : Nat) (held : List (Nat × Byte)) : State := { withMedia with
  heath := { withMedia.heath with
    imgWrite := some ⟨target, 1, total, held⟩ } }
/-- Whether box 5 holds a request, and one that runs here. -/
def holdsB (svc : Nat) (args : List Byte) (s : State) : Bool :=
  (asks svc args s).heathServes 5 && ((asks svc args s).box 5).req == some (8, bodyOf svc 0 args) && decide (8 ≤ (bodyOf svc 0 args).length) &&
  reqSvc (bodyOf svc 0 args) == svc && !(asks svc args s).forwards (bodyOf svc 0 args)
theorem holds_req {svc : Nat} {args : List Byte} {s : State} (h : holdsB svc args s = true) :
    (asks svc args s).holdsReq 5 8 svc (bodyOf svc 0 args) := by
  simp only [holdsB, Bool.and_eq_true, Bool.not_eq_true', beq_iff_eq, decide_eq_true_eq] at h
  exact ⟨h.1.1.1.1, h.1.1.1.2, h.1.1.2, h.1.2, h.2⟩
theorem wit_info : holdsB 1 [] node = true ∧ holdsB 1 [0] node = true ∧ holdsB 1 [] denies = true := by decide +kernel
def readArgs (a n noinc : Nat) : List Byte := leBytes 4 a ++ leBytes 2 n ++ leBytes 2 noinc
def writeArgs (l : List (Nat × Nat)) : List Byte := leBytes 2 l.length ++ leBytes 2 0 ++ l.flatMap (fun e => leBytes 4 e.1 ++ leBytes 4 e.2)
theorem wit_reg_services : holdsB 2 (readArgs R.PWR_STATE_STAT 3 0) node = true ∧ holdsB 2 (readArgs R.PWR_STATE_STAT 3 1) node = true ∧
    (readArgs R.PWR_STATE_STAT 3 0).length = 8 ∧ (∀ i, i < 3 → addrOk (R.PWR_STATE_STAT + 4 * i) = true) ∧ addrOk 0xF00000 = false ∧
    holdsB 3 (writeArgs [(R.CAL_CTL, 1), (R.CAL_CTL, 0)]) node = true ∧ addrOk R.CAL_CTL = true ∧ holdsB 3 [] node = true := by decide +kernel
theorem wit_map_load : (node.fput F.EMC_MAP_CTL_PEND true).flag F.EMC_MAP_CTL_PEND = true ∧ node.flag F.EMC_MAP_CTL_PEND = false ∧
    holdsB 0x10 [1, 1, 0, 0] withMedia = true ∧ holdsB 0x10 [1, 2, 0, 0] withMedia = true ∧ holdsB 0x10 [1, 1, 0, 0] (loading 1 true) = true ∧
    (loading 1 true).heath.mapLoad = some ⟨some ⟨5, 8, 0x77⟩, 1, 1, true⟩ ∧ (loading 1 true).flag F.EMC_MAP_CTL_PEND = false ∧
    (loading 1 true).coreRuns = true ∧ State.reset.coreRuns = false := by decide +kernel
theorem wit_map_rows : withMedia.mapOk [1] ⟨2000, 100, 1⟩ 1 = true ∧ withMedia.areaNgs 1 = [1] ∧ withMedia.area 1 = some ⟨2000, 100, 1⟩ := by decide +kernel
theorem wit_map_absent : withMedia.area 5 = none := by decide +kernel
/-- Software uses rings 0 to 5. -/
def ringsUsed (s : State) : State :=
  (List.range 6).foldl (fun s r => (s.fput (F.JOB_RING_CFG_EN r) true).fset (F.JOB_RING_BASE_BASE r) 99) s
def takenMedia : State := ringsUsed withMedia
theorem wit_ledger_save : holdsB 0x11 [5, 0, 0, 0] withMedia = true ∧ holdsB 0x11 [0, 0, 0, 0] withMedia = true ∧
    withMedia.area 0 = some ⟨8, 1000, 2⟩ ∧ holdsB 0x11 [0, 0, 0, 0] (saving 0 none) = true ∧ holdsB 0x11 [1, 0, 0, 0] withMedia = true ∧
    (saving 0 (some (0, 2, 0))).heath.ledgerSave = some ⟨some ⟨5, 8, 0x77⟩, 0, 4, 2, 9, some (0, 2, 0)⟩ ∧
    (saving 0 (some (0, 2, 0))).pwr.going ≠ some 3 ∧ (saving 0 (some (0, 2, 0))).coreRuns = true ∧
    (asks 0x11 [0, 0, 0, 0] withMedia).heathRing.isSome = true ∧ holdsB 0x11 [0, 0, 0, 0] takenMedia = true ∧
    (asks 0x11 [0, 0, 0, 0] takenMedia).heathRing = none := by decide +kernel
theorem wit_ledger_ends : (saving 0 (some (0, 2, 0))).saveSize ⟨none, 0, 4, 2, 9, some (0, 2, 0)⟩ = some (2, ⟨8, 1000, 2⟩, 0) ∧
    (saving 2 (some (0, 2, 0))).saveSize ⟨none, 2, 4, 2, 9, some (0, 2, 0)⟩ = none ∧
    (saving 0 (some (8, 0, 0))).saveSize ⟨none, 0, 4, 2, 9, some (8, 0, 0)⟩ = none ∧
    (saving 0 (some (0, 2, 0))).fget F.MBX_HEATH_STAT_STATE = 1 := by decide +kernel
def ringTaken : State := ringsUsed node
def capturing : State := { node with
  heath := { node.heath with
    capture := some (⟨1, 0, 0⟩, 7, 3) } }
theorem wit_capture_svc : holdsB 0x12 (leBytes 8 0) node = true ∧ holdsB 0x12 [] node = true ∧ holdsB 0x12 (leBytes 8 0) capturing = true ∧
    holdsB 0x12 (leBytes 8 0) ringTaken = true ∧ (asks 0x12 (leBytes 8 0) ringTaken).heathRing = none ∧
    (asks 0x12 (leBytes 8 0) node).heathRing.isSome = true := by decide +kernel
/-- A latched fault, and an image whose POLICY allows retries. -/
def retries (n : Nat) : State := { node.fset ⟨R.PWD_FAULT, 31, 0⟩ 1 with
  img := some ⟨false, 7, 0, 0, 0, 0x100, (0, 0, []), List.replicate 11 0 ++ [BitVec.ofNat 8 n] ++ List.replicate 52 0, [], []⟩ }
theorem wit_rails_svc : holdsB 0x20 [] node = true ∧ holdsB 0x20 [1] node = true ∧ holdsB 0x20 [] (retries 0) = true ∧
    holdsB 0x20 [] (retries 1) = true ∧ (retries 1).rget R.PWD_FAULT ≠ 0 ∧ (retries 0).retryLeft = false ∧ (retries 1).retryLeft = true ∧
    node.rget R.PWD_FAULT = 0 ∧ node.flag F.PWD_SEQ_STAT_FAULT = false ∧ node.pwd.pos = .off ∧ node.flag F.PWD_SEQ_STAT_SAFE = true ∧
    node.twinPartner = false ∧ (asks 0x20 [] node).railsBarred = false ∧ (asks 0x20 [] node).waitsForPeer = false ∧ holdsB 0x21 [3, 0, 0, 0] node = true ∧ holdsB 0x21 [4, 0, 0, 0] node = true := by
  decide +kernel
/-- Arguments of an image write: OP, TARGET, AREA, the total or the offset, and bytes. -/
def writeReq (op target off : Nat) (bs : List Byte) : List Byte := leBytes 1 op ++ leBytes 1 target ++ leBytes 2 1 ++ leBytes 4 off ++ bs
theorem wit_image_write : holdsB 0x22 (writeReq 1 0 500 []) withMedia = true ∧ holdsB 0x22 (writeReq 1 3 500 []) withMedia = true ∧
    withMedia.writeRange 0 1 = some (0x2000000, 0x2000000) ∧ withMedia.writeRange 3 1 = none ∧ withMedia.heath.imgWrite = none ∧
    holdsB 0x22 (writeReq 1 0 500 []) (writing 0 500 []) = true ∧ (writing 0 500 []).heath.imgWrite ≠ none ∧
    withMedia.openWrite (bodyOf 0x22 0 (writeReq 2 0 100 [1, 2])) = none ∧ holdsB 0x22 (writeReq 2 0 100 [1, 2]) withMedia = true ∧
    (∀ op ∈ [2, 3, 4], holdsB 0x22 (writeReq op 0 100 [1, 2]) (writing 0 500 []) = true ∧ writeOp (bodyOf 0x22 0 (writeReq op 0 100 [1, 2])) = op ∧
      (writing 0 500 []).openWrite (bodyOf 0x22 0 (writeReq op 0 100 [1, 2])) = some ⟨0, 1, 500, []⟩) := by decide +kernel
/-! Witnesses: jobs. -/

/-- A descriptor's bytes: id, opcode, resume, table, source and its length, destination and its room, token opcode and ARG. -/
def descBytes (id op flags bsize src len dst cap arg : Nat) : List Byte :=
  leBytes 4 id ++ leBytes 1 op ++ leBytes 1 flags ++ leBytes 2 bsize ++ leBytes 8 src ++ leBytes 8 len ++ leBytes 8 dst ++ leBytes 8 cap ++
  leBytes 8 0 ++ leBytes 8 0 ++ leBytes 8 arg
/-- Ring 2 enabled at 0x1000 with one descriptor to run, and bytes at 0x2000. -/
def ringed (desc : List Byte) (ids : List (Nat × Nat)) (data : List Byte) : State :=
  { ((((live.fset (F.JOB_RING_BASE_BASE 2) 64).fset (F.JOB_RING_CFG_LOG2 2) 4).fput (F.JOB_RING_CFG_EN 2) true).fset (F.JOB_RING_TAIL_TAIL 2) 1) with
    hbm := ((List.range' 0x1000 64).zip desc ++ (List.range' 0x2000 data.length).zip data).filter (fun e => e.2 != 0)
    jobs := { live.jobs with
      rings := setNth live.jobs.rings 2 ⟨ids, none, 0⟩ } }
/-- The job runs, a CAPTURE with some segments taken, or one that has fallen behind. -/
def runs (desc : List Byte) (data : List Byte) (cap : Option Nat) (segs : List RowSeg := []) (lost : Bool := false) : State := { ringed desc [] data with
  jobs := { live.jobs with
    rings := setNth live.jobs.rings 2 ⟨[], some ⟨readDesc desc, 0, 0, cap, segs, lost⟩, 0⟩ } }
def copyDesc : List Byte := descBytes 9 0 8 1 0x2000 4 0x3000 64 0
def badDesc : List Byte := descBytes 9 6 8 1 0x2000 4 0x3000 64 0
/-- A source outside the regions that the engine reads. -/
def farDesc : List Byte := descBytes 9 0 8 1 0x208000000 4 0x3000 64 0
def badToken : List Byte := descBytes 9 0 4 1 0x2000 4 0x3000 64 0 |>.set 48 3
def block789 : List Byte := [0xB9, 1, 0x80, 0, 3, 0, 0, 0, 19, 0, 0, 0] ++ leBytes 4 (crc32c [7, 8, 9]) ++ [7, 8, 9]
/-- DECOMPRESS jobs resumed at byte 0: of a block, of no block, and of a source outside the regions. -/
def resumeDesc (src : Nat) : List Byte := (descBytes 9 2 4 1 src 19 0x3000 64 0).set 48 2
def resumeBlock (data : List Byte) (k : Nat) : State := { ringed (resumeDesc 0x2000) [] data with
  free := k }
/-- The next entry of the ring repeats the id of the job that runs; and a ring outside the regions that the engine reads. -/
def repeats : State := { (runs copyDesc [] none).fset (F.JOB_RING_TAIL_TAIL 2) 2 with
  hbm := (((List.range' 0x1000 64).zip copyDesc ++ (List.range' 0x1040 64).zip copyDesc)).filter (fun e => e.2 != 0) }
def strayRing : State := (ringed copyDesc [] []).fset (F.JOB_RING_BASE_BASE 2) (2 ^ 29 - 1)
theorem wit_job_start : (∀ s ∈ [ringed copyDesc [] [], ringed badDesc [] [], ringed badToken [] [], strayRing,
      (ringed copyDesc [] []).fput (F.JOB_RING_CFG_PRIO 2) true], s.coreRuns = true ∧ s.pwr.grace = false ∧
      s.boot.state ≠ 8 ∧ s.jobsRunning < 4 ∧ s.nextJobRing = some (2 : Fin 8).val ∧ (List.range 8).find? s.repeatsRunning = none) ∧
    (∀ d ∈ [copyDesc, badDesc, badToken],
      (ringed d [] []).inRegions Client.job.reads ((ringed d [] []).ringEntry (2 : Fin 8) ((ringed d [] []).fget (F.JOB_RING_HEAD_HEAD (2 : Fin 8)))) 64 = true ∧
      readDesc ((ringed d [] []).hbmRead ((ringed d [] []).ringEntry (2 : Fin 8) ((ringed d [] []).fget (F.JOB_RING_HEAD_HEAD (2 : Fin 8)))) 64) = readDesc d) ∧
    strayRing.inRegions Client.job.reads (strayRing.ringEntry (2 : Fin 8) (strayRing.fget (F.JOB_RING_HEAD_HEAD (2 : Fin 8)))) 64 = false ∧
    ((ringed copyDesc [] []).fput (F.JOB_RING_CFG_PRIO 2) true).flag (F.JOB_RING_CFG_PRIO (2 : Fin 8)) = true ∧
    (ringed badDesc [] []).descBad (readDesc badDesc) = true ∧ (ringed copyDesc [] []).descBad (readDesc copyDesc) = false ∧
    ((ringed copyDesc [(9, 3)] []).jring 2).ids.find? (fun e => e.1 == (readDesc copyDesc).id) = some (9, 3) ∧
    ((ringed copyDesc [] []).jring 2).ids.find? (fun e => e.1 == (readDesc copyDesc).id) = none ∧
    (readDesc badToken).tokenBad = true ∧ (readDesc copyDesc).tokenBad = false ∧
    (∀ a ∈ [0x2000, 0x208000000], (readDesc (resumeDesc a)).tokenBad = false ∧ (readDesc (resumeDesc a)).resume = true ∧
      (readDesc (resumeDesc a)).opcode = 2 ∧ (readDesc (resumeDesc a)).tokOff ≠ (readDesc (resumeDesc a)).total ∧
      (ringed (resumeDesc a) [] []).descBad (readDesc (resumeDesc a)) = false) ∧
    live.nextJobRing = none ∧ (List.range 8).find? live.repeatsRunning = none := by decide +kernel
theorem wit_job_repeat : repeats.coreRuns = true ∧ repeats.pwr.grace = false ∧ repeats.boot.state ≠ 8 ∧
    (List.range 8).find? repeats.repeatsRunning = some (2 : Fin 8).val := by decide +kernel
/-- A job of each opcode: 1 COMPRESS and 3 LEDGER_SNAP, 2 DECOMPRESS of a stored block, 4 CALPACK and 5 CAPTURE. -/
def packDesc (op : Nat) : List Byte := descBytes 9 op 0xF8 1 0x2000 4 0x3000 0x20000 (if op = 3 then 0x10000 else if op = 4 then 0x10000 else 0)
def unpackDesc : List Byte := descBytes 9 2 8 1 0x2000 19 0x3000 64 0
def captureDesc : List Byte := descBytes 9 5 8 0 0 0 0x3000 0x10000 0x10000
/-- A CAPTURE of turn 5 while that turn runs, its one segment taken or not. -/
def captures (segs : List RowSeg) (lost : Bool := false) : State := { runs captureDesc [] (some 5) segs lost with
  tim := { live.tim with
    run := true }
  lyr := { live.lyr with
    turn := 5 } }
theorem wit_jobs : (∀ e ∈ [(packDesc 1, 1), (packDesc 3, 3), (packDesc 4, 4), (unpackDesc, 2), (copyDesc, 0), (captureDesc, 5)],
      ((runs e.1 [1, 2, 3, 4] none).jring (2 : Fin 8)).running = some ⟨readDesc e.1, 0, 0, none, [], false⟩ ∧ (runs e.1 [1, 2, 3, 4] none).coreRuns = true ∧
      (runs e.1 [1, 2, 3, 4] none).pwr.grace = false ∧ (readDesc e.1).opcode = e.2 ∧ (readDesc e.1).resume = false ∧
      bitOf (readDesc e.1).dst 63 = false) ∧ (runs captureDesc [] (some 5)).tim.run = false ∧
    (∀ l ∈ [[], [(⟨0, 0, []⟩ : RowSeg)]], (captures l).tim.run = true ∧ (captures l).lyr.turn = 5 ∧ (captures l).coreRuns = true ∧
      ((captures l).jring (2 : Fin 8)).running = some ⟨readDesc captureDesc, 0, 0, some 5, l, false⟩ ∧
      ((captures l true).jring (2 : Fin 8)).running = some ⟨readDesc captureDesc, 0, 0, some 5, l, true⟩ ∧
      (captureList (readDesc captureDesc)).all (fun e => l.any (fun g => g.row == e.1 && g.group == e.2)) = !l.isEmpty) := by decide +kernel
/-- The masks at reset: the first addresses of HBM lie at themselves. -/
def resetMasks : List Nat := [0x00804008, 0x01008010, 0x02010020, 0x04020040, 0x08040080, 0x00080400, 0x00100800, 0x00201000, 0x00402000]
/-- Below 4096 only a mask's low bits count. -/
theorem parity_low {v m : Nat} (h : v < 4096) : parityOf v m = parityOf v (m % 4096) := by
  have e : v &&& m = v &&& (m % 4096) := by
    have : v = v % 2 ^ 12 := by omega
    rw [this]
    apply Nat.eq_of_testBit_eq
    intro i
    simp only [show 4096 = 2 ^ 12 from rfl, Nat.testBit_and, Nat.testBit_mod_two_pow]
    cases decide (i < 12) <;> simp
  simp only [parityOf, Nat.mod_eq_of_lt (show v < 2 ^ 28 by omega), e]
theorem parity_bit {v : Nat} (i : Nat) (h : v < 4096) (hi : i < 12) : parityOf v (2 ^ i) = v / 2 ^ i % 2 := by
  have e : v &&& 2 ^ i = if v.testBit i then 2 ^ i else 0 := by
    apply Nat.eq_of_testBit_eq
    intro j
    rw [Nat.testBit_and, Nat.testBit_two_pow]
    by_cases hj : i = j
    · subst hj; cases h : v.testBit i <;> simp
    · cases h : v.testBit i <;> simp [hj]
  rw [parityOf, Nat.mod_eq_of_lt (show v < 2 ^ 28 by omega), e, ← Nat.toNat_testBit]
  cases v.testBit i
  · simp; decide
  · rw [if_pos rfl, Bool.toNat_true]; clear e; revert i; decide
theorem place_id {a : Nat} (h : a < 73792) : hbmPlace resetMasks a = a := by
  have l : a / 32 < 4096 := by omega
  have p : ∀ i < 12, ∀ m, m % 4096 = 2 ^ i → parityOf (a / 32) m = a / 32 / 2 ^ i % 2 := fun i hi m e => by
    rw [parity_low l, e, parity_bit i l hi]
  have z : ∀ m, m % 4096 = 0 → parityOf (a / 32) m = 0 := fun m e => by
    rw [parity_low l, e, parityOf, Nat.and_zero]; decide
  simp only [hbmPlace, resetMasks, List.getD_cons_zero, List.getD_cons_succ, p 3 (by decide) 0x00804008 rfl, p 4 (by decide) 0x01008010 rfl,
    p 5 (by decide) 0x02010020 rfl, p 6 (by decide) 0x04020040 rfl, p 7 (by decide) 0x08040080 rfl, p 10 (by decide) 0x00080400 rfl,
    p 11 (by decide) 0x00100800 rfl, z 0x00201000 rfl, z 0x00402000 rfl, putBits, bitsOf, Nat.shiftRight_eq_div_pow]
  omega
theorem own_id {s : State} (h : s.mapMasks = resetMasks) (a n : Nat)
    (l : a + n ≤ 73792) : s.ownPlaces a n := by
  intro i hi j hj e
  rw [h, place_id (by omega), place_id (by omega)] at e
  omega
theorem apart_id {s : State} (h : s.mapMasks = resetMasks) (a n b m : Nat)
    (l : a + n ≤ b) (r : b + m ≤ 73792) : s.apartPlaces a n b m := by
  intro i hi j hj e
  rw [h, place_id (by omega), place_id (by omega)] at e
  omega
theorem wit_job_places : ∀ d ∈ [copyDesc, unpackDesc, packDesc 1, packDesc 3, packDesc 4],
    (runs d [] none).mapMasks = resetMasks ∧
    (runs d [] none).ringEntry (2 : Fin 8) ((runs d [] none).fget (F.JOB_RING_HEAD_HEAD (2 : Fin 8))) + 64 ≤ (readDesc d).dst ∧
    (readDesc d).dst + 61456 ≤ 73792 ∧ 0 < (readDesc d).total := by decide +kernel
theorem wit_job_copy : (readDesc copyDesc).total = 4 ∧ ([1, 2, 3, 4] : List Byte).length ≤ (readDesc copyDesc).dstCap ∧
    ((runs copyDesc [1, 2, 3, 4] none).jobRead (readDesc copyDesc).src (readDesc copyDesc).total).1 = some [1, 2, 3, 4] ∧
    (runs copyDesc [1, 2, 3, 4] none).inRegions Client.job.writes (readDesc copyDesc).dst 4 = true ∧
    ((runs farDesc [] none).jobRead (readDesc farDesc).src (readDesc farDesc).total).1 = none ∧ (readDesc farDesc).opcode = 0 := by decide +kernel
theorem wit_job_unpack : blkHeaderOk (block789.take 16) 19 = true ∧ blkUlen (block789.take 16) ≤ (readDesc unpackDesc).dstCap ∧
    (readDesc unpackDesc).total = 19 ∧ blkClen (block789.take 16) = 19 ∧
    decodeByteBlock live.byteTabs block789 = .ok [7, 8, 9] 19 ∧
    ((runs unpackDesc block789 none).jobRead (readDesc unpackDesc).src 16).1 = some (block789.take 16) ∧
    ((runs unpackDesc block789 none).jobRead (readDesc unpackDesc).src 19).1 = some block789 := by decide +kernel
theorem wit_job_codes : ((runs (packDesc 1) [1, 2, 3, 4] none).jobRead (readDesc (packDesc 1)).src (readDesc (packDesc 1)).total).1 = some [1, 2, 3, 4] ∧
    (encodeByteBlock live.byteTabs (readDesc (packDesc 1)).effort (readDesc (packDesc 1)).tab [1, 2, 3, 4]).length = 20 ∧
    (packSegment [1, 2, 3, 4] (readDesc (packDesc 4)).row0 0).length = 896 ∧ (readDesc (packDesc 4)).total = 4 ∧
    (readDesc (packDesc 3)).total = 61440 ∧ (readDesc (packDesc 3)).blockLen = 61440 ∧ (readDesc (packDesc 1)).dstCap = 0x20000 ∧
    (runs (packDesc 3) [] none).inRegions Client.job.writes (readDesc (packDesc 3)).dst 61456 = true := by decide +kernel
/-- The block of LEDGER_SNAP's one row, which is 61440 bytes long. -/
theorem wit_job_snap : ∃ src, ((runs (packDesc 3) [] none).jobRead ((runs (packDesc 3) [] none).ledgerRow (readDesc (packDesc 3)).row0)
      (readDesc (packDesc 3)).total).1 = some src ∧
    (encodeByteBlock live.byteTabs (readDesc (packDesc 3)).effort (readDesc (packDesc 3)).tab src).length = 61456 := by
  have hb : ((runs (packDesc 3) [] none).jobRead ((runs (packDesc 3) [] none).ledgerRow (readDesc (packDesc 3)).row0)
      (readDesc (packDesc 3)).total).1.isSome = true := by decide +kernel
  obtain ⟨src, h⟩ := Option.isSome_iff_exists.mp hb
  refine ⟨src, h, ?_⟩
  have hl : src.length = 61440 := by
    have e : (readDesc (packDesc 3)).total = 61440 := by decide +kernel
    simp only [State.jobRead] at h
    split at h
    · split at h
      · cases h; simp [e]
      · cases h
    · split at h
      · cases h
      · cases h; simp [e]
  have e0 : (readDesc (packDesc 3)).effort = 0 := by decide +kernel
  simp [encodeByteBlock, e0, storedBlock, hl, leBytes]

/-! Witnesses: the machine as a whole. -/

theorem wit_queue : ∃ t, exec .sesKill running = .next t := ⟨_, rfl⟩
theorem wit_form : running.Shaped ∧ Registers.wf running = true ∧ Memory.wf running = true ∧ ∃ t, step running = .next t :=
  ⟨by constructor <;> decide +kernel, by decide +kernel, by decide +kernel, _, rfl⟩

/-! The manual's worked examples. -/

/-- A plane of the reference screen (02_light_field_geometry.md, "The reference screen worked through"). -/
def heatherPlane (n : Nat) (d : Int) (bound : Nat) : LayerRec :=
  ⟨false, true, n, 0, false, 0, 0, 0, ⟨6144, 1728, 0, 0, 0x1000, 0x1000, d, d, false, false, bound, bound⟩, 0, 0⟩
/-- A probe of plane 7 and of plane 18 at emitter (30,731, 8,643), and of plane 7 at the left edge ("One emitter"). -/
theorem test_probe_plane7 : ((layerCoord Geom.reset (heatherPlane 7 0xB50 4).place 30731 8643).1.c,
    (layerCoord Geom.reset (heatherPlane 7 0xB50 4).place 30731 8643).2.c) = (0x300A2, 0xD8BC) := by decide +kernel
theorem test_probe_plane18 : ((layerCoord Geom.reset (heatherPlane 18 (-0x1400) 6).place 30731 8643).1.c,
    (layerCoord Geom.reset (heatherPlane 18 (-0x1400) 6).place 30731 8643).2.c) = (0x30258, 0xD978) := by decide +kernel
theorem test_probe_left_edge : probeWord false false (layerCoord Geom.reset (heatherPlane 7 0xB50 4).place 0 8643).1
    ((planeTaps 6144 false (layerCoord Geom.reset (heatherPlane 7 0xB50 4).place 0 8643).1.base).all (fun k => k.isNone)) = 0x01000034 := by
  decide +kernel
/-- R220: the check value of CRC-32C. -/
theorem test_crc32c : crc32c [0x31, 0x32, 0x33, 0x34, 0x35, 0x36, 0x37, 0x38, 0x39] = 0xE3069283 := by decide +kernel
/-- The scrambler's test vector (08_panel_link.md, "Scrambling"). -/
theorem test_scrambler : scrSeed 0 8643 = 0x10E1D ∧
    (scramble (scrSeed 0 8643) (List.replicate 16 false)).1 = bitsMsb 16 0x419B := by decide +kernel
/-- The row header of row 8,643 of turn 7,202 on port 4, lane 0 (08_panel_link.md, "Row header"). -/
theorem test_row_header : (headerWords 8643 64 false 4 0 7202 3 0x36C0 0x6D8).take 3 = [0x43870080, 0x1C22C000, 0x6D801B60] ∧
    pipHead 2 0 8643 = bitsMsb 10 0x203 := by decide +kernel
/-- Reset values of the manual's register index (17_register_index.md). -/
theorem test_reset_values : State.reset.rget 0x110020 = 0x08190190 ∧ State.reset.rget 0x404064 = 0x01290000 := by decide +kernel
/-- The linear kernel at phase 34 (04_ray_synthesis.md, "SYN_COEF"). -/
theorem test_linear_kernel : State.reset.ramPeek 0x03000110 = 0x1E000000 ∧ State.reset.ramPeek 0x03000114 = 0x00002200 := by decide +kernel
/-- A host reads CHIP_ID (13_control_plane.md, "Management bus"). -/
theorem test_read_chip_id : ∃ t, exec (.i2cRead 0x5C [0, 0, 0, 0] 1) live = .next t ∧ t.i2cOut = [0xF0, 0x7E, 0x00, 0x82] :=
  ⟨_, rfl, by decide +kernel⟩
/-- The sky ray (04_ray_synthesis.md, "A composited ray"). -/
theorem test_composited_ray : (([⟨0, 0, 0, 0⟩, ⟨2621, 2621, 2621, 131072⟩, ⟨36700, 62915, 178257, 262144⟩] : List Sample).foldl
    (RayAcc.step 0x400) RayAcc.init).finish ⟨0, 0, 0⟩ = ⟨20971, 34079, 91750⟩ := by decide +kernel
/-- The LUT page of the example (06_colour_and_calibration.md, "One emitter through the pipeline"). -/
def ridgeLut : LutPage :=
  [(0xF080, 0x3C00), (0xF081, 0x0400), (0xF082, 0), (0xF083, 0x200), (0xF084, 0x3C00), (0xF085, 0x200), (0xF086, 0), (0xF087, 0x400),
    (0xF088, 0x3C00), (0xF0E0, 640), (0xF0E1, 0x8800), (0xF0E2, 0x8000), (0xF0E3, 0x8000), (0xF0E8, 720), (0xF0E9, 0x8C00),
    (0xF0EA, 0x8100), (0xF0EB, 0x8000)]
theorem test_colour_example : colourRay ridgeLut ⟨664, 4, 76⟩ ⟨20971, 34079, 91750⟩ = ⟨23354, 35554, 88146⟩ := by decide +kernel
/-- The segment record of the example, with emitter 11's field. -/
def ridgeSeg : CalSeg := .record false
  (leBytes 4 0x80007C00 ++ leBytes 4 0x05667800 ++ leBytes 4 0xF0000008 ++ leBytes 4 0xF ++ List.replicate 12 0 ++ leBytes 4 0x200B0040 ++
    List.replicate 19 0 ++ [0x8C, 0x07] ++ List.replicate 843 0)
theorem test_emc_example : emcRay ridgeSeg 11 ⟨23354, 35554, 88146⟩ = ⟨22889, 35415, 82467⟩ := by decide +kernel
theorem test_encode_example : (encodeChan TurnTables.reset.fs (ditherOf 1 2 30731 8203 0) 22889,
    encodeChan TurnTables.reset.fs (ditherOf 1 2 30731 8203 1) 35415, encodeChan TurnTables.reset.fs (ditherOf 1 2 30731 8203 2) 82467,
    encodeChan TurnTables.reset.fs (ditherOf 1 3 30731 8203 1) 35415) = (0x259, 0x289, 0x350, 0x28A) := by decide +kernel
/-- The panel's stress tables of the example (07_panel_drive_and_ledger.md, "One pixel over five turns"). -/
def ridgeStress : StressTables :=
  ⟨List.replicate 23 0 ++ [0x00090000] ++ List.replicate 4 0 ++ [0x000B0000] ++ List.replicate 4 0 ++ [0x000E0000] ++ List.replicate 6 0,
    [0x08080808, 0x08090808]⟩
theorem test_ledger_example : ledgerStep ridgeStress ⟨664, 4, 76⟩ 0x259 0x289 0x350 21 = (3, 7) ∧
    rayWord 3 0x259 0x289 0x350 = 0xF50A2659 ∧ ledgerStep ridgeStress ⟨664, 4, 76⟩ 0x259 0x28A 0x350 7 = (2, 1) ∧
    ledgerStep ridgeStress ⟨736, 5, 25⟩ 0x259 0x289 0x350 1 = (2, -4) ∧ ledgerStep ridgeStress ⟨736, 5, 25⟩ 0x259 0x289 0x350 (-4) = (1, -1) := by
  decide +kernel

end Sys2Proof.Tests
end

section
/-! PROOFS. Snapshots of a path, the registers that report the turn, and the reads that R123 speaks of. -/

namespace Sys2Proof.Machine

/-! The snapshots of a path (R396). -/

theorem Snaps.of_mod_same (x : Snaps) (p : Path) (f : SMap W32 → SMap W32) : (x.mod p f).of p = f (x.of p) := by
  cases p <;> rfl

@[simp] theorem Snaps.of_armed (x : Snaps) (l : List Path) (p : Path) : Snaps.of { x with armed := l } p = x.of p := by
  cases p <;> rfl

/-- The snapshot taken reads as taken. -/
@[simp] theorem State.snap_snapSet_same (s : State) (p : Path) (a : Nat) (v : W32) : (s.snapSet p a v).snap p a = v := by
  unfold State.snap State.snapSet
  rw [Snaps.of_mod_same, SMap.get_set_same]

/-- The snapshot of another register on the path reads as before. -/
theorem State.snap_snapSet_other (s : State) (p : Path) {a b : Nat} (v : W32) (h : a ≠ b) :
    (s.snapSet p a v).snap p b = s.snap p b := by
  unfold State.snap State.snapSet
  rw [Snaps.of_mod_same, SMap.get_set_other _ _ _ h]

@[simp] theorem State.snapSet_lyr (s : State) (p : Path) (a : Nat) (v : W32) : (s.snapSet p a v).lyr = s.lyr := rfl

/-- Arming or disarming a path takes no snapshot. -/
@[simp] theorem State.snap_arm (s : State) (p q : Path) (on : Bool) (a : Nat) : (s.arm p on).snap q a = s.snap q a := by
  unfold State.snap State.arm
  rw [Snaps.of_armed]

/-- A path is armed as it was last told to be. -/
@[simp] theorem State.armed_arm (s : State) (p : Path) (on : Bool) : (s.arm p on).snaps.armed.contains p = on := by
  cases on with
  | false =>
    simp only [State.arm, Bool.false_eq_true, if_false, List.contains_eq_mem, List.mem_filter, bne_self_eq_false, and_false,
      decide_false]
  | true => simp only [State.arm, if_true, List.contains_eq_mem, List.mem_cons, true_or, decide_true]

/-! The registers that report the turn (R123). -/

theorem ofNat32_mod (n : Nat) : BitVec.ofNat 32 (n % 2 ^ 32) = BitVec.ofNat 32 n :=
  BitVec.eq_of_toNat_eq (by rw [BitVec.toNat_ofNat, BitVec.toNat_ofNat, Nat.mod_mod])

/-- A register of the layout that reports a part of the machine reads as that part. -/
theorem State.peek_of_computed (s : State) {a v : Nat} (hd : (regDesc a).isSome = true) (hc : s.computed a = some v) :
    s.peek a = BitVec.ofNat 32 v := by
  obtain ⟨d, hd⟩ := Option.isSome_iff_exists.mp hd
  simp only [State.peek, hd, hc, Option.map_some, Option.getD_some]

@[simp] theorem State.peek_turnLo (s : State) : s.peek R.LYR_TURN_LO = BitVec.ofNat 32 s.lyr.turn :=
  (s.peek_of_computed (by decide) rfl).trans (ofNat32_mod _)

@[simp] theorem State.peek_turnHi (s : State) : s.peek R.LYR_TURN_HI = BitVec.ofNat 32 (s.lyr.turn / 2 ^ 32) :=
  s.peek_of_computed (by decide) rfl

@[simp] theorem State.peek_flipTimeLo (s : State) : s.peek R.LYR_FLIP_TIME_LO = BitVec.ofNat 32 s.lyr.flipTime :=
  (s.peek_of_computed (by decide) rfl).trans (ofNat32_mod _)

@[simp] theorem State.peek_flipTimeHi (s : State) : s.peek R.LYR_FLIP_TIME_HI = BitVec.ofNat 32 (s.lyr.flipTime / 2 ^ 32) :=
  s.peek_of_computed (by decide) rfl

/-! Reads (R9, R123, R396). -/

/-- A read of a register without RC fields returns what it holds and changes nothing. -/
theorem State.readStored_of_rcMask_zero (s : State) {a : Nat} (h : (regDesc a).map RegDesc.rcMask = some 0) :
    s.readStored a = (s.peek a, s) := by
  obtain ⟨d, hd, hm⟩ := Option.map_eq_some_iff.mp h
  simp only [State.readStored, State.readNow, State.rcClear, hd, hm, if_true]

/-- A register that is always read from its snapshot returns that of the path and takes none. -/
theorem State.regRead_snapMember (s : State) (p : Path) {a : Nat} (hon : s.isOff a = false) (hr : inRam a = false)
    (hm : snapMember a = true) : s.regRead p a = (s.snap p a, s) := by
  rw [State.regRead, if_neg (ne_true_of_eq_false hon), if_neg (ne_true_of_eq_false hr), if_pos hm]

theorem State.regRead_flipTimeLo (s : State) (p : Path) (hon : s.isOff R.LYR_FLIP_TIME_LO = false) :
    s.regRead p R.LYR_FLIP_TIME_LO = s.readFlip p := by
  rw [State.regRead, if_neg (ne_true_of_eq_false hon), if_neg (by decide), if_neg (by decide), if_pos rfl]

/-- The snapshots that a read of LYR_TURN_LO takes. -/
def State.turnTaken (s : State) (p : Path) : State :=
  ((s.snapSet p R.LYR_TURN_HI (BitVec.ofNat 32 (s.lyr.turn / 2 ^ 32))).snapSet p R.LYR_FLIP_TIME_LO
    (BitVec.ofNat 32 s.lyr.flipTime)).snapSet p R.LYR_FLIP_TIME_HI (BitVec.ofNat 32 (s.lyr.flipTime / 2 ^ 32))

theorem State.snapTake_turnGroup (s : State) (p : Path) : s.snapTake p (snapGroup R.LYR_TURN_LO) = s.turnTaken p := by
  simp only [State.snapTake, snapGroup, if_true, List.foldl_cons, List.foldl_nil, State.peek_turnHi, State.peek_flipTimeLo,
    State.peek_flipTimeHi, State.snapSet_lyr, State.turnTaken]

/-- A read of LYR_TURN_LO takes the snapshots of its group and arms the path. -/
theorem State.regRead_turnLo (s : State) (p : Path) (hon : s.isOff R.LYR_TURN_LO = false) :
    s.regRead p R.LYR_TURN_LO = (BitVec.ofNat 32 s.lyr.turn, (s.turnTaken p).arm p true) := by
  have hread : s.regRead p R.LYR_TURN_LO = ((s.turnTaken p).arm p true).readStored R.LYR_TURN_LO := by
    rw [← s.snapTake_turnGroup p]
    exact (if_neg (ne_true_of_eq_false hon)).trans <| (if_neg (by decide)).trans <| (if_neg (by decide)).trans <|
      (if_neg (by decide)).trans <| (if_neg (by decide)).trans <| (if_neg (by decide)).trans rfl
  rw [hread, State.readStored_of_rcMask_zero _ (by decide), State.peek_turnLo]
  rfl

@[simp] theorem State.snap_turnTaken_turnHi (s : State) (p : Path) :
    (s.turnTaken p).snap p R.LYR_TURN_HI = BitVec.ofNat 32 (s.lyr.turn / 2 ^ 32) := by
  rw [State.turnTaken, State.snap_snapSet_other _ _ _ (by decide), State.snap_snapSet_other _ _ _ (by decide),
    State.snap_snapSet_same]

@[simp] theorem State.snap_turnTaken_flipTimeLo (s : State) (p : Path) :
    (s.turnTaken p).snap p R.LYR_FLIP_TIME_LO = BitVec.ofNat 32 s.lyr.flipTime := by
  rw [State.turnTaken, State.snap_snapSet_other _ _ _ (by decide), State.snap_snapSet_same]

@[simp] theorem State.snap_turnTaken_flipTimeHi (s : State) (p : Path) :
    (s.turnTaken p).snap p R.LYR_FLIP_TIME_HI = BitVec.ofNat 32 (s.lyr.flipTime / 2 ^ 32) := State.snap_snapSet_same ..

/-! The commands of R123, each as what it returns and the state it leaves. -/

/-- TURN_LO_READ. -/
theorem exec_turnLoRead (p : Path) (s : State) (hon : s.isOff R.LYR_TURN_LO = false) :
    exec (.turnLoRead p) s = .next (State.gave (BitVec.ofNat 32 s.lyr.turn, (s.turnTaken p).arm p true)) := by
  rw [← s.regRead_turnLo p hon]
  rfl

theorem exec_flipTimeLoRead (p : Path) (s : State) (hon : s.isOff R.LYR_FLIP_TIME_LO = false) :
    exec (.flipTimeLoRead p) s = .next (State.gave (s.readFlip p)) := by
  rw [← s.regRead_flipTimeLo p hon]
  rfl

/-- On an armed path the snapshot is returned and the path disarmed. -/
theorem State.readFlip_of_armed (s : State) (p : Path) (h : s.snaps.armed.contains p = true) :
    s.readFlip p = (s.snap p R.LYR_FLIP_TIME_LO, s.arm p false) := if_pos h

/-- On a path that is not armed the live value is returned and the high word captured. -/
theorem State.readFlip_of_not_armed (s : State) (p : Path) (h : s.snaps.armed.contains p = false) :
    s.readFlip p = (BitVec.ofNat 32 s.lyr.flipTime,
      s.snapSet p R.LYR_FLIP_TIME_HI (BitVec.ofNat 32 (s.lyr.flipTime / 2 ^ 32))) := by
  rw [State.readFlip, if_neg (ne_true_of_eq_false h), s.peek_flipTimeLo, State.snapTake, List.foldl_cons, s.peek_flipTimeHi]
  rfl

/-- Two reads of LYR_FLIP_TIME_LO on an armed path: the first returns the snapshot and takes none, the second the live value. -/
theorem flipTimeLoRead_twice_of_armed (p : Path) (t : State) (hon : t.isOff R.LYR_FLIP_TIME_LO = false)
    (ha : t.snaps.armed.contains p = true) :
    ∃ u, exec (.flipTimeLoRead p) t = .next u ∧ u.rdata = t.snap p R.LYR_FLIP_TIME_LO ∧ (∀ a, u.snap p a = t.snap p a) ∧
      u.snaps.armed.contains p = false ∧
      ∃ w, exec (.flipTimeLoRead p) u = .next w ∧ w.rdata = BitVec.ofNat 32 t.lyr.flipTime ∧
        w.snap p R.LYR_FLIP_TIME_HI = BitVec.ofNat 32 (t.lyr.flipTime / 2 ^ 32) := by
  have hfirst := exec_flipTimeLoRead p t hon
  rw [t.readFlip_of_armed p ha] at hfirst
  have hdisarmed : (State.gave (t.snap p R.LYR_FLIP_TIME_LO, t.arm p false)).snaps.armed.contains p = false := t.armed_arm p false
  have hsecond := exec_flipTimeLoRead p (State.gave (t.snap p R.LYR_FLIP_TIME_LO, t.arm p false)) hon
  rw [State.readFlip_of_not_armed _ p hdisarmed] at hsecond
  exact ⟨_, hfirst, rfl, fun a => t.snap_arm p p false a, hdisarmed, _, hsecond, rfl, State.snap_snapSet_same ..⟩

/-- SNAPSHOT_READ of a register that is always read from its snapshot. -/
theorem exec_snapshotRead_member (p : Path) (a : W32) (s : State) (hok : addrOk a.toNat = true) (hr : inRam a.toNat = false)
    (hon : s.isOff a.toNat = false) (hm : snapMember a.toNat = true) :
    exec (.snapshotRead p a) s = .next { s with rdata := s.snap p a.toNat } := by
  have hread : s.pathRead p a = State.gave (s.snap p a.toNat, s) := by
    rw [State.pathRead, if_pos hok, s.regRead_snapMember p hon hr hm]
  exact congrArg Host.Outcome.next hread

/-- Settles O6: each read by its own lemma. The flip time changes between the reads, so that the snapshot and the live value differ. -/
theorem turnReadArmsFlipTime : Obligations.TurnReadArmsFlipTime := by
  intro p x s hon
  refine ⟨?turn, ?live, ?turnHi, ?flipHi⟩
  case turn =>
    have harmed : ((s.turnTaken p).arm p true).snaps.armed.contains p = true := State.armed_arm _ p true
    have hlo : ((s.turnTaken p).arm p true).snap p R.LYR_FLIP_TIME_LO = BitVec.ofNat 32 s.lyr.flipTime :=
      (State.snap_arm ..).trans (s.snap_turnTaken_flipTimeLo p)
    obtain ⟨u, hu, hlow, hkeep, hdis, w, hw, hlive, hhigh⟩ := flipTimeLoRead_twice_of_armed p
      { State.gave (BitVec.ofNat 32 s.lyr.turn, (s.turnTaken p).arm p true) with lyr := { s.lyr with flipTime := x } } hon harmed
    exact ⟨_, exec_turnLoRead p s hon, rfl, rfl, (State.snap_arm ..).trans (s.snap_turnTaken_turnHi p), hlo,
      (State.snap_arm ..).trans (s.snap_turnTaken_flipTimeHi p), harmed, u, hu, hlow.trans hlo, hkeep, hdis, w, hw, hlive, hhigh⟩
  case live =>
    intro hna
    have hread := exec_flipTimeLoRead p s hon
    rw [s.readFlip_of_not_armed p hna] at hread
    exact ⟨_, hread, rfl, rfl, State.snap_snapSet_same .., State.snap_snapSet_other _ _ _ (by decide)⟩
  case turnHi => exact exec_snapshotRead_member p _ s rfl rfl hon rfl
  case flipHi => exact exec_snapshotRead_member p _ s rfl rfl hon rfl

end Sys2Proof.Machine
end

section
/-! PROOFS. Fences: their registers at reset, an update, and what reaching a target means (R114). -/

namespace Sys2Proof.Machine

/-- A field set to a value of its width holds it, and nothing else differs. -/
theorem fieldOnly_fset (s : State) (f : Fld) (n : Nat) (hf : f.ok) (hn : n < 2 ^ (f.hi + 1 - f.lo)) :
    s.fieldOnly (s.fset f n) f n := by
  refine ⟨⟨rfl, ?_⟩, ?_, ?_⟩
  · intro a ha
    exact rget_fset_other s f n a (fun h => ha (List.mem_singleton.mpr h.symm))
  · rw [fget_fset_same s f n hf, Nat.mod_eq_of_lt hn]
  · intro g _ hle hlt hapart
    exact fget_fset_other s f g n hf ⟨hle, hlt⟩ (.inr hapart)

theorem fenceVal_ok (n : Nat) : (F.LYR_FENCE_VAL_VALUE n).ok := ⟨Nat.zero_le 31, Nat.lt_succ_self 31⟩

/-- Every fence register resets to 0. -/
theorem regReset_fenceVal : ∀ n : Fin 64, regReset (R.LYR_FENCE_VAL n) = 0 := by decide +kernel

/-- An update stays on the device where fences are not shared, and below fence 48 (R292). -/
theorem State.fenceUpdate_own (s : State) (n v : Nat) (h : s.flag F.CAS_CTL_SYSFENCE = false ∨ n < 48) :
    s.fenceUpdate n v = s.fenceApply n v := by
  have hown : (s.flag F.CAS_CTL_SYSFENCE && decide (48 ≤ n)) = false := by
    obtain hsys | hlow := h
    · rw [hsys, Bool.false_and]
    · rw [decide_eq_false (by omega), Bool.and_false]
  rw [State.fenceUpdate, hown, if_neg Bool.false_ne_true]

/-- A write of a fence on the device itself is an update under R114. -/
theorem exec_fenceValueWrite_own (n : Fin 64) (v : W32) (s : State) (hon : s.isOff (R.LYR_FENCE_VAL n) = false)
    (h : s.flag F.CAS_CTL_SYSFENCE = false ∨ n.val < 48) :
    exec (.fenceValueWrite n v) s = .next (s.fenceApply n v.toNat) := by
  have hwrite : s.onReg (R.LYR_FENCE_VAL n) (fenceValueWrite n v) = s.fenceUpdate n v.toNat := if_neg (ne_true_of_eq_false hon)
  rw [← s.fenceUpdate_own n v.toNat h, ← hwrite]
  rfl

/-- A target is reached when the value lies less than 2^31 past it in serial-number order. -/
theorem reached_iff_toNat_sub_lt (val target : W32) :
    reached val.toNat target.toNat = true ↔ (val - target).toNat < 2 ^ 31 := by
  have ht := target.isLt
  rw [reached, decide_eq_true_iff, BitVec.toNat_sub, Nat.mod_eq_of_lt ht,
    show val.toNat + 2 ^ 32 - target.toNat = 2 ^ 32 - target.toNat + val.toNat by omega]

/-- Settles O13: a newer value sets the fence's field, any other leaves the state; the registers reset to 0; and the distance that reaches
a target is split at 0. -/
theorem fencesMoveForward : Obligations.FencesMoveForward := by
  intro n v s hon
  refine ⟨?update, regReset_fenceVal n, regReset_fenceVal n, ?reached⟩
  case update =>
    intro hown
    rw [exec_fenceValueWrite_own n v s hon hown]
    constructor
    · intro hnew
      rw [State.fenceApply, if_pos hnew]
      exact ⟨_, rfl, fieldOnly_fset s _ _ (fenceVal_ok n) v.isLt⟩
    · intro hold
      rw [State.fenceApply, if_neg (ne_true_of_eq_false hold)]
  case reached =>
    intro val target
    rw [reached_iff_toNat_sub_lt, ← BitVec.toNat_inj, show (0 : W32).toNat = 0 from rfl]
    omega

end Sys2Proof.Machine
end
